-- ==== Sys2Proof/Word.lean ====
section
/-!
DEFINITION. The word types of the Vorril and the finite maps its state is built from.
-/

namespace Sys2Proof

/-- A 32-bit register or instruction word. -/
abbrev Word := BitVec 32
/-- A 64-bit value: a register pair, a program counter, an address. -/
abbrev DWord := BitVec 64
/-- One bit for each lane of a wave; bit i is lane i (R73, R89). -/
abbrev Lanes := BitVec 64

/-- A finite map from numbers: pairs in rising order of their keys, without entries that hold the map's default. -/
abbrev SMap (α : Type) := List (Nat × α)

end Sys2Proof
end

