-- ==== Sys2Proof/Syntax.lean ====
section
/-!
DEFINITION. The instructions of the Vorril as syntax: the SIMT stream words of R44, the words of the matrix
sequencer's stream (R275), the words of a queue program (R387), and the steps that no program word names (a clause
header, the engines, the dispatcher, the owner's requests and the events of the platform). Fields are held as the
numbers their words hold; `WellFormed` says which numbers are admitted.
-/

namespace Sys2Proof

/-- The XW extension word of a V3 instruction (R39). `as` is written `asc`, `bs` is written `bsc`. -/
structure XW where
  c : Nat := 0
  rnd : Nat := 0
  sat : Bool := false
  nega : Bool := false
  negb : Bool := false
  negc : Bool := false
  absa : Bool := false
  absb : Bool := false
  bs : Bool := false
  as : Bool := false
  deriving DecidableEq, Repr

/-- Format V3 (R39). -/
structure V3 where
  d : Nat
  a : Nat
  b : Nat
  t : Nat
  xw : Option XW
  deriving DecidableEq, Repr

/-- Format RI (R39); the immediate is the raw 10-bit field. -/
structure RI where
  d : Nat
  a : Nat
  imm : Nat
  deriving DecidableEq, Repr

/-- Format RL (R39) with its 32-bit immediate word. -/
structure RL where
  d : Nat
  a : Nat
  mod : Nat
  imm : Nat
  deriving DecidableEq, Repr

/-- The MX extension word of a memory instruction (R39, R201); the offset is the raw 24-bit field. -/
structure MX where
  scope : Nat := 0
  order : Nat := 0
  cache : Nat := 0
  nt : Bool := false
  off24 : Nat := 0
  deriving DecidableEq, Repr

/-- Format M (R39, R201). -/
structure MF where
  d : Nat
  a : Nat
  off : Nat
  w : Nat
  mx : Option MX
  deriving DecidableEq, Repr

/-- The AX extension word of an atomic (R39, R222); the offset is the raw 22-bit field. -/
structure AX where
  scope : Nat
  order : Nat
  aop : Nat
  off22 : Nat
  deriving DecidableEq, Repr

/-- Format AM (R39, R222). -/
structure AM where
  d : Nat
  a : Nat
  b : Nat
  t : Nat
  ax : AX
  deriving DecidableEq, Repr

/-- Format B (R39); the offset is the raw 20-bit field. -/
structure BF where
  p : Nat
  pn : Nat
  off : Nat
  deriving DecidableEq, Repr

/-- Format S (R39). -/
structure SF where
  sd : Nat
  sa : Nat
  sb : Nat
  imm : Nat
  deriving DecidableEq, Repr

/-- Format K (R39). -/
structure KF where
  md : Nat
  ma : Nat
  mb : Nat
  s : Nat
  imm : Nat
  deriving DecidableEq, Repr

/-- Format C with its CX word (R39). -/
structure CF where
  p : Nat
  pn : Nat
  sa : Nat
  va : Nat
  vb : Nat
  bar : Nat
  batch : Nat
  deriving DecidableEq, Repr

/-- Format WF (R39). -/
structure WF where
  wld : Nat
  wst : Nat
  wcp : Nat
  wtx : Nat
  deriving DecidableEq, Repr

/-- The header of a ZCP request (R424, R425): the requesting master, its sequence number and the port it came in on. -/
structure ZcpHdr where
  master : Nat
  seq : Nat
  port : Nat
  deriving DecidableEq, Repr

/-- A PUT message as another node sends it (R261, R423); its destination is a list of physical ranges (address, bytes),
one for each page. -/
structure PutMsg where
  src : Nat
  id : Nat
  ctx : Nat
  pieces : List (Nat × Nat)
  counter : Nat
  increment : Nat
  data : List Nat
  deriving DecidableEq, Repr

/-- One constructor for each row of the opcode table. -/
inductive Instr where
  /-- R31: a clause header word, as fetched. -/
  | clauseHeader (w : Nat)
  /-- FADD, opcode 0x00 (R113). -/
  | fadd (f : V3)
  /-- FSUB, opcode 0x01 (R113). -/
  | fsub (f : V3)
  /-- FMUL, opcode 0x02 (R113). -/
  | fmul (f : V3)
  /-- FFMA, opcode 0x03 (R113). -/
  | ffma (f : V3)
  /-- FMIN, opcode 0x04 (R114). -/
  | fmin (f : V3)
  /-- FMAX, opcode 0x05 (R114). -/
  | fmax (f : V3)
  /-- FMINP, opcode 0x06 (R114). -/
  | fminp (f : V3)
  /-- FMAXP, opcode 0x07 (R114). -/
  | fmaxp (f : V3)
  /-- FRCP, opcode 0x08 (R113). -/
  | frcp (f : V3)
  /-- FRSQ, opcode 0x09 (R113). -/
  | frsq (f : V3)
  /-- FSQRT, opcode 0x0A (R113). -/
  | fsqrt (f : V3)
  /-- FDIV, opcode 0x0B (R113). -/
  | fdiv (f : V3)
  /-- FEXP2, opcode 0x0C (R115). -/
  | fexp2 (f : V3)
  /-- FLOG2, opcode 0x0D (R115). -/
  | flog2 (f : V3)
  /-- FSIN, opcode 0x0E (R115). -/
  | fsin (f : V3)
  /-- FCOS, opcode 0x0F (R115). -/
  | fcos (f : V3)
  /-- FRINT, opcode 0x10 (R116). -/
  | frint (f : V3)
  /-- FFRAC, opcode 0x11 (R116). -/
  | ffrac (f : V3)
  /-- FDOT2, opcode 0x12 (R117). -/
  | fdot2 (f : V3)
  /-- FCLASS, opcode 0x13 (R118). -/
  | fclass (f : V3)
  /-- FSCALE, opcode 0x14 (R119). -/
  | fscale (f : V3)
  /-- FCMP, opcode 0x15 (R120). -/
  | fcmp (f : V3)
  /-- IADD, opcode 0x20 (R122). -/
  | iadd (f : V3)
  /-- ISUB, opcode 0x21 (R122). -/
  | isub (f : V3)
  /-- IMUL, opcode 0x22 (R122). -/
  | imul (f : V3)
  /-- IMULH, opcode 0x23 (R122). -/
  | imulh (f : V3)
  /-- IMAD, opcode 0x24 (R122). -/
  | imad (f : V3)
  /-- IMIN, opcode 0x25 (R122). -/
  | imin (f : V3)
  /-- IMAX, opcode 0x26 (R122). -/
  | imax (f : V3)
  /-- IDIV, opcode 0x27 (R123). -/
  | idiv (f : V3)
  /-- IREM, opcode 0x28 (R123). -/
  | irem (f : V3)
  /-- AND, opcode 0x29 (R122). -/
  | iand (f : V3)
  /-- OR, opcode 0x2A (R122). -/
  | ior (f : V3)
  /-- XOR, opcode 0x2B (R122). -/
  | ixor (f : V3)
  /-- SHL, opcode 0x2C (R122). -/
  | shl (f : V3)
  /-- SHR, opcode 0x2D (R122). -/
  | shr (f : V3)
  /-- ROT, opcode 0x2E (R122). -/
  | rot (f : V3)
  /-- BFE, opcode 0x2F (R124). -/
  | bfe (f : V3)
  /-- BFI, opcode 0x30 (R124). -/
  | bfi (f : V3)
  /-- POPC, opcode 0x31 (R122). -/
  | popc (f : V3)
  /-- CLZ, opcode 0x32 (R122). -/
  | clz (f : V3)
  /-- BREV, opcode 0x33 (R122). -/
  | brev (f : V3)
  /-- ICMP, opcode 0x34 (R125). -/
  | icmp (f : V3)
  /-- IADD64, opcode 0x35 (R126). -/
  | iadd64 (f : V3)
  /-- IMADW, opcode 0x36 (R126). -/
  | imadw (f : V3)
  /-- IHASH, opcode 0x37 (R71). -/
  | ihash (f : V3)
  /-- LEA, opcode 0x38 (R126). -/
  | lea (f : V3)
  /-- SEL, opcode 0x39 (R127). -/
  | sel (f : V3)
  /-- MOV, opcode 0x3A (R122). -/
  | mov (f : V3)
  /-- MOVI, opcode 0x40 (R128). -/
  | movi (f : RL)
  /-- IADDI, opcode 0x41 (R128). -/
  | iaddi (f : RI)
  /-- LOGI, opcode 0x42 (R128). -/
  | logi (f : RL)
  /-- ICMPI, opcode 0x43 (R128). -/
  | icmpi (f : RI)
  /-- CVT, opcode 0x44 (R129). -/
  | cvt (f : RL)
  /-- PACK, opcode 0x45 (R131). -/
  | pack (f : V3)
  /-- PRMT, opcode 0x46 (R131). -/
  | prmt (f : V3)
  /-- SREG, opcode 0x47 (R132). -/
  | sreg (f : RI)
  /-- SRSET, opcode 0x48 (R132). -/
  | srset (f : RI)
  /-- VXRD, opcode 0x49 (R133). -/
  | vxrd (f : V3)
  /-- VXWR, opcode 0x4A (R133). -/
  | vxwr (f : V3)
  /-- VMOVS, opcode 0x4B (R134). -/
  | vmovs (f : V3)
  /-- SMOVV, opcode 0x4C (R134). -/
  | smovv (f : V3)
  /-- SHFL, opcode 0x50 (R136). -/
  | shfl (f : V3)
  /-- VOTE, opcode 0x51 (R137). -/
  | vote (f : V3)
  /-- REDUX, opcode 0x52 (R138). -/
  | redux (f : V3)
  /-- SCANX, opcode 0x53 (R138). -/
  | scanx (f : V3)
  /-- MATCH, opcode 0x54 (R139). -/
  | matchx (f : V3)
  /-- ELECT, opcode 0x55 (R137). -/
  | elect (f : V3)
  /-- SALU, opcode 0x56 (R140). -/
  | salu (f : SF)
  /-- SMOVI, opcode 0x57 (R128). -/
  | smovi (f : RL)
  /-- SCMP, opcode 0x58 (R141). -/
  | scmp (f : SF)
  /-- LD, opcode 0x60 (R208). -/
  | ld (f : MF)
  /-- ST, opcode 0x61 (R208). -/
  | st (f : MF)
  /-- LDS, opcode 0x62 (R208). -/
  | lds (f : MF)
  /-- STS, opcode 0x63 (R208). -/
  | sts (f : MF)
  /-- LDW, opcode 0x64 (R211). -/
  | ldw (f : MF)
  /-- LDC, opcode 0x65 (R211). -/
  | ldc (f : MF)
  /-- STF, opcode 0x66 (R211). -/
  | stf (f : MF)
  /-- LDSW, opcode 0x67 (R211). -/
  | ldsw (f : MF)
  /-- LDSC, opcode 0x68 (R211). -/
  | ldsc (f : MF)
  /-- STSF, opcode 0x69 (R211). -/
  | stsf (f : MF)
  /-- FESET, opcode 0x6A (R214). -/
  | feset (f : MF)
  /-- FEGET, opcode 0x6B (R214). -/
  | feget (f : MF)
  /-- SLD, opcode 0x6C (R208). -/
  | sld (f : MF)
  /-- FENCE, opcode 0x6D (R209). -/
  | fence (f : MF)
  /-- BIND, opcode 0x6E (R210). -/
  | bind (f : V3)
  /-- UNBIND, opcode 0x6F (R210). -/
  | unbind (f : V3)
  /-- WAITA, opcode 0x70 (R221). -/
  | waita (f : V3)
  /-- CPIN, opcode 0x71 (R228). -/
  | cpin (f : MF)
  /-- CUNPIN, opcode 0x72 (R227). -/
  | cunpin (f : MF)
  /-- CWB, opcode 0x73 (R227). -/
  | cwb (f : MF)
  /-- CINV, opcode 0x74 (R227). -/
  | cinv (f : MF)
  /-- ICINV, opcode 0x75 (R227). -/
  | icinv (f : MF)
  /-- FETCHBAR, opcode 0x76 (R230). -/
  | fetchbar (f : SF)
  /-- PREF, opcode 0x77 (R231). -/
  | pref (f : MF)
  /-- ATOM, opcode 0x80 (R223). -/
  | atom (f : AM)
  /-- ATOMF, opcode 0x81 (R224). -/
  | atomf (f : AM)
  /-- CAS, opcode 0x82 (R225). -/
  | cas (f : AM)
  /-- RED, opcode 0x83 (R223). -/
  | red (f : AM)
  /-- REDF, opcode 0x84 (R224). -/
  | redf (f : AM)
  /-- VISMIN, opcode 0x85 (R226). -/
  | vismin (f : AM)
  /-- ATOMS, opcode 0x86 (R223). -/
  | atoms (f : AM)
  /-- CASS, opcode 0x87 (R225). -/
  | cass (f : AM)
  /-- BRA, opcode 0x90 (R144). -/
  | bra (f : BF)
  /-- BRX, opcode 0x91 (R144). -/
  | brx (f : V3)
  /-- CALL, opcode 0x92 (R144). -/
  | call (f : RL)
  /-- CALLX, opcode 0x93 (R144). -/
  | callx (f : V3)
  /-- RET, opcode 0x94 (R144). -/
  | ret (f : V3)
  /-- EXIT, opcode 0x95 (R146). -/
  | exit (f : BF)
  /-- JOIN, opcode 0x96 (R147). -/
  | join (f : KF)
  /-- LEAVE, opcode 0x97 (R147). -/
  | leave (f : KF)
  /-- WAITM, opcode 0x98 (R147). -/
  | waitm (f : KF)
  /-- MSET, opcode 0x99 (R150). -/
  | mset (f : KF)
  /-- MTEST, opcode 0x9A (R151). -/
  | mtest (f : KF)
  /-- YIELD, opcode 0x9B (R152). -/
  | yield
  /-- NOP, opcode 0x9C (R152). -/
  | nop
  /-- WAIT, opcode 0x9D (R152). -/
  | wait (f : WF)
  /-- TRAP, opcode 0x9E (R166). -/
  | trap (f : RI)
  /-- BKPT, opcode 0x9F (R166). -/
  | bkpt
  /-- BARA, opcode 0xA0 (R157). -/
  | bara (f : SF)
  /-- BARW, opcode 0xA1 (R158). -/
  | barw (f : SF)
  /-- BARS, opcode 0xA2 (R157). -/
  | bars (f : SF)
  /-- BARM, opcode 0xA3 (R159). -/
  | barm (f : SF)
  /-- COPY, opcode 0xA4 (R236). -/
  | copy (f : CF)
  /-- CWAIT, opcode 0xA5 (R241). -/
  | cwait (f : V3)
  /-- CSEAL, opcode 0xA6 (R245). -/
  | cseal (f : SF)
  /-- CBWAIT, opcode 0xA7 (R245). -/
  | cbwait (f : SF)
  /-- LAYOUT, opcode 0xA8 (R252). -/
  | layout (f : CF)
  /-- PUT, opcode 0xA9 (R259). -/
  | put (f : CF)
  /-- GROW, opcode 0xAA (R161). -/
  | grow (f : SF)
  /-- MFORK, opcode 0xAB (R271). -/
  | mfork (f : SF)
  /-- MJOIN, opcode 0xAC (R272). -/
  | mjoin (f : SF)
  /-- VPUSH, opcode 0xAD (R408). -/
  | vpush (f : V3)
  /-- VPOP, opcode 0xAE (R409). -/
  | vpop (f : V3)
  /-- VFREE, opcode 0xAF (R410). -/
  | vfree (f : SF)
  /-- TEX, opcode 0xB0 (R295). -/
  | tex (f : V3)
  /-- TEXL, opcode 0xB1 (R295). -/
  | texl (f : V3)
  /-- TEXG, opcode 0xB2 (R295). -/
  | texg (f : V3)
  /-- TLD, opcode 0xB3 (R295). -/
  | tld (f : V3)
  /-- TQUERY, opcode 0xB4 (R295). -/
  | tquery (f : V3)
  /-- HGFETCH, opcode 0xB5 (R295). -/
  | hgfetch (f : V3)
  /-- HGSCAT, opcode 0xB6 (R295). -/
  | hgscat (f : V3)
  /-- HGSETTLE, opcode 0xB7 (R295). -/
  | hgsettle (f : V3)
  /-- RAST, opcode 0xC0 (R322). -/
  | rast (f : V3)
  /-- ATTR, opcode 0xC1 (R329). -/
  | attr (f : V3)
  /-- FLIP, opcode 0xC2 (R332). -/
  | flip (f : SF)
  /-- TRISET, opcode 0xC3 (R317). -/
  | triset (f : SF)
  /-- RBOX, opcode 0xD0 (R342). -/
  | rbox (f : V3)
  /-- RTRI, opcode 0xD1 (R342). -/
  | rtri (f : V3)
  /-- RXFM, opcode 0xD2 (R342). -/
  | rxfm (f : V3)
  /-- RSTKP, opcode 0xD3 (R342). -/
  | rstkp (f : V3)
  /-- RSTKO, opcode 0xD4 (R342). -/
  | rstko (f : V3)
  /-- RTRAIL, opcode 0xD5 (R342). -/
  | rtrail (f : V3)
  /-- VFORK, opcode 0xE0 (R364). -/
  | vfork (f : SF)
  /-- VCOMMIT, opcode 0xE1 (R364). -/
  | vcommit (f : SF)
  /-- VSQUASH, opcode 0xE2 (R364). -/
  | vsquash (f : SF)
  /-- VSET, opcode 0xE3 (R364). -/
  | vset (f : SF)
  /-- VQUERY, opcode 0xE4 (R364). -/
  | vquery (f : SF)
  /-- VDEADL, opcode 0xE5 (R364). -/
  | vdeadl (f : SF)
  /-- TRET, opcode 0xF0 (R165). -/
  | tret
  /-- SLEEP, opcode 0xF1 (R154). -/
  | sleep (f : RI)
  /-- PGREQ, opcode 0xF2 (R164). -/
  | pgreq (f : SF)
  /-- RSTLBL, opcode 0xF3 (R162). -/
  | rstlbl (f : BF)
  /-- EVENT, opcode 0xF4 (R163). -/
  | event (f : SF)
  /-- Stream word MNOP, opcode 0x00 (R275). -/
  | mnop (fen : Nat)
  /-- Stream word MCLAIM, opcode 0x01 (R275). -/
  | mclaim (e kind mask : Nat)
  /-- Stream word MREL, opcode 0x02 (R275). -/
  | mrel (e kind mask : Nat)
  /-- Stream word MLOAD, opcode 0x03 (R275). -/
  | mload (e q xa xs fmt sp : Nat)
  /-- Stream word MZERO, opcode 0x04 (R275). -/
  | mzero (e mask : Nat)
  /-- Stream word MMA, opcode 0x05 (R275). -/
  | mma (e ac qa qb : Nat)
  /-- Stream word MMAS, opcode 0x06 (R275). -/
  | mmas (e ac qa qb qs : Nat)
  /-- Stream word MSTORE, opcode 0x07 (R275). -/
  | mstore (e ac xa xs fmt sp sat toq q : Nat)
  /-- Stream word MBARA, opcode 0x08 (R275). -/
  | mbara (b x : Nat)
  /-- Stream word MBARW, opcode 0x09 (R275). -/
  | mbarw (b x : Nat)
  /-- Stream word MLOOP, opcode 0x0A (R275). -/
  | mloop (reg xc cnt : Nat)
  /-- Stream word MEND, opcode 0x0B (R275). -/
  | mend
  /-- Stream word MSET_STREAM, opcode 0x0C (R275). -/
  | msetStream (xd q16 keep imm : Nat)
  /-- Stream word MADD_IMM, opcode 0x0D (R275). -/
  | maddImm (xd xa imm : Nat)
  /-- Stream word MADD_REG, opcode 0x0D (R275). -/
  | maddReg (xd xa xb : Nat)
  /-- Stream word MACT, opcode 0x0E (R275). -/
  | mact (e ac fn sh : Nat)
  /-- Stream word MSCALE, opcode 0x0F (R275). -/
  | mscale (e ac n : Nat)
  /-- Stream word MHALT, opcode 0x10 (R275). -/
  | mhalt
  /-- Queue-program word PLD, opcode 0x01 (R387). -/
  | qpld (d off w : Nat)
  /-- Queue-program word PST, opcode 0x02 (R387). -/
  | qpst (b off w : Nat)
  /-- Queue-program word WLD, opcode 0x03 (R387). -/
  | qwld (d a off w n : Nat)
  /-- Queue-program word WST, opcode 0x04 (R387). -/
  | qwst (a b off w n : Nat)
  /-- Queue-program word WADD, opcode 0x05 (R387). -/
  | qwadd (d a b off n : Nat)
  /-- Queue-program word ADD, opcode 0x08 (R387). -/
  | qadd (d a b : Nat)
  /-- Queue-program word SUB, opcode 0x09 (R387). -/
  | qsub (d a b : Nat)
  /-- Queue-program word QP_AND, opcode 0x0A (R387). -/
  | qand (d a b : Nat)
  /-- Queue-program word QP_OR, opcode 0x0B (R387). -/
  | qor (d a b : Nat)
  /-- Queue-program word QP_XOR, opcode 0x0C (R387). -/
  | qxor (d a b : Nat)
  /-- Queue-program word QP_SHL, opcode 0x0D (R387). -/
  | qshl (d a b : Nat)
  /-- Queue-program word QP_SHR, opcode 0x0E (R387). -/
  | qshr (d a b : Nat)
  /-- Queue-program word ADDI, opcode 0x0F (R387). -/
  | qaddi (d a imm : Nat)
  /-- Queue-program word LI, opcode 0x10 (R387). -/
  | qli (d imm32 : Nat)
  /-- Queue-program word LIH, opcode 0x11 (R387). -/
  | qlih (d imm32 : Nat)
  /-- Queue-program word CMP, opcode 0x12 (R387). -/
  | qcmp (d a b c : Nat)
  /-- Queue-program word BZ, opcode 0x18 (R387). -/
  | qbz (a imm : Nat)
  /-- Queue-program word BNZ, opcode 0x19 (R387). -/
  | qbnz (a imm : Nat)
  /-- Queue-program word JMP, opcode 0x1A (R387). -/
  | qjmp (imm : Nat)
  /-- Queue-program word LOOP, opcode 0x1B (R387). -/
  | qloop (a imm : Nat)
  /-- Queue-program word ENDL, opcode 0x1C (R387). -/
  | qendl
  /-- Queue-program word LAUNCH, opcode 0x20 (R387). -/
  | qlaunch
  /-- Queue-program word DEPSET, opcode 0x21 (R387). -/
  | qdepset (a b off n : Nat)
  /-- Queue-program word DEPDEC, opcode 0x22 (R387). -/
  | qdepdec (a off n : Nat)
  /-- Queue-program word SIGNAL, opcode 0x23 (R387). -/
  | qsignal (a : Nat)
  /-- Queue-program word DONE, opcode 0x24 (R387). -/
  | qdone
  /-- Queue-program word RETRY, opcode 0x25 (R387). -/
  | qretry
  /-- Queue-program word FAULT, opcode 0x26 (R387). -/
  | qfault (imm : Nat)
  /-- LATE_TRAP (R204): the focused wave, at a clause boundary outside handler mode, takes the first late trap it holds. -/
  | evLateTrap
  /-- COUNTED_RESULT (R36, R37): the k-th outstanding operation of counter ctr (0 WLD, 1 WST, 2 WCP, 3 WTX) of the focused wave performs the lanes named, and lands the registers named by the bits of regs; an atomic that may run in the L1 does so when inL1. -/
  | evCountedResult (ctr k : Nat) (lanes : Nat) (regs : Nat) (inL1 : Bool)
  /-- REEVALUATION (R219): a woken lane of the focused wave attempts again. -/
  | evReevaluation (lane : Nat)
  /-- SLEEP_END (R154): the focused wave ends its sleep once the reference count has advanced enough. -/
  | evSleepEnd
  /-- YIELD_END (R153): the focused wave ends its yield. -/
  | evYieldEnd
  /-- COMBINING_BUFFER_DRAIN (R180): one combining buffer of a core drains. -/
  | evCombiningBufferDrain (core buf : Nat)
  /-- PLACEMENT (R396, R397): the dispatcher of a stack makes its next placement of a cohort, or pre-empts for REALTIME work that fits nowhere (R100). -/
  | evPlacement (stack : Nat)
  /-- RELAUNCH (R105): the dispatcher of a stack places again the next cohort that waits for relaunch. -/
  | evRelaunch (stack : Nat)
  /-- WATCHDOG (R403): the idx-th running watchdog expires. -/
  | evWatchdog (idx : Nat)
  /-- COPY_ACCEPT (R239): a copy engine accepts the issued command id. -/
  | evCopyAccept (id : Nat)
  /-- LAYOUT_START (R250): the layout engine of a cluster starts its next accepted command. -/
  | evLayoutStart (cluster : Nat)
  /-- CHUNK_COMPLETE (R239, R243): one chunk of the command id lands; when it is poisoned, part names the 16-byte pieces that were written. -/
  | evChunkComplete (id chunk : Nat) (part : Nat)
  /-- PUT_MESSAGE (R261): this module receives a PUT and performs its writes and counter addition, or refuses it. -/
  | evPutMessage (m : PutMsg)
  /-- PUTACK (R261): the acknowledgement of PUT command id arrives; err is 0 or the refusal code. -/
  | evPutack (id : Nat) (err : Nat)
  /-- FRAME_SEND (R335): the egress engine takes the next queued frame record of a context. -/
  | evFrameSend (ctx : Nat)
  /-- FRAMEACK (R335): the acceptance or refusal of a frame arrives. -/
  | evFrameack (id : Nat) (ok : Bool)
  /-- FRAME_MESSAGE (R422): a FRAME message from another node arrives and is refused. -/
  | evFrameMessage (src : Nat)
  /-- NO_ROUTE (R422): the idx-th message held for a route for 1 ms fails. -/
  | evNoRoute (idx : Nat)
  /-- FIBRE_DOWN (R421): a fibre that failed 16 sends of one flit is marked down. -/
  | evFibreDown (port fibre : Nat)
  /-- LOG_REPLAY (R369): the oldest log entry waiting for replay is replayed. -/
  | evLogReplay
  /-- DEADLINE_EXPIRY (R374): a deadline check finds the deadline of a LIVE version passed. -/
  | evDeadlineExpiry (ctx tag : Nat)
  /-- TAG_RECLAIM (R372): an ended version tag becomes FREE. -/
  | evTagReclaim (ctx tag : Nat)
  /-- QUEUE_TIMER (R378): the 10 microsecond timer notifies a queue. -/
  | evQueueTimer (ctx q : Nat)
  /-- RUN (R385): the interpreter starts a run of a queue over its next pending packet. -/
  | evRun (ctx q : Nat)
  /-- BUDGET (R389): the focused run, about to begin its 257th instruction, faults its queue. -/
  | evBudget
  /-- NOP_PACKET (R380): a NOP packet, or one of a type that is refused that is the next work of the dispatcher of a stack is taken. -/
  | evNopPacket (stack : Nat)
  /-- KERNEL_LAUNCH (R381): a kernel launch packet that is the next work of the dispatcher of a stack is taken. -/
  | evKernelLaunch (stack : Nat)
  /-- COPY_PACKET (R382): a copy packet that is the next work of the dispatcher of a stack is given to the copy engine of a core. -/
  | evCopyPacket (stack core : Nat)
  /-- COMMIT_PACKET (R383): a commit or squash packet that is the next work of the dispatcher of a stack is taken. -/
  | evCommitPacket (stack : Nat)
  /-- INVALIDATION (R384): a translation invalidation packet that is the next work of the dispatcher of a stack is taken. -/
  | evInvalidation (stack : Nat)
  /-- FAULT_RESOLUTION (R384): a fault resolution packet that is the next work of the dispatcher of a stack is taken. -/
  | evFaultResolution (stack : Nat)
  /-- PACKET_COMPLETION (R380): the completion engine executes the idx-th pending completion. -/
  | evPacketCompletion (idx : Nat)
  /-- POOL_RECORD (R400): the front end of a pool launch consumes its next continuation record. -/
  | evPoolRecord (launch : Nat)
  /-- POOL_FLUSH (R402): a FLUSH write makes the front end of a pool emit every bin that holds a record. -/
  | evPoolFlush (launch : Nat)
  /-- POOL_QUIESCENCE (R402): a quiescent pool emits its bins or completes its launch. -/
  | evPoolQuiescence (launch : Nat)
  /-- FIFO_ENTRY_AVAILABLE (R411): the oldest entry of a vertical FIFO that is not yet available becomes available. -/
  | evFifoEntryAvailable (pair dir : Nat)
  /-- ISLAND_GATED (R417): a CLOSING island becomes GATED. -/
  | evIslandGated (cluster : Nat)
  /-- ISLAND_ON (R419): an OPENING island reaches ON. -/
  | evIslandOn (cluster : Nat)
  /-- LEVEL_CHANGE (R416): the requested level of an island takes effect. -/
  | evLevelChange (cluster : Nat)
  /-- CLAIM (R429): a ZCP CLAIM. -/
  | evClaim (h : ZcpHdr) (rank : Nat) (nonce : Nat)
  /-- ROLL_CALL_CLOSE (R429): the roll call closes. -/
  | evRollCallClose
  /-- OWNERSHIP_LAPSE (R430): ownership lapses. -/
  | evOwnershipLapse
  /-- HANDOVER (R430): the owner names a successor. -/
  | evHandover (h : ZcpHdr) (successor : Nat)
  /-- ACCEPT (R430): the successor accepts. -/
  | evAccept (h : ZcpHdr)
  /-- CTXSTART (R376): a context is started from its record at a physical address. -/
  | evCtxstart (h : ZcpHdr) (addr : Nat)
  /-- CTXEND (R376): a context is ended. -/
  | evCtxend (h : ZcpHdr) (ctx : Nat)
  /-- QCREATE (R377): a queue is created from its descriptor. -/
  | evQcreate (h : ZcpHdr) (ctx addr : Nat)
  /-- DOORBELL (R378): a queue is notified. -/
  | evDoorbell (h : ZcpHdr) (ctx q : Nat)
  /-- SUSPEND (R379): a queue (or with q = 64 every queue of a context) is suspended. -/
  | evSuspend (h : ZcpHdr) (ctx q : Nat)
  /-- RESUME (R379): a queue (or with q = 64 every queue of a context) is resumed. -/
  | evResume (h : ZcpHdr) (ctx q : Nat)
  /-- RESOLVE (R175): a fault is resolved. -/
  | evResolve (h : ZcpHdr) (stack token : Nat) (refuse : Bool)
  /-- SQUASH_REQUEST (R370): a version is squashed with reason OWNER. -/
  | evSquashRequest (h : ZcpHdr) (ctx tag : Nat)
  /-- ISLAND (R416): a power request of the owner. -/
  | evIsland (h : ZcpHdr) (island request : Nat)
  /-- CAP (R438): the power cap is set. -/
  | evCap (h : ZcpHdr) (watts : Nat)
  /-- EVENTRING (R440): the event ring is installed. -/
  | evEventring (h : ZcpHdr) (base size : Nat)
  /-- FAULTRING (R175): the fault queue page of a stack is installed. -/
  | evFaultring (h : ZcpHdr) (stack base : Nat)
  /-- INPUT (R426): a real input is written into the ring of a queue. -/
  | evInput (h : ZcpHdr) (ctx q : Nat) (data : List Nat)
  /-- TELEMETRY (R425): a telemetry request. -/
  | evTelemetry (h : ZcpHdr)
  /-- IMAGE (R433): a fragment of a firmware image; good is the outcome of the signature check at completion. -/
  | evImage (h : ZcpHdr) (off total : Nat) (data : List Nat) (good : Bool)
  /-- CONFIG (R433): a fragment of a configuration record; good is the outcome of the signature check at completion. -/
  | evConfig (h : ZcpHdr) (off total : Nat) (data : List Nat) (good : Bool)
  /-- RESET (R442): the owner requests a module reset. -/
  | evReset (h : ZcpHdr)
  /-- POWER_MEASUREMENT (R438): a power measurement. -/
  | evPowerMeasurement (watts : Nat)
  /-- ADVISE (R439): a sensor reaches its advise trip point. -/
  | evAdvise (sensor : Nat)
  /-- THROTTLE (R439): a sensor reaches its throttle trip point. -/
  | evThrottle (sensor : Nat)
  /-- SHUT_DOWN (R439): a sensor reaches its shut-down trip point. -/
  | evShutDown (sensor : Nat)
  /-- TRIP_CLEAR (R439): a reading falls 5 C below a trip point. -/
  | evTripClear (sensor level : Nat)
  /-- TIME_SYNC (R427): synchronisation is lost or regained, or the time is stepped. -/
  | evTimeSync (sync : Bool) (time : Nat)
  /-- SERVICE_FIRMWARE_RESTART (R431): the service firmware restarts. -/
  | evServiceFirmwareRestart
  /-- MODULE_RESET (R442): the module is reset. -/
  | evModuleReset
  /-- ENGINE_WORD_TAKES_EFFECT (R269): the idx-th queued word of the matrix engine of a core takes effect. -/
  | evEngineWordTakesEffect (core idx : Nat) (part : Nat)
  /-- RPTR_ADVANCE (R175): the service firmware advances RPTR. -/
  | evRptrAdvance (stack rptr : Nat)
  /-- SOFT_ERROR (R185): a soft error strikes a sector. -/
  | evSoftError (addr : Nat) (uncorrectable : Bool)
  /-- THROTTLE_FLUSH_WRITE_BACK (R183): one dirty line of a throttled cache die is written back. -/
  | evThrottleFlushWriteBack (die line : Nat)
  /-- PORT_COMES_UP (R422): an optical port comes up again. -/
  | evPortComesUp (port : Nat)
  /-- HOST_PORT_TRAINING (R424): a host port trains (1 10GBASE-T1, 2 1000BASE-T1) or loses its link (0). -/
  | evHostPortTraining (port : Nat) (speed : Nat)
  /-- MACSEC_FAILURE (R424): a frame fails MACsec and is dropped. -/
  | evMacsecFailure (port : Nat)
  deriving DecidableEq, Repr

end Sys2Proof
end

