-- ==== Sys2Proof/Machine/Fields.lean ====
section
/-!
DEFINITION. The encoding tables of the instruction words (R39, R44, R275, R386) and the field rules of each word: the
values its entry admits (order 3 of R45), the mask registers it names (order 4), and the registers it names (order 5).
-/

namespace Sys2Proof

/-- The formats of R39. -/
inductive Fmt where
  | v3 | ri | rl | m | am | b | s | k | c | wf | z
  deriving DecidableEq, Repr

/-- The fields of one SIMT word and its extension word. -/
inductive Form where
  | v3 (f : V3) | ri (f : RI) | rl (f : RL) | m (f : MF) | am (f : AM) | b (f : BF) | s (f : SF) | k (f : KF)
  | c (f : CF) | wf (f : WF) | z
  deriving DecidableEq, Repr

/-- R40: an even register number. -/
def even (n : Nat) : Bool := n % 2 == 0

/-- Which fields of an XW word an entry admits (R41, R108); `rnd` is the greatest RND admitted. -/
structure Allow where
  rnd : Nat := 0
  sat : Bool := false
  nega : Bool := false
  negb : Bool := false
  negc : Bool := false
  absa : Bool := false
  absb : Bool := false
  bs : Bool := false
  as : Bool := false
  c : Bool := false

/-- R111: the fields of a floating-point instruction with two sources. -/
def Allow.fp2 (rnd : Nat) (sat : Bool) : Allow :=
  { rnd := rnd, sat := sat, nega := true, negb := true, absa := true, absb := true, bs := true, as := true }

/-- R108, R111: the fields of a floating-point instruction with one source. -/
def Allow.fp1 (rnd : Nat) (sat : Bool) : Allow := { rnd := rnd, sat := sat, nega := true, absa := true, as := true }

/-- R121: the fields of an integer instruction with two sources. -/
def Allow.int2 (sat : Bool) : Allow := { sat := sat, bs := true, as := true }

/-- R41: every XW field that the entry does not use is zero. -/
def XW.fits (x : XW) (a : Allow) : Bool :=
  decide (x.rnd ≤ a.rnd) && (a.sat || !x.sat) && (a.nega || !x.nega) && (a.negb || !x.negb) && (a.negc || !x.negc)
    && (a.absa || !x.absa) && (a.absb || !x.absb) && (a.bs || !x.bs) && (a.as || !x.as) && (a.c || x.c == 0)

/-- R108: without an extension word every XW field counts as 0. -/
def V3.x (f : V3) : XW := f.xw.getD {}

/-- The vector registers that source A of `k + 1` registers names (none when it is scalar): its highest. -/
def V3.vA (f : V3) (k : Nat) : List Nat := if f.x.as then [] else [f.a + k]
/-- The vector registers that source B names: its highest. -/
def V3.vB (f : V3) (k : Nat) : List Nat := if f.x.bs then [] else [f.b + k]
/-- The scalar registers that source A names: its highest. -/
def V3.sA (f : V3) (k : Nat) : List Nat := if f.x.as then [f.a + k] else []
/-- The scalar registers that source B names: its highest. -/
def V3.sB (f : V3) (k : Nat) : List Nat := if f.x.bs then [f.b + k] else []
/-- The register named by XW.C when an extension word is present, with `k` more above it (R342). -/
def V3.optC (f : V3) (k : Nat) : List Nat := match f.xw with
  | none => []
  | some x => [x.c + k]
/-- R135: the member mask named by XW.C[3:0]; 15, or no extension word, selects the ACTIVE set. -/
def V3.member (f : V3) : List Nat := match f.xw with
  | none => []
  | some x => if x.c % 16 == 15 then [] else [x.c % 16]
/-- R329: the attribute registers that T selects. -/
def V3.attrRegs (f : V3) : Nat := match f.t with
  | 0 => 0
  | 1 => 4
  | 2 => 8
  | _ => 16

/-- Without an extension word every MX field counts as 0. -/
def MF.m (f : MF) : MX := f.mx.getD {}
/-- R201: the registers of the data group that W names. -/
def MF.regs (f : MF) : Nat := if f.w == 1 then 2 else if f.w == 2 then 4 else 1
/-- R201: the data register is aligned to its group. -/
def MF.dataOk (f : MF) : Bool := f.d % f.regs == 0
/-- R42: OFF7 is zero beside an MX word. -/
def MF.offOk (f : MF) : Bool := f.mx.isNone || f.off == 0
/-- The ORDER values that the entry admits, with a scope of R15 and R42's rule on OFF7. -/
def MF.orderIn (f : MF) (p q : Nat) : Bool :=
  (f.m.order == p || f.m.order == q) && decide (f.m.scope ≤ 5) && f.offOk
/-- R201: CACHE = 3 is reserved. -/
def MF.hintOk (f : MF) : Bool := f.m.cache != 3
/-- R41, R201: CACHE and NT are zero. -/
def MF.noHint (f : MF) : Bool := f.m.cache == 0 && !f.m.nt
/-- R227, R231: every MX field except OFF24 is zero. -/
def MF.bare (f : MF) : Bool := f.m.scope == 0 && f.m.order == 0 && f.noHint && f.offOk

/-- R150: MSET's operation and the fields it does not use. -/
def KF.msetOk (f : KF) : Bool :=
  if f.imm == 0 then f.mb == 0 && f.s == 0
  else if f.imm ≤ 4 then f.s == 0
  else if f.imm ≤ 7 then f.ma == 0 && f.mb == 0 && f.s == 0
  else f.imm == 8 && f.ma == 0 && f.mb == 0 && even f.s
/-- R151, R147: MTEST's operation and the fields it does not use. -/
def KF.mtestOk (f : KF) : Bool :=
  f.md < 8 &&
  (if f.imm ≤ 1 then f.mb == 0 && f.s == 0
   else if f.imm ≤ 4 then f.s == 0
   else f.imm == 5 && f.md == 0 && f.mb == 0 && even f.s)

/-- R53: the width in bits of a format code; 0 for a reserved code. -/
def fmtWidth (c : Nat) : Nat := match c with
  | 0x0 => 32 | 0x1 => 16 | 0x2 => 16 | 0x3 => 8 | 0x4 => 8 | 0x5 => 4 | 0x6 => 8 | 0x7 => 8 | 0x8 => 8
  | 0x9 => 16 | 0xA => 16 | 0xB => 32 | 0xC => 32 | _ => 0

/-- Bits [lo + n - 1 : lo] of a number. -/
def bits (w lo n : Nat) : Nat := w / 2 ^ lo % 2 ^ n

/-- R129: the checks on the control word of CVT. -/
def cvtOk (w : Nat) : Bool :=
  let src := bits w 0 4
  let dst := bits w 4 4
  src ≤ 0xC && dst ≤ 0xC && bits w 8 3 != 7
    && (bits w 12 3 + 1) * fmtWidth src ≤ 32 && (bits w 15 3 + 1) * fmtWidth dst ≤ 32 && bits w 19 13 == 0

/-- R44: the format of an assigned opcode. -/
def fmtOf (op : Nat) : Option Fmt := match op with
  | 0x00 => some .v3
  | 0x01 => some .v3
  | 0x02 => some .v3
  | 0x03 => some .v3
  | 0x04 => some .v3
  | 0x05 => some .v3
  | 0x06 => some .v3
  | 0x07 => some .v3
  | 0x08 => some .v3
  | 0x09 => some .v3
  | 0x0A => some .v3
  | 0x0B => some .v3
  | 0x0C => some .v3
  | 0x0D => some .v3
  | 0x0E => some .v3
  | 0x0F => some .v3
  | 0x10 => some .v3
  | 0x11 => some .v3
  | 0x12 => some .v3
  | 0x13 => some .v3
  | 0x14 => some .v3
  | 0x15 => some .v3
  | 0x20 => some .v3
  | 0x21 => some .v3
  | 0x22 => some .v3
  | 0x23 => some .v3
  | 0x24 => some .v3
  | 0x25 => some .v3
  | 0x26 => some .v3
  | 0x27 => some .v3
  | 0x28 => some .v3
  | 0x29 => some .v3
  | 0x2A => some .v3
  | 0x2B => some .v3
  | 0x2C => some .v3
  | 0x2D => some .v3
  | 0x2E => some .v3
  | 0x2F => some .v3
  | 0x30 => some .v3
  | 0x31 => some .v3
  | 0x32 => some .v3
  | 0x33 => some .v3
  | 0x34 => some .v3
  | 0x35 => some .v3
  | 0x36 => some .v3
  | 0x37 => some .v3
  | 0x38 => some .v3
  | 0x39 => some .v3
  | 0x3A => some .v3
  | 0x40 => some .rl
  | 0x41 => some .ri
  | 0x42 => some .rl
  | 0x43 => some .ri
  | 0x44 => some .rl
  | 0x45 => some .v3
  | 0x46 => some .v3
  | 0x47 => some .ri
  | 0x48 => some .ri
  | 0x49 => some .v3
  | 0x4A => some .v3
  | 0x4B => some .v3
  | 0x4C => some .v3
  | 0x50 => some .v3
  | 0x51 => some .v3
  | 0x52 => some .v3
  | 0x53 => some .v3
  | 0x54 => some .v3
  | 0x55 => some .v3
  | 0x56 => some .s
  | 0x57 => some .rl
  | 0x58 => some .s
  | 0x60 => some .m
  | 0x61 => some .m
  | 0x62 => some .m
  | 0x63 => some .m
  | 0x64 => some .m
  | 0x65 => some .m
  | 0x66 => some .m
  | 0x67 => some .m
  | 0x68 => some .m
  | 0x69 => some .m
  | 0x6A => some .m
  | 0x6B => some .m
  | 0x6C => some .m
  | 0x6D => some .m
  | 0x6E => some .v3
  | 0x6F => some .v3
  | 0x70 => some .v3
  | 0x71 => some .m
  | 0x72 => some .m
  | 0x73 => some .m
  | 0x74 => some .m
  | 0x75 => some .m
  | 0x76 => some .s
  | 0x77 => some .m
  | 0x80 => some .am
  | 0x81 => some .am
  | 0x82 => some .am
  | 0x83 => some .am
  | 0x84 => some .am
  | 0x85 => some .am
  | 0x86 => some .am
  | 0x87 => some .am
  | 0x90 => some .b
  | 0x91 => some .v3
  | 0x92 => some .rl
  | 0x93 => some .v3
  | 0x94 => some .v3
  | 0x95 => some .b
  | 0x96 => some .k
  | 0x97 => some .k
  | 0x98 => some .k
  | 0x99 => some .k
  | 0x9A => some .k
  | 0x9B => some .z
  | 0x9C => some .z
  | 0x9D => some .wf
  | 0x9E => some .ri
  | 0x9F => some .z
  | 0xA0 => some .s
  | 0xA1 => some .s
  | 0xA2 => some .s
  | 0xA3 => some .s
  | 0xA4 => some .c
  | 0xA5 => some .v3
  | 0xA6 => some .s
  | 0xA7 => some .s
  | 0xA8 => some .c
  | 0xA9 => some .c
  | 0xAA => some .s
  | 0xAB => some .s
  | 0xAC => some .s
  | 0xAD => some .v3
  | 0xAE => some .v3
  | 0xAF => some .s
  | 0xB0 => some .v3
  | 0xB1 => some .v3
  | 0xB2 => some .v3
  | 0xB3 => some .v3
  | 0xB4 => some .v3
  | 0xB5 => some .v3
  | 0xB6 => some .v3
  | 0xB7 => some .v3
  | 0xC0 => some .v3
  | 0xC1 => some .v3
  | 0xC2 => some .s
  | 0xC3 => some .s
  | 0xD0 => some .v3
  | 0xD1 => some .v3
  | 0xD2 => some .v3
  | 0xD3 => some .v3
  | 0xD4 => some .v3
  | 0xD5 => some .v3
  | 0xE0 => some .s
  | 0xE1 => some .s
  | 0xE2 => some .s
  | 0xE3 => some .s
  | 0xE4 => some .s
  | 0xE5 => some .s
  | 0xF0 => some .z
  | 0xF1 => some .ri
  | 0xF2 => some .s
  | 0xF3 => some .b
  | 0xF4 => some .s
  | _ => none

/-- R34, R44: the class of an assigned opcode. -/
def classOf (op : Nat) : Nat :=
  if op ≤ 0x58 then 0 else if op ≤ 0x87 then 1 else if op ≤ 0xA3 then 2 else if op ≤ 0xAF then 5
  else if op ≤ 0xB7 then 3 else if op ≤ 0xD5 then 4 else 6

/-- R41: the opcodes whose entry requires an extension word (every AM instruction does too). -/
def needsExt (op : Nat) : Bool := op == 0x03 || op == 0x24 || op == 0x46 || op == 0x6D || op == 0xC1

/-- R35, R212: the opcodes that must be the last of their clause (control transfers, full/empty special forms, WAITA). -/
def mustBeLast (op : Nat) : Bool :=
  (0x90 ≤ op && op ≤ 0x95) || op == 0xF0 || (0x64 ≤ op && op ≤ 0x69) || op == 0x70

/-- The opcode and the fields of a SIMT word; none for every other instruction. -/
def Instr.simt? : Instr → Option (Nat × Form)
  | .fadd f => some (0x00, .v3 f)
  | .fsub f => some (0x01, .v3 f)
  | .fmul f => some (0x02, .v3 f)
  | .ffma f => some (0x03, .v3 f)
  | .fmin f => some (0x04, .v3 f)
  | .fmax f => some (0x05, .v3 f)
  | .fminp f => some (0x06, .v3 f)
  | .fmaxp f => some (0x07, .v3 f)
  | .frcp f => some (0x08, .v3 f)
  | .frsq f => some (0x09, .v3 f)
  | .fsqrt f => some (0x0A, .v3 f)
  | .fdiv f => some (0x0B, .v3 f)
  | .fexp2 f => some (0x0C, .v3 f)
  | .flog2 f => some (0x0D, .v3 f)
  | .fsin f => some (0x0E, .v3 f)
  | .fcos f => some (0x0F, .v3 f)
  | .frint f => some (0x10, .v3 f)
  | .ffrac f => some (0x11, .v3 f)
  | .fdot2 f => some (0x12, .v3 f)
  | .fclass f => some (0x13, .v3 f)
  | .fscale f => some (0x14, .v3 f)
  | .fcmp f => some (0x15, .v3 f)
  | .iadd f => some (0x20, .v3 f)
  | .isub f => some (0x21, .v3 f)
  | .imul f => some (0x22, .v3 f)
  | .imulh f => some (0x23, .v3 f)
  | .imad f => some (0x24, .v3 f)
  | .imin f => some (0x25, .v3 f)
  | .imax f => some (0x26, .v3 f)
  | .idiv f => some (0x27, .v3 f)
  | .irem f => some (0x28, .v3 f)
  | .iand f => some (0x29, .v3 f)
  | .ior f => some (0x2A, .v3 f)
  | .ixor f => some (0x2B, .v3 f)
  | .shl f => some (0x2C, .v3 f)
  | .shr f => some (0x2D, .v3 f)
  | .rot f => some (0x2E, .v3 f)
  | .bfe f => some (0x2F, .v3 f)
  | .bfi f => some (0x30, .v3 f)
  | .popc f => some (0x31, .v3 f)
  | .clz f => some (0x32, .v3 f)
  | .brev f => some (0x33, .v3 f)
  | .icmp f => some (0x34, .v3 f)
  | .iadd64 f => some (0x35, .v3 f)
  | .imadw f => some (0x36, .v3 f)
  | .ihash f => some (0x37, .v3 f)
  | .lea f => some (0x38, .v3 f)
  | .sel f => some (0x39, .v3 f)
  | .mov f => some (0x3A, .v3 f)
  | .movi f => some (0x40, .rl f)
  | .iaddi f => some (0x41, .ri f)
  | .logi f => some (0x42, .rl f)
  | .icmpi f => some (0x43, .ri f)
  | .cvt f => some (0x44, .rl f)
  | .pack f => some (0x45, .v3 f)
  | .prmt f => some (0x46, .v3 f)
  | .sreg f => some (0x47, .ri f)
  | .srset f => some (0x48, .ri f)
  | .vxrd f => some (0x49, .v3 f)
  | .vxwr f => some (0x4A, .v3 f)
  | .vmovs f => some (0x4B, .v3 f)
  | .smovv f => some (0x4C, .v3 f)
  | .shfl f => some (0x50, .v3 f)
  | .vote f => some (0x51, .v3 f)
  | .redux f => some (0x52, .v3 f)
  | .scanx f => some (0x53, .v3 f)
  | .matchx f => some (0x54, .v3 f)
  | .elect f => some (0x55, .v3 f)
  | .salu f => some (0x56, .s f)
  | .smovi f => some (0x57, .rl f)
  | .scmp f => some (0x58, .s f)
  | .ld f => some (0x60, .m f)
  | .st f => some (0x61, .m f)
  | .lds f => some (0x62, .m f)
  | .sts f => some (0x63, .m f)
  | .ldw f => some (0x64, .m f)
  | .ldc f => some (0x65, .m f)
  | .stf f => some (0x66, .m f)
  | .ldsw f => some (0x67, .m f)
  | .ldsc f => some (0x68, .m f)
  | .stsf f => some (0x69, .m f)
  | .feset f => some (0x6A, .m f)
  | .feget f => some (0x6B, .m f)
  | .sld f => some (0x6C, .m f)
  | .fence f => some (0x6D, .m f)
  | .bind f => some (0x6E, .v3 f)
  | .unbind f => some (0x6F, .v3 f)
  | .waita f => some (0x70, .v3 f)
  | .cpin f => some (0x71, .m f)
  | .cunpin f => some (0x72, .m f)
  | .cwb f => some (0x73, .m f)
  | .cinv f => some (0x74, .m f)
  | .icinv f => some (0x75, .m f)
  | .fetchbar f => some (0x76, .s f)
  | .pref f => some (0x77, .m f)
  | .atom f => some (0x80, .am f)
  | .atomf f => some (0x81, .am f)
  | .cas f => some (0x82, .am f)
  | .red f => some (0x83, .am f)
  | .redf f => some (0x84, .am f)
  | .vismin f => some (0x85, .am f)
  | .atoms f => some (0x86, .am f)
  | .cass f => some (0x87, .am f)
  | .bra f => some (0x90, .b f)
  | .brx f => some (0x91, .v3 f)
  | .call f => some (0x92, .rl f)
  | .callx f => some (0x93, .v3 f)
  | .ret f => some (0x94, .v3 f)
  | .exit f => some (0x95, .b f)
  | .join f => some (0x96, .k f)
  | .leave f => some (0x97, .k f)
  | .waitm f => some (0x98, .k f)
  | .mset f => some (0x99, .k f)
  | .mtest f => some (0x9A, .k f)
  | .yield => some (0x9B, .z)
  | .nop => some (0x9C, .z)
  | .wait f => some (0x9D, .wf f)
  | .trap f => some (0x9E, .ri f)
  | .bkpt => some (0x9F, .z)
  | .bara f => some (0xA0, .s f)
  | .barw f => some (0xA1, .s f)
  | .bars f => some (0xA2, .s f)
  | .barm f => some (0xA3, .s f)
  | .copy f => some (0xA4, .c f)
  | .cwait f => some (0xA5, .v3 f)
  | .cseal f => some (0xA6, .s f)
  | .cbwait f => some (0xA7, .s f)
  | .layout f => some (0xA8, .c f)
  | .put f => some (0xA9, .c f)
  | .grow f => some (0xAA, .s f)
  | .mfork f => some (0xAB, .s f)
  | .mjoin f => some (0xAC, .s f)
  | .vpush f => some (0xAD, .v3 f)
  | .vpop f => some (0xAE, .v3 f)
  | .vfree f => some (0xAF, .s f)
  | .tex f => some (0xB0, .v3 f)
  | .texl f => some (0xB1, .v3 f)
  | .texg f => some (0xB2, .v3 f)
  | .tld f => some (0xB3, .v3 f)
  | .tquery f => some (0xB4, .v3 f)
  | .hgfetch f => some (0xB5, .v3 f)
  | .hgscat f => some (0xB6, .v3 f)
  | .hgsettle f => some (0xB7, .v3 f)
  | .rast f => some (0xC0, .v3 f)
  | .attr f => some (0xC1, .v3 f)
  | .flip f => some (0xC2, .s f)
  | .triset f => some (0xC3, .s f)
  | .rbox f => some (0xD0, .v3 f)
  | .rtri f => some (0xD1, .v3 f)
  | .rxfm f => some (0xD2, .v3 f)
  | .rstkp f => some (0xD3, .v3 f)
  | .rstko f => some (0xD4, .v3 f)
  | .rtrail f => some (0xD5, .v3 f)
  | .vfork f => some (0xE0, .s f)
  | .vcommit f => some (0xE1, .s f)
  | .vsquash f => some (0xE2, .s f)
  | .vset f => some (0xE3, .s f)
  | .vquery f => some (0xE4, .s f)
  | .vdeadl f => some (0xE5, .s f)
  | .tret => some (0xF0, .z)
  | .sleep f => some (0xF1, .ri f)
  | .pgreq f => some (0xF2, .s f)
  | .rstlbl f => some (0xF3, .b f)
  | .event f => some (0xF4, .s f)
  | _ => none

/-- R44: the instruction of an opcode of format V3. -/
def buildV3 (op : Nat) (f : V3) : Option Instr := match op with
  | 0x00 => some (.fadd f)
  | 0x01 => some (.fsub f)
  | 0x02 => some (.fmul f)
  | 0x03 => some (.ffma f)
  | 0x04 => some (.fmin f)
  | 0x05 => some (.fmax f)
  | 0x06 => some (.fminp f)
  | 0x07 => some (.fmaxp f)
  | 0x08 => some (.frcp f)
  | 0x09 => some (.frsq f)
  | 0x0A => some (.fsqrt f)
  | 0x0B => some (.fdiv f)
  | 0x0C => some (.fexp2 f)
  | 0x0D => some (.flog2 f)
  | 0x0E => some (.fsin f)
  | 0x0F => some (.fcos f)
  | 0x10 => some (.frint f)
  | 0x11 => some (.ffrac f)
  | 0x12 => some (.fdot2 f)
  | 0x13 => some (.fclass f)
  | 0x14 => some (.fscale f)
  | 0x15 => some (.fcmp f)
  | 0x20 => some (.iadd f)
  | 0x21 => some (.isub f)
  | 0x22 => some (.imul f)
  | 0x23 => some (.imulh f)
  | 0x24 => some (.imad f)
  | 0x25 => some (.imin f)
  | 0x26 => some (.imax f)
  | 0x27 => some (.idiv f)
  | 0x28 => some (.irem f)
  | 0x29 => some (.iand f)
  | 0x2A => some (.ior f)
  | 0x2B => some (.ixor f)
  | 0x2C => some (.shl f)
  | 0x2D => some (.shr f)
  | 0x2E => some (.rot f)
  | 0x2F => some (.bfe f)
  | 0x30 => some (.bfi f)
  | 0x31 => some (.popc f)
  | 0x32 => some (.clz f)
  | 0x33 => some (.brev f)
  | 0x34 => some (.icmp f)
  | 0x35 => some (.iadd64 f)
  | 0x36 => some (.imadw f)
  | 0x37 => some (.ihash f)
  | 0x38 => some (.lea f)
  | 0x39 => some (.sel f)
  | 0x3A => some (.mov f)
  | 0x45 => some (.pack f)
  | 0x46 => some (.prmt f)
  | 0x49 => some (.vxrd f)
  | 0x4A => some (.vxwr f)
  | 0x4B => some (.vmovs f)
  | 0x4C => some (.smovv f)
  | 0x50 => some (.shfl f)
  | 0x51 => some (.vote f)
  | 0x52 => some (.redux f)
  | 0x53 => some (.scanx f)
  | 0x54 => some (.matchx f)
  | 0x55 => some (.elect f)
  | 0x6E => some (.bind f)
  | 0x6F => some (.unbind f)
  | 0x70 => some (.waita f)
  | 0x91 => some (.brx f)
  | 0x93 => some (.callx f)
  | 0x94 => some (.ret f)
  | 0xA5 => some (.cwait f)
  | 0xAD => some (.vpush f)
  | 0xAE => some (.vpop f)
  | 0xB0 => some (.tex f)
  | 0xB1 => some (.texl f)
  | 0xB2 => some (.texg f)
  | 0xB3 => some (.tld f)
  | 0xB4 => some (.tquery f)
  | 0xB5 => some (.hgfetch f)
  | 0xB6 => some (.hgscat f)
  | 0xB7 => some (.hgsettle f)
  | 0xC0 => some (.rast f)
  | 0xC1 => some (.attr f)
  | 0xD0 => some (.rbox f)
  | 0xD1 => some (.rtri f)
  | 0xD2 => some (.rxfm f)
  | 0xD3 => some (.rstkp f)
  | 0xD4 => some (.rstko f)
  | 0xD5 => some (.rtrail f)
  | _ => none

/-- R44: the instruction of an opcode of format RI. -/
def buildRi (op : Nat) (f : RI) : Option Instr := match op with
  | 0x41 => some (.iaddi f)
  | 0x43 => some (.icmpi f)
  | 0x47 => some (.sreg f)
  | 0x48 => some (.srset f)
  | 0x9E => some (.trap f)
  | 0xF1 => some (.sleep f)
  | _ => none

/-- R44: the instruction of an opcode of format RL. -/
def buildRl (op : Nat) (f : RL) : Option Instr := match op with
  | 0x40 => some (.movi f)
  | 0x42 => some (.logi f)
  | 0x44 => some (.cvt f)
  | 0x57 => some (.smovi f)
  | 0x92 => some (.call f)
  | _ => none

/-- R44: the instruction of an opcode of format M. -/
def buildM (op : Nat) (f : MF) : Option Instr := match op with
  | 0x60 => some (.ld f)
  | 0x61 => some (.st f)
  | 0x62 => some (.lds f)
  | 0x63 => some (.sts f)
  | 0x64 => some (.ldw f)
  | 0x65 => some (.ldc f)
  | 0x66 => some (.stf f)
  | 0x67 => some (.ldsw f)
  | 0x68 => some (.ldsc f)
  | 0x69 => some (.stsf f)
  | 0x6A => some (.feset f)
  | 0x6B => some (.feget f)
  | 0x6C => some (.sld f)
  | 0x6D => some (.fence f)
  | 0x71 => some (.cpin f)
  | 0x72 => some (.cunpin f)
  | 0x73 => some (.cwb f)
  | 0x74 => some (.cinv f)
  | 0x75 => some (.icinv f)
  | 0x77 => some (.pref f)
  | _ => none

/-- R44: the instruction of an opcode of format AM. -/
def buildAm (op : Nat) (f : AM) : Option Instr := match op with
  | 0x80 => some (.atom f)
  | 0x81 => some (.atomf f)
  | 0x82 => some (.cas f)
  | 0x83 => some (.red f)
  | 0x84 => some (.redf f)
  | 0x85 => some (.vismin f)
  | 0x86 => some (.atoms f)
  | 0x87 => some (.cass f)
  | _ => none

/-- R44: the instruction of an opcode of format B. -/
def buildB (op : Nat) (f : BF) : Option Instr := match op with
  | 0x90 => some (.bra f)
  | 0x95 => some (.exit f)
  | 0xF3 => some (.rstlbl f)
  | _ => none

/-- R44: the instruction of an opcode of format S. -/
def buildS (op : Nat) (f : SF) : Option Instr := match op with
  | 0x56 => some (.salu f)
  | 0x58 => some (.scmp f)
  | 0x76 => some (.fetchbar f)
  | 0xA0 => some (.bara f)
  | 0xA1 => some (.barw f)
  | 0xA2 => some (.bars f)
  | 0xA3 => some (.barm f)
  | 0xA6 => some (.cseal f)
  | 0xA7 => some (.cbwait f)
  | 0xAA => some (.grow f)
  | 0xAB => some (.mfork f)
  | 0xAC => some (.mjoin f)
  | 0xAF => some (.vfree f)
  | 0xC2 => some (.flip f)
  | 0xC3 => some (.triset f)
  | 0xE0 => some (.vfork f)
  | 0xE1 => some (.vcommit f)
  | 0xE2 => some (.vsquash f)
  | 0xE3 => some (.vset f)
  | 0xE4 => some (.vquery f)
  | 0xE5 => some (.vdeadl f)
  | 0xF2 => some (.pgreq f)
  | 0xF4 => some (.event f)
  | _ => none

/-- R44: the instruction of an opcode of format K. -/
def buildK (op : Nat) (f : KF) : Option Instr := match op with
  | 0x96 => some (.join f)
  | 0x97 => some (.leave f)
  | 0x98 => some (.waitm f)
  | 0x99 => some (.mset f)
  | 0x9A => some (.mtest f)
  | _ => none

/-- R44: the instruction of an opcode of format C. -/
def buildC (op : Nat) (f : CF) : Option Instr := match op with
  | 0xA4 => some (.copy f)
  | 0xA8 => some (.layout f)
  | 0xA9 => some (.put f)
  | _ => none

/-- R44: the instruction of an opcode of format WF. -/
def buildWf (op : Nat) (f : WF) : Option Instr := match op with
  | 0x9D => some (.wait f)
  | _ => none

/-- R44: the instruction of an opcode of format Z. -/
def buildZ (op : Nat) : Option Instr := match op with
  | 0x9B => some .yield
  | 0x9C => some .nop
  | 0x9F => some .bkpt
  | 0xF0 => some .tret
  | _ => none

/-- The instruction that an opcode and its fields name. -/
def build (op : Nat) : Form → Option Instr
  | .v3 f => buildV3 op f | .ri f => buildRi op f | .rl f => buildRl op f | .m f => buildM op f
  | .am f => buildAm op f | .b f => buildB op f | .s f => buildS op f | .k f => buildK op f
  | .c f => buildC op f | .wf f => buildWf op f | .z => buildZ op

/-- Order 3 of R45, the part that the word alone decides: every field holds a value that the entry admits. DESIGN CHOICE
(log entry 66): MATCH does not use AS (R135), although its entry writes A and not vA (R139). -/
def Instr.fieldsOk : Instr → Bool
  | .fadd f => f.t ≤ 2 && f.x.fits (.fp2 5 true)
  | .fsub f => f.t ≤ 2 && f.x.fits (.fp2 5 true)
  | .fmul f => f.t ≤ 2 && f.x.fits (.fp2 5 true)
  | .ffma f => f.t ≤ 2 && f.x.fits { Allow.fp2 5 true with negc := true, c := true }
  | .fmin f => f.t ≤ 2 && f.x.fits (.fp2 0 false)
  | .fmax f => f.t ≤ 2 && f.x.fits (.fp2 0 false)
  | .fminp f => f.t ≤ 2 && f.x.fits (.fp2 0 false)
  | .fmaxp f => f.t ≤ 2 && f.x.fits (.fp2 0 false)
  | .frcp f => f.t ≤ 2 && f.b == 0 && f.x.fits (.fp1 5 true)
  | .frsq f => f.t ≤ 2 && f.b == 0 && f.x.fits (.fp1 5 true)
  | .fsqrt f => f.t ≤ 2 && f.b == 0 && f.x.fits (.fp1 5 true)
  | .fdiv f => f.t ≤ 2 && f.x.fits (.fp2 5 true)
  | .fexp2 f => f.t ≤ 2 && f.b == 0 && f.x.fits (.fp1 1 true)
  | .flog2 f => f.t ≤ 2 && f.b == 0 && f.x.fits (.fp1 1 true)
  | .fsin f => f.t ≤ 2 && f.b == 0 && f.x.fits (.fp1 1 true)
  | .fcos f => f.t ≤ 2 && f.b == 0 && f.x.fits (.fp1 1 true)
  | .frint f => f.t ≤ 2 && f.b == 0 && f.x.fits (.fp1 5 false)
  | .ffrac f => f.t ≤ 2 && f.b == 0 && f.x.fits (.fp1 5 false)
  | .fdot2 f => 1 ≤ f.t && f.t ≤ 2 && f.x.fits { Allow.fp2 5 true with negc := true }
  | .fclass f => f.t ≤ 2 && f.b == 0 && f.x.fits (.fp1 0 false)
  | .fscale f => f.t ≤ 2 && f.x.fits { Allow.fp1 5 true with bs := true }
  | .fcmp f => f.t ≤ 2 && f.x.fits (.fp2 0 false)
  | .iadd f => f.t ≤ 1 && f.x.fits (.int2 true)
  | .isub f => f.t ≤ 1 && f.x.fits (.int2 true)
  | .imul f => f.t ≤ 1 && f.x.fits (.int2 true)
  | .imulh f => f.t ≤ 1 && f.x.fits (.int2 false)
  | .imad f => f.t ≤ 1 && f.x.fits { Allow.int2 true with c := true }
  | .imin f => f.t ≤ 1 && f.x.fits (.int2 false)
  | .imax f => f.t ≤ 1 && f.x.fits (.int2 false)
  | .idiv f => f.t ≤ 1 && f.x.fits (.int2 true)
  | .irem f => f.t ≤ 1 && f.x.fits (.int2 true)
  | .iand f => f.t ≤ 1 && f.x.fits (.int2 false)
  | .ior f => f.t ≤ 1 && f.x.fits (.int2 false)
  | .ixor f => f.t ≤ 1 && f.x.fits (.int2 false)
  | .shl f => f.t ≤ 0 && f.x.fits (.int2 false)
  | .shr f => f.t ≤ 1 && f.x.fits (.int2 false)
  | .rot f => f.t ≤ 1 && f.x.fits (.int2 false)
  | .bfe f => f.t ≤ 1 && f.x.fits (.int2 false)
  | .bfi f => f.t ≤ 0 && f.x.fits (.int2 false)
  | .popc f => f.t == 0 && f.b == 0 && f.x.fits { as := true }
  | .clz f => f.t == 0 && f.b == 0 && f.x.fits { as := true }
  | .brev f => f.t == 0 && f.b == 0 && f.x.fits { as := true }
  | .icmp f => f.t ≤ 1 && f.d / 8 ≤ 13 && (f.t == 0 || (even f.a && even f.b)) && f.x.fits (.int2 false)
  | .iadd64 f => f.t ≤ 1 && even f.d && even f.a && even f.b && f.x.fits (.int2 false)
  | .imadw f => f.t ≤ 1 && even f.d && f.x.fits (.int2 false)
  | .ihash f => f.t ≤ 0 && f.x.fits (.int2 false)
  | .lea f => even f.d && even f.a && f.x.fits (.int2 false)
  | .sel f => f.t == 0 && f.x.c < 16 && f.x.fits { Allow.int2 false with c := true }
  | .mov f => f.t ≤ 1 && f.b == 0 && (f.t == 0 || (even f.d && even f.a)) && f.x.fits { as := true }
  | .movi f => f.a == 0 && f.mod ≤ 1 && (f.mod == 0 || even f.d)
  | .iaddi _ => true
  | .logi f => f.mod ≤ 3
  | .icmpi f => f.d / 8 ≤ 13
  | .cvt f => f.mod == 0 && cvtOk f.imm
  | .pack f => f.x.fits (.int2 false)
  | .prmt f => f.t == 0 && f.x.fits { Allow.int2 false with c := true }
  | .sreg f => f.a == 0 && f.imm ≤ 0x1C
  | .srset f => f.d == 0 && f.imm ≤ 0x1C
  | .vxrd f => f.t ≤ 1 && (f.t == 0 || even f.d) && f.x.fits { bs := true }
  | .vxwr f => f.t ≤ 1 && (f.t == 0 || even f.a) && f.x.fits { bs := true, as := true }
  | .vmovs f => f.t ≤ 1 && (f.t == 0 || f.b == 0) && f.x.fits {}
  | .smovv f => f.t ≤ 1 && (f.t == 0 || f.b == 0) && f.x.fits {}
  | .shfl f => f.x.fits { c := true, bs := true }
  | .vote f => f.a < 8 && f.b == 0 && (if f.t == 2 then even f.d else f.d < 8) && f.x.c < 16 && f.x.fits { c := true, nega := true }
  | .redux f => f.t ≤ 1 && f.b ≤ 10 && f.x.c < 16 && f.x.fits { c := true, rnd := if f.b == 8 then 5 else 0 }
  | .scanx f => f.t ≤ 1 && f.b ≤ 10 && f.x.c < 16 && f.x.fits { c := true, rnd := if f.b == 8 then 5 else 0 }
  | .matchx f => f.t ≤ 1 && f.b == 0 && even f.d && (f.t == 0 || even f.a) && f.x.c < 16 && f.x.fits { c := true }
  | .elect f => f.t == 0 && f.a == 0 && f.b == 0 && f.d < 8 && f.x.c < 16 && f.x.fits { c := true }
  | .salu f => f.imm ≤ 12
  | .smovi f => f.a == 0 && f.mod ≤ 1 && (f.mod == 0 || even f.d)
  | .scmp f => f.sd < 8 && f.imm ≤ 13
  | .ld f => even f.a && f.dataOk && f.orderIn 0 1 && f.hintOk
  | .st f => even f.a && f.dataOk && f.orderIn 0 2 && f.hintOk
  | .lds f => f.dataOk && f.orderIn 0 1 && f.noHint
  | .sts f => f.dataOk && f.orderIn 0 2 && f.noHint
  | .ldw f => even f.a && f.w == 0 && f.orderIn 0 0 && f.noHint
  | .ldc f => even f.a && f.w == 0 && f.orderIn 0 0 && f.noHint
  | .stf f => even f.a && f.w == 0 && f.orderIn 0 0 && f.noHint
  | .ldsw f => f.w == 0 && f.orderIn 0 0 && f.noHint
  | .ldsc f => f.w == 0 && f.orderIn 0 0 && f.noHint
  | .stsf f => f.w == 0 && f.orderIn 0 0 && f.noHint
  | .feset f => f.w ≤ 1 && (f.w == 1 || even f.a) && f.orderIn 0 2 && f.noHint
  | .feget f => f.w ≤ 1 && (f.w == 1 || even f.a) && f.orderIn 0 1 && f.noHint
  | .sld f => f.w ≤ 2 && even f.a && f.dataOk && f.orderIn 0 1 && f.hintOk
  | .fence f => f.d == 0 && f.a == 0 && f.off == 0 && f.w == 0 && f.noHint && f.m.off24 == 0 && 1 ≤ f.m.order && f.m.scope ≤ 5
  | .bind f => f.t == 0 && even f.a && even f.b && f.x.fits {}
  | .unbind f => f.t == 0 && f.b == 0 && even f.a && f.x.fits {}
  | .waita f => f.t ≤ 1 && even f.a && f.x.fits { bs := true }
  | .cpin f => f.d < 8 && f.w == 0 && even f.a && f.bare
  | .cunpin f => f.d == 0 && f.w == 0 && even f.a && f.bare
  | .cwb f => f.d == 0 && f.w == 0 && even f.a && f.bare
  | .cinv f => f.d == 0 && f.w == 0 && even f.a && f.bare
  | .icinv f => f.d == 0 && f.w == 0 && even f.a && f.bare
  | .fetchbar f => f.sd == 0 && f.sa == 0 && f.sb == 0 && f.imm == 0
  | .pref f => f.d == 0 && f.w ≤ 1 && even f.a && f.bare
  | .atom f => f.ax.scope ≤ 5 && f.t ≤ 1 && f.ax.aop ≤ 11 && even f.a && (f.t == 0 || (even f.d && even f.b))
  | .atomf f => f.ax.scope ≤ 5 && f.t ≤ 2 && f.ax.aop ≤ 2 && even f.a
  | .cas f => f.ax.scope ≤ 5 && f.t ≤ 1 && f.ax.aop < 8 && (if f.t == 0 then even f.b else (even f.d && f.b % 4 == 0)) && even f.a
  | .red f => f.ax.scope ≤ 5 && f.t ≤ 1 && f.ax.aop ≤ 11 && f.ax.aop != 9 && f.ax.order == 0 && f.d == 0 && even f.a && (f.t == 0 || even f.b)
  | .redf f => f.ax.scope ≤ 5 && f.t ≤ 2 && f.ax.aop ≤ 2 && f.ax.order == 0 && f.d == 0 && even f.a
  | .vismin f => f.ax.scope ≤ 5 && f.t == 1 && f.ax.aop ≤ 1 && f.ax.order == 0 && f.d == 0 && even f.b && (f.ax.aop == 1 || even f.a)
  | .atoms f => f.ax.scope ≤ 5 && f.t ≤ 1 && f.ax.aop ≤ 14 && (f.ax.aop ≤ 11 || f.t == 0) && (f.t == 0 || (even f.d && even f.b))
  | .cass f => f.ax.scope ≤ 5 && f.t ≤ 1 && f.ax.aop < 8 && (if f.t == 0 then even f.b else (even f.d && f.b % 4 == 0))
  | .bra _ => true
  | .brx f => f.d == 0 && f.b == 0 && f.t == 0 && even f.a && f.x.fits { as := true }
  | .call f => f.a == 0 && f.mod == 0 && f.imm % 4 == 0 && even f.d
  | .callx f => f.b == 0 && f.t == 0 && even f.d && even f.a && f.x.fits { as := true }
  | .ret f => f.d == 0 && f.b == 0 && f.t == 0 && even f.a && f.x.fits { as := true }
  | .exit f => f.off == 0
  | .join f => f.ma == 0 && f.mb == 0 && f.s == 0 && f.imm == 0
  | .leave f => f.ma == 0 && f.mb == 0 && f.s == 0 && f.imm == 0
  | .waitm f => f.ma == 0 && f.mb == 0 && f.s == 0 && f.imm == 0
  | .mset f => f.msetOk
  | .mtest f => f.mtestOk
  | .yield  => true
  | .nop  => true
  | .wait _ => true
  | .trap f => f.d == 0 && f.a == 0
  | .bkpt  => true
  | .bara f => f.sa == 0 && f.sb == 0 && f.imm < 8
  | .barw f => f.sd == 0 && f.sb == 0 && f.imm < 8
  | .bars f => f.sd == 0 && f.sa == 0 && f.sb == 0 && f.imm < 8
  | .barm f => f.sd == 0 && f.sb == 0 && f.imm < 8
  | .copy f => even f.sa && even f.vb
  | .cwait f => even f.b && f.x.fits {}
  | .cseal f => f.sd == 0 && f.sa == 0 && f.sb == 0 && f.imm < 16
  | .cbwait f => f.sa == 0 && f.sb == 0 && f.imm < 16
  | .layout f => even f.sa
  | .put f => even f.sa
  | .grow f => f.sd < 8 && f.imm ≤ 1 && (f.imm == 1 || f.sb == 0)
  | .mfork f => f.sd < 8 && even f.sb && f.imm == 0
  | .mjoin f => f.sa == 0 && f.sb == 0 && f.imm == 0
  | .vpush f => f.d == 0 && f.b == 0 && f.t == 0 && f.x.c < 8 && f.x.fits { c := true }
  | .vpop f => f.a == 0 && f.b == 0 && f.t == 0 && f.x.c < 8 && f.x.fits { c := true }
  | .vfree f => f.sa == 0 && f.sb == 0 && f.imm ≤ 1
  | .tex f => f.t ≤ 2 && f.b % 8 == 0 && f.x.fits {}
  | .texl f => f.t ≤ 2 && f.b % 8 == 0 && f.x.fits {}
  | .texg f => f.t ≤ 2 && f.b % 8 == 0 && f.x.fits {}
  | .tld f => f.t ≤ 2 && f.b % 8 == 0 && f.x.fits {}
  | .tquery f => f.t ≤ 2 && f.b % 8 == 0 && f.x.fits {}
  | .hgfetch f => f.t == 0 && f.b % 16 == 0 && f.x.fits {}
  | .hgscat f => f.t == 0 && f.b % 16 == 0 && f.x.fits {}
  | .hgsettle f => f.d == 0 && f.t ≤ 1 && even f.a && f.b % 16 == 0 && f.x.fits {}
  | .rast f => f.t == 0 && f.b < 8 && f.x.fits {}
  | .attr f => even f.a && even f.x.c && f.x.fits { c := true }
  | .flip f => even f.sa && f.sa ≤ 58 && f.sb == 0 && f.imm == 0
  | .triset f => f.sa % 4 == 0 && f.sa ≤ 52 && f.imm % 4 != 3 && f.imm < 16
  | .rbox f => f.t == 0 && even f.d && even f.b && f.x.fits { c := true }
  | .rtri f => f.t ≤ 1 && even f.b && f.x.c < 8 && !(f.d ≤ f.a + 7 && f.a + 7 ≤ f.d + 3) && f.x.fits { c := true }
  | .rxfm f => f.t == 0 && even f.d && even f.b && (f.d + 10 < f.a || f.a + 7 < f.d) && f.x.fits { c := true }
  | .rstkp f => f.t ≤ 1 && even f.d && f.b == 0 && (f.t == 1 || even f.a) && f.x.fits {}
  | .rstko f => f.t ≤ 1 && even f.d && even f.a && (if f.t == 0 then f.b == 0 else even f.b) && (f.d + 1 < f.a || f.a + 19 < f.d) && f.x.fits {}
  | .rtrail f => f.t == 0 && even f.d && even f.a && even f.b && (f.d + 1 < f.a || f.a + 19 < f.d) && f.x.fits {}
  | .vfork f => f.sb == 0 && f.imm < 8
  | .vcommit f => f.sb == 0 && f.imm == 0
  | .vsquash f => f.sb == 0 && f.imm == 0
  | .vset f => f.sd == 0 && f.sb == 0 && f.imm == 0
  | .vquery f => f.sb == 0 && f.imm == 0
  | .vdeadl f => f.imm == 0 && even f.sb
  | .tret  => true
  | .sleep f => f.d == 0 && f.a == 0
  | .pgreq f => f.imm == 0
  | .rstlbl f => f.p == 0 && f.pn == 0
  | .event f => f.sd == 0 && f.imm == 0
  | .mnop _ => true
  | .mclaim _ kind mask => mask != 0 && (kind == 0 || mask < 256)
  | .mrel _ kind mask => mask != 0 && (kind == 0 || mask < 256)
  | .mload _ _ _ _ fmt _ => fmt ≤ 8
  | .mzero _ mask => mask != 0
  | .mma _ _ _ _ => true
  | .mmas _ _ _ _ _ => true
  | .mstore _ _ xa xs fmt sp sat toq q => if toq == 1 then (fmt == 1 || fmt == 2) && xa == 0 && xs == 0 && sp == 0 && sat == 0 else (fmt ≤ 4 || fmt == 0xB) && q == 0 && (fmt != 0xB || sat == 0)
  | .mbara _ _ => true
  | .mbarw _ _ => true
  | .mloop reg xc cnt => if reg == 0 then xc == 0 else cnt == 0
  | .mend  => true
  | .msetStream _ _ _ _ => true
  | .maddImm _ _ _ => true
  | .maddReg _ _ _ => true
  | .mact _ _ fn sh => fn ≤ 5 && (fn == 1 || fn == 2 || sh == 0)
  | .mscale _ _ _ => true
  | .mhalt  => true
  | .qpld _ off w => off % (4 + 4 * w) == 0 && off ≤ 64 - (4 + 4 * w)
  | .qpst _ off w => off % (4 + 4 * w) == 0 && off ≤ 64 - (4 + 4 * w)
  | .qwld _ _ _ _ _ => true
  | .qwst _ _ _ _ _ => true
  | .qwadd _ _ _ _ _ => true
  | .qadd _ _ _ => true
  | .qsub _ _ _ => true
  | .qand _ _ _ => true
  | .qor _ _ _ => true
  | .qxor _ _ _ => true
  | .qshl _ _ _ => true
  | .qshr _ _ _ => true
  | .qaddi _ _ _ => true
  | .qli _ _ => true
  | .qlih _ _ => true
  | .qcmp _ _ _ c => c ≤ 5
  | .qbz _ imm => 1 ≤ imm && imm ≤ 2047
  | .qbnz _ imm => 1 ≤ imm && imm ≤ 2047
  | .qjmp imm => 1 ≤ imm && imm ≤ 2047
  | .qloop _ imm => 1 ≤ imm && imm ≤ 64
  | .qendl  => true
  | .qlaunch  => true
  | .qdepset _ _ _ _ => true
  | .qdepdec _ _ _ => true
  | .qsignal _ => true
  | .qdone  => true
  | .qretry  => true
  | .qfault _ => true
  | _ => true

/-- Order 5 of R45: for each vector operand of the word, its highest register. Groups whose length a descriptor gives are in `Machine/Texture.lean` and `Machine/Grid.lean`. -/
def Instr.vregs : Instr → List Nat
  | .fadd f => [f.d] ++ f.vA 0 ++ f.vB 0
  | .fsub f => [f.d] ++ f.vA 0 ++ f.vB 0
  | .fmul f => [f.d] ++ f.vA 0 ++ f.vB 0
  | .ffma f => [f.d, f.x.c] ++ f.vA 0 ++ f.vB 0
  | .fmin f => [f.d] ++ f.vA 0 ++ f.vB 0
  | .fmax f => [f.d] ++ f.vA 0 ++ f.vB 0
  | .fminp f => [f.d] ++ f.vA 0 ++ f.vB 0
  | .fmaxp f => [f.d] ++ f.vA 0 ++ f.vB 0
  | .frcp f => [f.d] ++ f.vA 0
  | .frsq f => [f.d] ++ f.vA 0
  | .fsqrt f => [f.d] ++ f.vA 0
  | .fdiv f => [f.d] ++ f.vA 0 ++ f.vB 0
  | .fexp2 f => [f.d] ++ f.vA 0
  | .flog2 f => [f.d] ++ f.vA 0
  | .fsin f => [f.d] ++ f.vA 0
  | .fcos f => [f.d] ++ f.vA 0
  | .frint f => [f.d] ++ f.vA 0
  | .ffrac f => [f.d] ++ f.vA 0
  | .fdot2 f => [f.d] ++ f.vA 0 ++ f.vB 0
  | .fclass f => [f.d] ++ f.vA 0
  | .fscale f => [f.d] ++ f.vA 0 ++ f.vB 0
  | .fcmp f => f.vA 0 ++ f.vB 0
  | .iadd f => [f.d] ++ f.vA 0 ++ f.vB 0
  | .isub f => [f.d] ++ f.vA 0 ++ f.vB 0
  | .imul f => [f.d] ++ f.vA 0 ++ f.vB 0
  | .imulh f => [f.d] ++ f.vA 0 ++ f.vB 0
  | .imad f => [f.d, f.x.c] ++ f.vA 0 ++ f.vB 0
  | .imin f => [f.d] ++ f.vA 0 ++ f.vB 0
  | .imax f => [f.d] ++ f.vA 0 ++ f.vB 0
  | .idiv f => [f.d] ++ f.vA 0 ++ f.vB 0
  | .irem f => [f.d] ++ f.vA 0 ++ f.vB 0
  | .iand f => [f.d] ++ f.vA 0 ++ f.vB 0
  | .ior f => [f.d] ++ f.vA 0 ++ f.vB 0
  | .ixor f => [f.d] ++ f.vA 0 ++ f.vB 0
  | .shl f => [f.d] ++ f.vA 0 ++ f.vB 0
  | .shr f => [f.d] ++ f.vA 0 ++ f.vB 0
  | .rot f => [f.d] ++ f.vA 0 ++ f.vB 0
  | .bfe f => [f.d] ++ f.vA 0 ++ f.vB 0
  | .bfi f => [f.d] ++ f.vA 0 ++ f.vB 0
  | .popc f => [f.d] ++ f.vA 0
  | .clz f => [f.d] ++ f.vA 0
  | .brev f => [f.d] ++ f.vA 0
  | .icmp f => f.vA f.t ++ f.vB f.t
  | .iadd64 f => [f.d + 1] ++ f.vA 1 ++ f.vB 1
  | .imadw f => [f.d + 1] ++ f.vA 0 ++ f.vB 0
  | .ihash f => [f.d] ++ f.vA 0 ++ f.vB 0
  | .lea f => [f.d + 1] ++ f.vA 1 ++ f.vB 0
  | .sel f => [f.d] ++ f.vA 0 ++ f.vB 0
  | .mov f => [f.d + f.t] ++ f.vA f.t
  | .movi f => [f.d + f.mod]
  | .iaddi f => [f.d, f.a]
  | .logi f => [f.d, f.a]
  | .icmpi f => [f.a]
  | .cvt f => [f.d, f.a]
  | .pack f => [f.d] ++ f.vA 0 ++ f.vB 0
  | .prmt f => [f.d, f.x.c] ++ f.vA 0 ++ f.vB 0
  | .sreg f => [f.d]
  | .vxrd f => [f.d + f.t, f.a] ++ f.vB 0
  | .vxwr f => [f.d] ++ f.vA f.t ++ f.vB 0
  | .vmovs f => [f.a]
  | .smovv f => [f.d]
  | .shfl f => [f.d, f.a] ++ f.vB 0
  | .vote f => if f.t == 2 then [f.d + 1] else []
  | .redux f => [f.a] ++ (if f.t == 0 then [f.d] else [])
  | .scanx f => [f.a, f.d]
  | .matchx f => [f.d + 1, f.a + f.t]
  | .ld f => [f.d + f.regs - 1, f.a + 1]
  | .st f => [f.d + f.regs - 1, f.a + 1]
  | .lds f => [f.d + f.regs - 1, f.a]
  | .sts f => [f.d + f.regs - 1, f.a]
  | .ldw f => [f.d, f.a + 1]
  | .ldc f => [f.d, f.a + 1]
  | .stf f => [f.d, f.a + 1]
  | .ldsw f => [f.d, f.a]
  | .ldsc f => [f.d, f.a]
  | .stsf f => [f.d, f.a]
  | .feset f => [f.d, f.a + 1 - f.w]
  | .feget f => [f.d, f.a + 1 - f.w]
  | .waita f => [f.d, f.a + 1] ++ f.vB 0
  | .pref f => [f.a + 1]
  | .atom f => [f.d + f.t, f.a + 1, f.b + f.t]
  | .atomf f => [f.d, f.a + 1, f.b]
  | .cas f => [f.d + f.t, f.a + 1, f.b + 1 + 2 * f.t]
  | .red f => [f.a + 1, f.b + f.t]
  | .redf f => [f.a + 1, f.b]
  | .vismin f => [f.b + 1, f.a + 1 - f.ax.aop]
  | .atoms f => [f.d + f.t, f.a, f.b + f.t]
  | .cass f => [f.d + f.t, f.a, f.b + 1 + 2 * f.t]
  | .brx f => f.vA 1
  | .call f => [f.d + 1]
  | .callx f => [f.d + 1] ++ f.vA 1
  | .ret f => f.vA 1
  | .copy f => [f.va + 4, f.vb + 1]
  | .layout f => [f.va + 4, f.vb + 4]
  | .put f => [f.va, f.vb]
  | .vpush f => [f.a]
  | .vpop f => [f.d]
  | .tex f => [f.d + 2 ^ f.t - 1, f.a]
  | .texl f => [f.d + 2 ^ f.t - 1, f.a]
  | .texg f => [f.d + 2 ^ f.t - 1, f.a]
  | .tld f => [f.d + 2 ^ f.t - 1, f.a]
  | .tquery f => [f.d + 2 ^ f.t - 1, f.a]
  | .hgfetch f => [f.d, f.a]
  | .hgscat f => [f.d, f.a]
  | .rast f => [f.d + 2]
  | .attr f => [f.d + 2 + f.attrRegs, f.a + 1, f.b]
  | .rbox f => [f.a + 7, f.d + 7, f.b + 1] ++ f.optC 19
  | .rtri f => [f.a + 7, f.d + 3, f.b + 1]
  | .rxfm f => [f.a + 7, f.d + 10, f.b + 1] ++ f.optC 0
  | .rstkp f => [f.d + 19, if f.t == 0 then f.a + 1 else f.a + 7]
  | .rstko f => [f.d + 1, f.a + 19] ++ (if f.t == 1 then [f.b + 1] else [])
  | .rtrail f => [f.d + 1, f.a + 19, f.b + 1]
  | _ => []

/-- Order 5 of R45: for each scalar operand that a 7-bit field, or a group above a 6-bit field, may place beyond s63,
its highest register. The pair of HGSETTLE is checked after its descriptor, when it executes (R295). -/
def Instr.sregs : Instr → List Nat
  | .fadd f => f.sA 0 ++ f.sB 0
  | .fsub f => f.sA 0 ++ f.sB 0
  | .fmul f => f.sA 0 ++ f.sB 0
  | .ffma f => f.sA 0 ++ f.sB 0
  | .fmin f => f.sA 0 ++ f.sB 0
  | .fmax f => f.sA 0 ++ f.sB 0
  | .fminp f => f.sA 0 ++ f.sB 0
  | .fmaxp f => f.sA 0 ++ f.sB 0
  | .frcp f => f.sA 0
  | .frsq f => f.sA 0
  | .fsqrt f => f.sA 0
  | .fdiv f => f.sA 0 ++ f.sB 0
  | .fexp2 f => f.sA 0
  | .flog2 f => f.sA 0
  | .fsin f => f.sA 0
  | .fcos f => f.sA 0
  | .frint f => f.sA 0
  | .ffrac f => f.sA 0
  | .fdot2 f => f.sA 0 ++ f.sB 0
  | .fclass f => f.sA 0
  | .fscale f => f.sA 0 ++ f.sB 0
  | .fcmp f => f.sA 0 ++ f.sB 0
  | .iadd f => f.sA 0 ++ f.sB 0
  | .isub f => f.sA 0 ++ f.sB 0
  | .imul f => f.sA 0 ++ f.sB 0
  | .imulh f => f.sA 0 ++ f.sB 0
  | .imad f => f.sA 0 ++ f.sB 0
  | .imin f => f.sA 0 ++ f.sB 0
  | .imax f => f.sA 0 ++ f.sB 0
  | .idiv f => f.sA 0 ++ f.sB 0
  | .irem f => f.sA 0 ++ f.sB 0
  | .iand f => f.sA 0 ++ f.sB 0
  | .ior f => f.sA 0 ++ f.sB 0
  | .ixor f => f.sA 0 ++ f.sB 0
  | .shl f => f.sA 0 ++ f.sB 0
  | .shr f => f.sA 0 ++ f.sB 0
  | .rot f => f.sA 0 ++ f.sB 0
  | .bfe f => f.sA 0 ++ f.sB 0
  | .bfi f => f.sA 0 ++ f.sB 0
  | .popc f => f.sA 0
  | .clz f => f.sA 0
  | .brev f => f.sA 0
  | .icmp f => f.sA f.t ++ f.sB f.t
  | .iadd64 f => f.sA 1 ++ f.sB 1
  | .imadw f => f.sA 0 ++ f.sB 0
  | .ihash f => f.sA 0 ++ f.sB 0
  | .lea f => f.sA 1 ++ f.sB 0
  | .sel f => f.sA 0 ++ f.sB 0
  | .mov f => f.sA f.t
  | .pack f => f.sA 0 ++ f.sB 0
  | .prmt f => f.sA 0 ++ f.sB 0
  | .srset f => [f.a]
  | .vxrd f => f.sB 0
  | .vxwr f => f.sA f.t ++ f.sB 0
  | .vmovs f => [f.d] ++ (if f.t == 0 then [f.b] else [])
  | .smovv f => [f.a] ++ (if f.t == 0 then [f.b] else [])
  | .shfl f => f.sB 0
  | .redux f => if f.t == 1 then [f.d] else []
  | .smovi f => [f.d + f.mod]
  | .sld f => [f.d + f.regs - 1, f.a + 1]
  | .bind f => [f.d, f.a + 1, f.b + 1]
  | .unbind f => [f.d, f.a + 1]
  | .waita f => f.sB 0
  | .cpin f => [f.a + 1]
  | .cunpin f => [f.a + 1]
  | .cwb f => [f.a + 1]
  | .cinv f => [f.a + 1]
  | .icinv f => [f.a + 1]
  | .brx f => f.sA 1
  | .callx f => f.sA 1
  | .ret f => f.sA 1
  | .cwait f => [f.d, f.a, f.b + 1]
  | .layout f => [f.sa + 5]
  | .put f => [f.sa + 5]
  | .tex f => [f.b]
  | .texl f => [f.b]
  | .texg f => [f.b]
  | .tld f => [f.b]
  | .tquery f => [f.b]
  | .hgfetch f => [f.b]
  | .hgscat f => [f.b]
  | .hgsettle f => [f.b]
  | .rast f => [f.a]
  | .attr f => [f.x.c + 1]
  | .triset f => [f.sb + 2]
  | _ => []

/-- Order 4 of R45: the mask registers the word names. -/
def Instr.mregs : Instr → List Nat
  | .shfl f => f.member
  | .vote f => f.member
  | .redux f => f.member
  | .scanx f => f.member
  | .matchx f => f.member
  | .elect f => f.member
  | .join f => [f.md]
  | .leave f => [f.md]
  | .waitm f => [f.md]
  | .mset f => [f.md] ++ (if f.imm ≤ 4 then [f.ma] else []) ++ (if 1 ≤ f.imm && f.imm ≤ 4 then [f.mb] else [])
  | .mtest f => [f.ma] ++ (if 2 ≤ f.imm && f.imm ≤ 4 then [f.mb] else [])
  | _ => []

end Sys2Proof
end

