-- ==== Sys2Proof/WellFormed.lean ====
section
/-!
DEFINITION. Which instructions are well formed: every field fits its bits in the word, a required extension word is
there, and the word passes the checks of orders 3 to 5 of R45 that need nothing but the word.
-/

namespace Sys2Proof

/-- The fields of an XW word fit their bits (R39). -/
def XW.fit (x : XW) : Bool := x.c < 128 && x.rnd < 8
/-- The fields of an MX word fit their bits (R39). -/
def MX.fit (x : MX) : Bool := x.scope < 8 && x.order < 4 && x.cache < 4 && x.off24 < 2 ^ 24
/-- The fields of an AX word fit their bits (R39). -/
def AX.fit (x : AX) : Bool := x.scope < 8 && x.order < 4 && x.aop < 16 && x.off22 < 2 ^ 22

/-- Every field of the form fits its bits (R39). -/
def Form.fit : Form → Bool
  | .v3 f => f.d < 128 && f.a < 128 && f.b < 128 && f.t < 4 && f.xw.all XW.fit
  | .ri f => f.d < 128 && f.a < 128 && f.imm < 1024
  | .rl f => f.d < 128 && f.a < 128 && f.mod < 1024 && f.imm < 2 ^ 32
  | .m f => f.d < 128 && f.a < 128 && f.off < 128 && f.w < 4 && f.mx.all MX.fit
  | .am f => f.d < 128 && f.a < 128 && f.b < 128 && f.t < 4 && f.ax.fit
  | .b f => f.p < 8 && f.pn < 2 && f.off < 2 ^ 20
  | .s f => f.sd < 64 && f.sa < 64 && f.sb < 64 && f.imm < 64
  | .k f => f.md < 16 && f.ma < 16 && f.mb < 16 && f.s < 64 && f.imm < 64
  | .c f => f.p < 8 && f.pn < 2 && f.sa < 64 && f.va < 128 && f.vb < 128 && f.bar < 2 ^ 24 && f.batch < 16
  | .wf f => f.wld < 8 && f.wst < 8 && f.wcp < 8 && f.wtx < 8
  | .z => true

/-- Whether the form carries an extension word. -/
def Form.hasExt : Form → Bool
  | .v3 f => f.xw.isSome
  | .m f => f.mx.isSome
  | .rl _ | .am _ | .c _ => true
  | _ => false

/-- The fields of a word of the sequencer's stream, of a queue program, or of a clause header fit their bits. -/
def Instr.wordFit : Instr → Bool
  | .clauseHeader w => w < 2 ^ 32
  | .mnop fen => fen < 2
  | .mclaim e kind mask => e < 4 && kind < 2 && mask < 65536
  | .mrel e kind mask => e < 4 && kind < 2 && mask < 65536
  | .mload e q xa xs fmt sp => e < 4 && q < 16 && xa < 16 && xs < 16 && fmt < 16 && sp < 2
  | .mzero e mask => e < 4 && mask < 256
  | .mma e ac qa qb => e < 4 && ac < 8 && qa < 16 && qb < 16
  | .mmas e ac qa qb qs => e < 4 && ac < 8 && qa < 16 && qb < 16 && qs < 16
  | .mstore e ac xa xs fmt sp sat toq q => e < 4 && ac < 8 && xa < 16 && xs < 16 && fmt < 16 && sp < 2 && sat < 2 && toq < 2 && q < 16
  | .mbara b x => b < 8 && x < 16
  | .mbarw b x => b < 8 && x < 16
  | .mloop reg xc cnt => reg < 2 && xc < 16 && cnt < 65536
  | .mend  => true
  | .msetStream xd q16 keep imm => xd < 16 && q16 < 4 && keep < 2 && imm < 65536
  | .maddImm xd xa imm => xd < 16 && xa < 16 && imm < 32768
  | .maddReg xd xa xb => xd < 16 && xa < 16 && xb < 16
  | .mact e ac fn sh => e < 4 && ac < 8 && fn < 8 && sh < 32
  | .mscale e ac n => e < 4 && ac < 8 && n < 256
  | .mhalt  => true
  | .qpld d off w => d < 16 && off < 512 && w < 2
  | .qpst b off w => b < 16 && off < 512 && w < 2
  | .qwld d a off w n => d < 16 && a < 16 && off < 512 && w < 2 && n < 4
  | .qwst a b off w n => a < 16 && b < 16 && off < 512 && w < 2 && n < 4
  | .qwadd d a b off n => d < 16 && a < 16 && b < 16 && off < 512 && n < 4
  | .qadd d a b => d < 16 && a < 16 && b < 16
  | .qsub d a b => d < 16 && a < 16 && b < 16
  | .qand d a b => d < 16 && a < 16 && b < 16
  | .qor d a b => d < 16 && a < 16 && b < 16
  | .qxor d a b => d < 16 && a < 16 && b < 16
  | .qshl d a b => d < 16 && a < 16 && b < 16
  | .qshr d a b => d < 16 && a < 16 && b < 16
  | .qaddi d a imm => d < 16 && a < 16 && imm < 4096
  | .qli d imm32 => d < 16 && imm32 < 2 ^ 32
  | .qlih d imm32 => d < 16 && imm32 < 2 ^ 32
  | .qcmp d a b c => d < 16 && a < 16 && b < 16 && c < 8
  | .qbz a imm => a < 16 && imm < 4096
  | .qbnz a imm => a < 16 && imm < 4096
  | .qjmp imm => imm < 4096
  | .qloop a imm => a < 16 && imm < 4096
  | .qendl  => true
  | .qlaunch  => true
  | .qdepset a b off n => a < 16 && b < 16 && off < 512 && n < 4
  | .qdepdec a off n => a < 16 && off < 512 && n < 4
  | .qsignal a => a < 16
  | .qdone  => true
  | .qretry  => true
  | .qfault imm => imm < 4096
  | _ => true

/-- A well-formed instruction. -/
def Instr.wellFormed (i : Instr) : Bool :=
  i.wordFit && i.fieldsOk && i.mregs.all (· < 12) && i.sregs.all (· < 64)
    && (match i.simt? with
        | some (op, f) => f.fit && (!needsExt op || f.hasExt)
        | none => true)

/-- The well-formedness predicate. -/
abbrev WellFormed (i : Instr) : Prop := i.wellFormed = true

end Sys2Proof
end

