-- ==== Sys2Proof/Decode.lean ====
section
/-!
DEFINITION. Decoding of the three word streams and of the clause header, and the encoder. Decoding is total and
refuses by name; a reserved field that is not zero shows as a word that differs from the encoding of what was read.
-/

namespace Sys2Proof

/-- Why a word is no instruction. -/
inductive DecodeError where
  /-- R45 order 1: the opcode is not assigned, or a required extension word is missing. -/
  | illegalOp
  /-- R45 order 2: the extension or immediate word lies beyond the words given. -/
  | beyond
  /-- R45 order 3: a reserved field or value. -/
  | rsvdField
  /-- R45 order 4: a mask register from 12 to 15. -/
  | maskRange
  /-- R45 order 5: a scalar register beyond s63. -/
  | regRange
  deriving DecidableEq, Repr

/-- A Boolean as one bit. -/
def bit (b : Bool) : Nat := if b then 1 else 0
/-- Bit n of a word. -/
def flag (w n : Nat) : Bool := w / 2 ^ n % 2 == 1

/-- R39: the XW word. -/
def readXW (w : Nat) : XW :=
  { c := bits w 0 7, rnd := bits w 7 3, sat := flag w 10, nega := flag w 11, negb := flag w 12, negc := flag w 13,
    absa := flag w 14, absb := flag w 15, bs := flag w 16, as := flag w 17 }
/-- R39: the MX word. -/
def readMX (w : Nat) : MX :=
  { scope := bits w 0 3, order := bits w 3 2, cache := bits w 5 2, nt := flag w 7, off24 := bits w 8 24 }
/-- R39: the AX word. -/
def readAX (w : Nat) : AX := { scope := bits w 0 3, order := bits w 3 2, aop := bits w 5 4, off22 := bits w 10 22 }

/-- R39: the fields of a word of a format, with the word that follows it. -/
def readForm (w e : Nat) : Fmt → Form
  | .v3 => .v3 { d := bits w 8 7, a := bits w 15 7, b := bits w 22 7, t := bits w 29 2,
                 xw := if flag w 31 then some (readXW e) else none }
  | .ri => .ri { d := bits w 8 7, a := bits w 15 7, imm := bits w 22 10 }
  | .rl => .rl { d := bits w 8 7, a := bits w 15 7, mod := bits w 22 10, imm := bits e 0 32 }
  | .m => .m { d := bits w 8 7, a := bits w 15 7, off := bits w 22 7, w := bits w 29 2,
               mx := if flag w 31 then some (readMX e) else none }
  | .am => .am { d := bits w 8 7, a := bits w 15 7, b := bits w 22 7, t := bits w 29 2, ax := readAX e }
  | .b => .b { p := bits w 8 3, pn := bits w 11 1, off := bits w 12 20 }
  | .s => .s { sd := bits w 8 6, sa := bits w 14 6, sb := bits w 20 6, imm := bits w 26 6 }
  | .k => .k { md := bits w 8 4, ma := bits w 12 4, mb := bits w 16 4, s := bits w 20 6, imm := bits w 26 6 }
  | .c => .c { p := bits w 8 3, pn := bits w 11 1, sa := bits w 12 6, va := bits w 18 7, vb := bits w 25 7,
               bar := bits e 0 24, batch := bits e 24 4 }
  | .wf => .wf { wld := bits w 8 3, wst := bits w 11 3, wcp := bits w 14 3, wtx := bits w 17 3 }
  | .z => .z

/-- R39: the XW word of its fields. -/
def XW.word (x : XW) : Nat :=
  x.c + x.rnd * 2 ^ 7 + bit x.sat * 2 ^ 10 + bit x.nega * 2 ^ 11 + bit x.negb * 2 ^ 12 + bit x.negc * 2 ^ 13
    + bit x.absa * 2 ^ 14 + bit x.absb * 2 ^ 15 + bit x.bs * 2 ^ 16 + bit x.as * 2 ^ 17
/-- R39: the MX word of its fields. -/
def MX.word (x : MX) : Nat :=
  x.scope + x.order * 2 ^ 3 + x.cache * 2 ^ 5 + bit x.nt * 2 ^ 7 + x.off24 * 2 ^ 8
/-- R39: the AX word of its fields. -/
def AX.word (x : AX) : Nat := x.scope + x.order * 2 ^ 3 + x.aop * 2 ^ 5 + x.off22 * 2 ^ 10

/-- R39: the words of an opcode and its fields. -/
def Form.words (op : Nat) : Form → List Nat
  | .v3 f => (op + f.d * 2 ^ 8 + f.a * 2 ^ 15 + f.b * 2 ^ 22 + f.t * 2 ^ 29 + bit f.xw.isSome * 2 ^ 31) ::
      (match f.xw with
       | some x => [x.word]
       | none => [])
  | .ri f => [op + f.d * 2 ^ 8 + f.a * 2 ^ 15 + f.imm * 2 ^ 22]
  | .rl f => [op + f.d * 2 ^ 8 + f.a * 2 ^ 15 + f.mod * 2 ^ 22, f.imm]
  | .m f => (op + f.d * 2 ^ 8 + f.a * 2 ^ 15 + f.off * 2 ^ 22 + f.w * 2 ^ 29 + bit f.mx.isSome * 2 ^ 31) ::
      (match f.mx with
       | some x => [x.word]
       | none => [])
  | .am f => [op + f.d * 2 ^ 8 + f.a * 2 ^ 15 + f.b * 2 ^ 22 + f.t * 2 ^ 29 + 2 ^ 31, f.ax.word]
  | .b f => [op + f.p * 2 ^ 8 + f.pn * 2 ^ 11 + f.off * 2 ^ 12]
  | .s f => [op + f.sd * 2 ^ 8 + f.sa * 2 ^ 14 + f.sb * 2 ^ 20 + f.imm * 2 ^ 26]
  | .k f => [op + f.md * 2 ^ 8 + f.ma * 2 ^ 12 + f.mb * 2 ^ 16 + f.s * 2 ^ 20 + f.imm * 2 ^ 26]
  | .c f => [op + f.p * 2 ^ 8 + f.pn * 2 ^ 11 + f.sa * 2 ^ 12 + f.va * 2 ^ 18 + f.vb * 2 ^ 25,
             f.bar + f.batch * 2 ^ 24]
  | .wf f => [op + f.wld * 2 ^ 8 + f.wst * 2 ^ 11 + f.wcp * 2 ^ 14 + f.wtx * 2 ^ 17]
  | .z => [op]

/-- R41: whether an extension or immediate word follows a word of a format. -/
def extFollows (w : Nat) : Fmt → Bool
  | .rl | .c => true
  | .v3 | .m | .am => flag w 31
  | _ => false

/-- The number of words a SIMT word takes: 2 when an extension or immediate word follows it. -/
def simtSize (w : Nat) : Nat := match fmtOf (w % 256) with
  | some fmt => if extFollows w fmt then 2 else 1
  | none => 1

/-- Order 1 of R45: an opcode that is not assigned, or a required extension word missing (R41). -/
def opIllegal (w : Nat) : Bool := match fmtOf (w % 256) with
  | none => true
  | some fmt => (fmt == .am || needsExt (w % 256)) && !flag w 31

/-- Orders 3 to 5 of R45, as far as the word alone decides them. -/
def fieldFault (i : Instr) : Option DecodeError :=
  if !i.fieldsOk then some .rsvdField
  else if !i.mregs.all (· < 12) then some .maskRange
  else if !i.sregs.all (· < 64) then some .regRange
  else none

/-- Decode a word of the SIMT stream, `ext` being the word that follows it in its clause, if any (R45). -/
def decodeSimt (w : Nat) (ext : Option Nat) : Except DecodeError Instr :=
  match fmtOf (w % 256) with
  | none => .error .illegalOp
  | some fmt =>
    if opIllegal w then .error .illegalOp
    else if extFollows w fmt && ext.isNone then .error .beyond
    else
      let form := readForm w (ext.getD 0) fmt
      match build (w % 256) form with
      | none => .error .illegalOp
      | some i =>
        if form.words (w % 256) != w :: (if extFollows w fmt then ext.toList else []) then .error .rsvdField
        else match fieldFault i with
          | some e => .error e
          | none => .ok i

/-- R275: the word of an instruction of the sequencer's stream. -/
def streamWord : Instr → Option Nat
  | .mnop fen => some (0x00 + fen * 2 ^ 8)
  | .mclaim e kind mask => some (0x01 + e * 2 ^ 8 + kind * 2 ^ 10 + mask * 2 ^ 11)
  | .mrel e kind mask => some (0x02 + e * 2 ^ 8 + kind * 2 ^ 10 + mask * 2 ^ 11)
  | .mload e q xa xs fmt sp => some (0x03 + e * 2 ^ 8 + q * 2 ^ 10 + xa * 2 ^ 14 + xs * 2 ^ 18 + fmt * 2 ^ 22 + sp * 2 ^ 26)
  | .mzero e mask => some (0x04 + e * 2 ^ 8 + mask * 2 ^ 10)
  | .mma e ac qa qb => some (0x05 + e * 2 ^ 8 + ac * 2 ^ 10 + qa * 2 ^ 13 + qb * 2 ^ 17)
  | .mmas e ac qa qb qs => some (0x06 + e * 2 ^ 8 + ac * 2 ^ 10 + qa * 2 ^ 13 + qb * 2 ^ 17 + qs * 2 ^ 21)
  | .mstore e ac xa xs fmt sp sat toq q => some (0x07 + e * 2 ^ 8 + ac * 2 ^ 10 + xa * 2 ^ 13 + xs * 2 ^ 17 + fmt * 2 ^ 21 + sp * 2 ^ 25 + sat * 2 ^ 26 + toq * 2 ^ 27 + q * 2 ^ 28)
  | .mbara b x => some (0x08 + b * 2 ^ 8 + x * 2 ^ 11)
  | .mbarw b x => some (0x09 + b * 2 ^ 8 + x * 2 ^ 11)
  | .mloop reg xc cnt => some (0x0A + reg * 2 ^ 8 + xc * 2 ^ 9 + cnt * 2 ^ 13)
  | .mend  => some (0x0B)
  | .msetStream xd q16 keep imm => some (0x0C + xd * 2 ^ 8 + q16 * 2 ^ 12 + keep * 2 ^ 14 + imm * 2 ^ 15)
  | .maddImm xd xa imm => some (0x0D + xd * 2 ^ 8 + xa * 2 ^ 12 + imm * 2 ^ 17)
  | .maddReg xd xa xb => some (0x0D + 2 ^ 16 + xd * 2 ^ 8 + xa * 2 ^ 12 + xb * 2 ^ 17)
  | .mact e ac fn sh => some (0x0E + e * 2 ^ 8 + ac * 2 ^ 10 + fn * 2 ^ 13 + sh * 2 ^ 16)
  | .mscale e ac n => some (0x0F + e * 2 ^ 8 + ac * 2 ^ 10 + n * 2 ^ 13)
  | .mhalt  => some (0x10)
  | _ => none

/-- R275: the fields of a word of the sequencer's stream, by its opcode. -/
def readStream (w : Nat) : Option Instr := match w % 256 with
  | 0x00 => some (.mnop (bits w 8 1))
  | 0x01 => some (.mclaim (bits w 8 2) (bits w 10 1) (bits w 11 16))
  | 0x02 => some (.mrel (bits w 8 2) (bits w 10 1) (bits w 11 16))
  | 0x03 => some (.mload (bits w 8 2) (bits w 10 4) (bits w 14 4) (bits w 18 4) (bits w 22 4) (bits w 26 1))
  | 0x04 => some (.mzero (bits w 8 2) (bits w 10 8))
  | 0x05 => some (.mma (bits w 8 2) (bits w 10 3) (bits w 13 4) (bits w 17 4))
  | 0x06 => some (.mmas (bits w 8 2) (bits w 10 3) (bits w 13 4) (bits w 17 4) (bits w 21 4))
  | 0x07 => some (.mstore (bits w 8 2) (bits w 10 3) (bits w 13 4) (bits w 17 4) (bits w 21 4) (bits w 25 1) (bits w 26 1) (bits w 27 1) (bits w 28 4))
  | 0x08 => some (.mbara (bits w 8 3) (bits w 11 4))
  | 0x09 => some (.mbarw (bits w 8 3) (bits w 11 4))
  | 0x0A => some (.mloop (bits w 8 1) (bits w 9 4) (bits w 13 16))
  | 0x0B => some (.mend)
  | 0x0C => some (.msetStream (bits w 8 4) (bits w 12 2) (bits w 14 1) (bits w 15 16))
  | 0x0D => some (if flag w 16 then .maddReg (bits w 8 4) (bits w 12 4) (bits w 17 4) else .maddImm (bits w 8 4) (bits w 12 4) (bits w 17 15))
  | 0x0E => some (.mact (bits w 8 2) (bits w 10 3) (bits w 13 3) (bits w 16 5))
  | 0x0F => some (.mscale (bits w 8 2) (bits w 10 3) (bits w 13 8))
  | 0x10 => some (.mhalt)
  | _ => none

/-- Decode a word of the sequencer's stream: orders 1 and 2 of R276, as far as the word alone decides them. -/
def decodeStream (w : Nat) : Except DecodeError Instr := match readStream w with
  | none => .error .illegalOp
  | some i => if streamWord i != some w || !i.fieldsOk then .error .rsvdField else .ok i

/-- R386: the words of an instruction of a queue program. -/
def queueWords : Instr → Option (List Nat)
  | .qpld d off w => some [0x01 + d * 2 ^ 8 + off * 2 ^ 20 + w * 2 ^ 29]
  | .qpst b off w => some [0x02 + b * 2 ^ 16 + off * 2 ^ 20 + w * 2 ^ 29]
  | .qwld d a off w n => some [0x03 + d * 2 ^ 8 + a * 2 ^ 12 + off * 2 ^ 20 + w * 2 ^ 29 + n * 2 ^ 30]
  | .qwst a b off w n => some [0x04 + a * 2 ^ 12 + b * 2 ^ 16 + off * 2 ^ 20 + w * 2 ^ 29 + n * 2 ^ 30]
  | .qwadd d a b off n => some [0x05 + d * 2 ^ 8 + a * 2 ^ 12 + b * 2 ^ 16 + off * 2 ^ 20 + n * 2 ^ 30]
  | .qadd d a b => some [0x08 + d * 2 ^ 8 + a * 2 ^ 12 + b * 2 ^ 16]
  | .qsub d a b => some [0x09 + d * 2 ^ 8 + a * 2 ^ 12 + b * 2 ^ 16]
  | .qand d a b => some [0x0A + d * 2 ^ 8 + a * 2 ^ 12 + b * 2 ^ 16]
  | .qor d a b => some [0x0B + d * 2 ^ 8 + a * 2 ^ 12 + b * 2 ^ 16]
  | .qxor d a b => some [0x0C + d * 2 ^ 8 + a * 2 ^ 12 + b * 2 ^ 16]
  | .qshl d a b => some [0x0D + d * 2 ^ 8 + a * 2 ^ 12 + b * 2 ^ 16]
  | .qshr d a b => some [0x0E + d * 2 ^ 8 + a * 2 ^ 12 + b * 2 ^ 16]
  | .qaddi d a imm => some [0x0F + d * 2 ^ 8 + a * 2 ^ 12 + imm * 2 ^ 20]
  | .qli d imm32 => some [0x10 + d * 2 ^ 8, imm32]
  | .qlih d imm32 => some [0x11 + d * 2 ^ 8, imm32]
  | .qcmp d a b c => some [0x12 + d * 2 ^ 8 + a * 2 ^ 12 + b * 2 ^ 16 + c * 2 ^ 20]
  | .qbz a imm => some [0x18 + a * 2 ^ 12 + imm * 2 ^ 20]
  | .qbnz a imm => some [0x19 + a * 2 ^ 12 + imm * 2 ^ 20]
  | .qjmp imm => some [0x1A + imm * 2 ^ 20]
  | .qloop a imm => some [0x1B + a * 2 ^ 12 + imm * 2 ^ 20]
  | .qendl  => some [0x1C]
  | .qlaunch  => some [0x20]
  | .qdepset a b off n => some [0x21 + a * 2 ^ 12 + b * 2 ^ 16 + off * 2 ^ 20 + n * 2 ^ 30 + 2 ^ 29]
  | .qdepdec a off n => some [0x22 + a * 2 ^ 12 + off * 2 ^ 20 + n * 2 ^ 30 + 2 ^ 29]
  | .qsignal a => some [0x23 + a * 2 ^ 12]
  | .qdone  => some [0x24]
  | .qretry  => some [0x25]
  | .qfault imm => some [0x26 + imm * 2 ^ 20]
  | _ => none

/-- R386: the fields of a word of a queue program, by its opcode, with the word that follows it. -/
def readQueue (w e : Nat) : Option Instr := match w % 256 with
  | 0x01 => some (.qpld (bits w 8 4) (bits w 20 9) (bits w 29 1))
  | 0x02 => some (.qpst (bits w 16 4) (bits w 20 9) (bits w 29 1))
  | 0x03 => some (.qwld (bits w 8 4) (bits w 12 4) (bits w 20 9) (bits w 29 1) (bits w 30 2))
  | 0x04 => some (.qwst (bits w 12 4) (bits w 16 4) (bits w 20 9) (bits w 29 1) (bits w 30 2))
  | 0x05 => some (.qwadd (bits w 8 4) (bits w 12 4) (bits w 16 4) (bits w 20 9) (bits w 30 2))
  | 0x08 => some (.qadd (bits w 8 4) (bits w 12 4) (bits w 16 4))
  | 0x09 => some (.qsub (bits w 8 4) (bits w 12 4) (bits w 16 4))
  | 0x0A => some (.qand (bits w 8 4) (bits w 12 4) (bits w 16 4))
  | 0x0B => some (.qor (bits w 8 4) (bits w 12 4) (bits w 16 4))
  | 0x0C => some (.qxor (bits w 8 4) (bits w 12 4) (bits w 16 4))
  | 0x0D => some (.qshl (bits w 8 4) (bits w 12 4) (bits w 16 4))
  | 0x0E => some (.qshr (bits w 8 4) (bits w 12 4) (bits w 16 4))
  | 0x0F => some (.qaddi (bits w 8 4) (bits w 12 4) (bits w 20 12))
  | 0x10 => some (.qli (bits w 8 4) (bits e 0 32))
  | 0x11 => some (.qlih (bits w 8 4) (bits e 0 32))
  | 0x12 => some (.qcmp (bits w 8 4) (bits w 12 4) (bits w 16 4) (bits w 20 3))
  | 0x18 => some (.qbz (bits w 12 4) (bits w 20 12))
  | 0x19 => some (.qbnz (bits w 12 4) (bits w 20 12))
  | 0x1A => some (.qjmp (bits w 20 12))
  | 0x1B => some (.qloop (bits w 12 4) (bits w 20 12))
  | 0x1C => some (.qendl)
  | 0x20 => some (.qlaunch)
  | 0x21 => some (.qdepset (bits w 12 4) (bits w 16 4) (bits w 20 9) (bits w 30 2))
  | 0x22 => some (.qdepdec (bits w 12 4) (bits w 20 9) (bits w 30 2))
  | 0x23 => some (.qsignal (bits w 12 4))
  | 0x24 => some (.qdone)
  | 0x25 => some (.qretry)
  | 0x26 => some (.qfault (bits w 20 12))
  | _ => none

/-- R386: LI and LIH are followed by an immediate word. -/
def queueSize (w : Nat) : Nat := if w % 256 == 0x10 || w % 256 == 0x11 then 2 else 1

/-- Decode a word of a queue program (R387, R388). -/
def decodeQueue (w : Nat) (ext : Option Nat) : Except DecodeError Instr :=
  if queueSize w == 2 && ext.isNone then .error .beyond
  else match readQueue w (ext.getD 0) with
    | none => .error .illegalOp
    | some i =>
      if queueWords i != some (w :: (if queueSize w == 2 then ext.toList else [])) || !i.fieldsOk then
        .error .rsvdField
      else .ok i

/-- The words of a well-formed instruction, as its stream holds them; an event has none. -/
def encode (i : Instr) : List Nat := match i.simt? with
  | some (op, f) => f.words op
  | none => match streamWord i with
    | some w => [w]
    | none => match queueWords i with
      | some ws => ws
      | none => match i with
        | .clauseHeader w => [w]
        | _ => []

/-- R31: the fields of a clause header. -/
structure Header where
  n : Nat
  cls : Nat
  be : Bool
  wld : Nat
  wst : Nat
  wcp : Nat
  wtx : Nat
  gp : Nat
  gn : Bool
  ge : Bool
  deriving DecidableEq, Repr

/-- R31: a header word read field by field. -/
def readHeader (w : Nat) : Header :=
  { n := bits w 0 4, cls := bits w 4 3, be := flag w 7, wld := bits w 8 3, wst := bits w 11 3, wcp := bits w 14 3,
    wtx := bits w 17 3, gp := bits w 20 3, gn := flag w 23, ge := flag w 24 }

/-- R32: the first check of a header that fails; `beyond` stands for ILLEGAL_CLAUSE. -/
def headerFault (w : Nat) : Option DecodeError :=
  if bits w 28 4 != 0xB then some .beyond
  else if bits w 0 4 == 0 then some .beyond
  else if bits w 25 3 != 0 then some .rsvdField
  else if !flag w 24 && (bits w 20 3 != 0 || flag w 23) then some .beyond
  else none

/-- R31: the word of a header. -/
def Header.word (h : Header) : Nat :=
  h.n + h.cls * 2 ^ 4 + bit h.be * 2 ^ 7 + h.wld * 2 ^ 8 + h.wst * 2 ^ 11 + h.wcp * 2 ^ 14 + h.wtx * 2 ^ 17
    + h.gp * 2 ^ 20 + bit h.gn * 2 ^ 23 + bit h.ge * 2 ^ 24 + 0xB * 2 ^ 28

/-- A 32-bit word as the four bytes memory holds, lowest address first (R3). -/
def wordBytes (w : Nat) : List Nat := [bits w 0 8, bits w 8 8, bits w 16 8, bits w 24 8]

/-- Four bytes, lowest address first, as the word they hold (R3). -/
def bytesWord : List Nat → Option (Nat × List Nat)
  | a :: b :: c :: d :: rest => some (a + b * 2 ^ 8 + c * 2 ^ 16 + d * 2 ^ 24, rest)
  | _ => none

/-- Decode an instruction of the SIMT stream from bytes, with the bytes that remain. -/
def decodeBytes (bs : List Nat) : Except DecodeError (Instr × List Nat) :=
  match bytesWord bs with
  | none => .error .beyond
  | some (w, rest) =>
    if simtSize w == 2 then
      match bytesWord rest with
      | none => if opIllegal w then .error .illegalOp else .error .beyond
      | some (e, rest2) => (decodeSimt w (some e)).map (·, rest2)
    else (decodeSimt w none).map (·, rest)

/-- The instruction this model's decoders read from a word that the opcode table gives, the words above it zero. The
three word streams share one number space, and a header stands only at a clause boundary: the word is tried as a word
of the SIMT stream, of the sequencer's stream, of a queue program, and last as a header (log entry 10). -/
def decodeTableWord (nbits w : Nat) : Option Instr :=
  if nbits == 0 then none
  else
    let w0 := bits w 0 32
    let e := bits w 32 32
    match decodeBytes (wordBytes w0 ++ wordBytes e) with
    | .ok (i, _) => some i
    | .error _ => match decodeStream w0 with
      | .ok i => some i
      | .error _ => match decodeQueue w0 (some e) with
        | .ok i => some i
        | .error _ => if headerFault w0 == none then some (.clauseHeader w0) else none

end Sys2Proof
end

