-- ==== Sys2Proof/Machine/Float.lean ====
section
/-!
DEFINITION. The arithmetic of chapter "Number Formats and Rounding": formats as values (R53-R57), NaN results (R58),
rounding and overflow (R61-R63), subnormals (R64), and the exact operations the instructions share. A finite value is
an integer times a power of two; a result is computed exactly, or to far more bits than any format holds with a mark
that it lies strictly above them, and is rounded once.
-/

namespace Sys2Proof.Machine

/-- The five exceptions of R65, in the order of the sticky flags of R59: invalid, divide-by-zero, overflow, underflow,
inexact. -/
abbrev Exc := BitVec 5

/-- Invalid. -/
def Exc.inv : Exc := 1
/-- Divide-by-zero. -/
def Exc.dz : Exc := 2
/-- Overflow. -/
def Exc.ovf : Exc := 4
/-- Underflow. -/
def Exc.unf : Exc := 8
/-- Inexact. -/
def Exc.inx : Exc := 16

/-- An exception raised or not. -/
def Exc.when (b : Bool) (x : Exc) : Exc := if b then x else 0

/-- How a format uses the all-ones exponent (R55). -/
inductive TopExp where
  /-- Infinity and NaNs. -/
  | ieee
  /-- E4M3: only the all-ones fraction is a NaN. -/
  | oneNaN
  /-- E2M1: every value is normal. -/
  | noNaN
  deriving DecidableEq, Repr

/-- A floating-point format of R53: its width, exponent and fraction widths and bias. -/
structure FFmt where
  w : Nat
  eb : Nat
  fb : Nat
  bias : Nat
  top : TopExp
  deriving DecidableEq, Repr

/-- F32 (R53). -/
def FFmt.f32 : FFmt := ⟨32, 8, 23, 127, .ieee⟩
/-- F16 (R53). -/
def FFmt.f16 : FFmt := ⟨16, 5, 10, 15, .ieee⟩
/-- BF16 (R53). -/
def FFmt.bf16 : FFmt := ⟨16, 8, 7, 127, .ieee⟩
/-- E4M3 (R53). -/
def FFmt.e4m3 : FFmt := ⟨8, 4, 3, 7, .oneNaN⟩
/-- E5M2 (R53). -/
def FFmt.e5m2 : FFmt := ⟨8, 5, 2, 15, .ieee⟩
/-- E2M1 (R53). -/
def FFmt.e2m1 : FFmt := ⟨4, 2, 1, 1, .noNaN⟩

/-- The floating-point format of a code of R53, 0x0 to 0x5. -/
def ffmtOf : Nat → Option FFmt
  | 0 => some .f32
  | 1 => some .f16
  | 2 => some .bf16
  | 3 => some .e4m3
  | 4 => some .e5m2
  | 5 => some .e2m1
  | _ => none

/-- R43: the format that T selects in a vector-float instruction. -/
def vfmt (t : Nat) : FFmt := if t == 1 then .f16 else if t == 2 then .bf16 else .f32

/-- R64: FTZ and DAZ act on F32, F16 and BF16 alone. -/
def FFmt.flushes (k : FFmt) : Bool := k == .f32 || k == .f16 || k == .bf16

/-- A value read from a pattern: a NaN keeps its pattern; a finite value is (-1)^neg × m × 2^e. -/
inductive FV where
  | nan (raw : Nat)
  | inf (neg : Bool)
  | fin (neg : Bool) (m : Nat) (e : Int)
  deriving DecidableEq, Repr

/-- The sign bit of a pattern. -/
def FFmt.sign (k : FFmt) (raw : Nat) : Bool := raw / 2 ^ (k.w - 1) % 2 == 1
/-- A sign bit in its place. -/
def FFmt.signBit (k : FFmt) (neg : Bool) : Nat := if neg then 2 ^ (k.w - 1) else 0

/-- R55: the value of a pattern. -/
def FFmt.read (k : FFmt) (raw : Nat) : FV :=
  let s := k.sign raw
  let e := raw / 2 ^ k.fb % 2 ^ k.eb
  let f := raw % 2 ^ k.fb
  let normal := FV.fin s (2 ^ k.fb + f) ((e : Int) - k.bias - k.fb)
  if e = 0 then .fin s f (1 - (k.bias : Int) - k.fb)
  else if e + 1 = 2 ^ k.eb then
    match k.top with
    | .ieee => if f = 0 then .inf s else .nan raw
    | .oneNaN => if f + 1 = 2 ^ k.fb then .nan raw else normal
    | .noNaN => normal
  else normal

/-- R55: a NaN whose top fraction bit is 0 is signalling; E4M3 has none. -/
def FFmt.snan (k : FFmt) (raw : Nat) : Bool := match k.read raw with
  | .nan r => k.top == .ieee && r / 2 ^ (k.fb - 1) % 2 == 0
  | _ => false

/-- Whether a pattern is a NaN. -/
def FFmt.isNan (k : FFmt) (raw : Nat) : Bool := match k.read raw with
  | .nan _ => true
  | _ => false

/-- Whether a pattern is a subnormal: exponent field 0 and a fraction. -/
def FFmt.subnormal (k : FFmt) (raw : Nat) : Bool := raw / 2 ^ k.fb % 2 ^ k.eb == 0 && raw % 2 ^ k.fb != 0

/-- R58: the canonical NaN; E2M1 holds none and takes 0. -/
def FFmt.canon (k : FFmt) : Nat := match k.top with
  | .ieee => (2 ^ k.eb - 1) * 2 ^ k.fb + 2 ^ (k.fb - 1)
  | .oneNaN => (2 ^ k.eb - 1) * 2 ^ k.fb + (2 ^ k.fb - 1)
  | .noNaN => 0

/-- The pattern of an infinity, in a format that has one. -/
def FFmt.infBits (k : FFmt) (neg : Bool) : Nat := k.signBit neg + (2 ^ k.eb - 1) * 2 ^ k.fb

/-- The exponent field and the significand of the largest finite value (R53). -/
def FFmt.maxFin (k : FFmt) : Nat × Nat := match k.top with
  | .ieee => (2 ^ k.eb - 2, 2 ^ (k.fb + 1) - 1)
  | .oneNaN => (2 ^ k.eb - 1, 2 ^ (k.fb + 1) - 2)
  | .noNaN => (2 ^ k.eb - 1, 2 ^ (k.fb + 1) - 1)

/-- The pattern of the largest finite value of a sign. -/
def FFmt.maxBits (k : FFmt) (neg : Bool) : Nat :=
  k.signBit neg + k.maxFin.1 * 2 ^ k.fb + (k.maxFin.2 - 2 ^ k.fb)

/-- An exact result: magnitude m × 2^e, or strictly between m and m + 1 times 2^e when `sticky`. -/
structure Ex where
  neg : Bool
  m : Nat
  e : Int
  sticky : Bool := false
  deriving DecidableEq, Repr

/-- R61: round a magnitude to a multiple of 2^q under a mode: the multiple and whether it is inexact. -/
def roundAt (mode : Nat) (x : Ex) (q : Int) : Nat × Bool :=
  let d := (q - x.e).toNat
  let m := x.m * 2 ^ (x.e - q).toNat
  let n := m / 2 ^ d
  let r := m % 2 ^ d
  let inx := r != 0 || x.sticky
  let tie := 2 * r == 2 ^ d && !x.sticky
  let above := decide (2 * r > 2 ^ d) || (2 * r == 2 ^ d && x.sticky)
  let up := match mode with
    | 1 => above || (tie && n % 2 == 1)
    | 3 => inx && !x.neg
    | 4 => inx && x.neg
    | 5 => above || tie
    | _ => false
  (if mode == 6 && inx then n + (1 - n % 2) else if up then n + 1 else n, inx)

/-- R62, R63: the result of a magnitude beyond the largest finite value. DEDUCED (log entry 65): the NaN that R63 gives
E4M3 keeps its sign under NANC = 1 too. -/
def FFmt.overflow (k : FFmt) (mode : Nat) (sat neg : Bool) : Nat :=
  let toInf := match mode with
    | 1 | 5 => true
    | 3 => !neg
    | 4 => neg
    | _ => false
  if !toInf || sat then k.maxBits neg
  else match k.top with
    | .ieee => k.infBits neg
    | .oneNaN => k.signBit neg + k.canon
    | .noNaN => k.maxBits neg

/-- R61-R64: an exact value delivered in a format: its pattern and the exceptions. A zero keeps the sign it is given. -/
def FFmt.deliver (k : FFmt) (mode : Nat) (sat ftz : Bool) (x : Ex) : Nat × Exc :=
  if x.m = 0 then (k.signBit x.neg, Exc.when x.sticky (.unf ||| .inx))
  else
    let top : Int := x.e + Nat.log2 x.m
    let qU : Int := top - k.fb
    let q : Int := max qU (1 - (k.bias : Int) - k.fb)
    let (n, inx) := roundAt mode x q
    let (nU, _) := roundAt mode x qU
    let tiny : Bool := decide ((if nU = 2 ^ (k.fb + 1) then qU + 1 else qU) + k.fb < 1 - (k.bias : Int))
    let n' := if n = 2 ^ (k.fb + 1) then 2 ^ k.fb else n
    let q' := if n = 2 ^ (k.fb + 1) then q + 1 else q
    let ef : Nat := if n' < 2 ^ k.fb then 0 else (q' + k.fb + k.bias).toNat
    if ef > k.maxFin.1 || (ef == k.maxFin.1 && decide (n' > k.maxFin.2)) then
      (k.overflow mode sat x.neg, .ovf ||| .inx)
    else if ftz && ef == 0 && n' != 0 then (k.signBit x.neg, .unf ||| .inx)
    else (k.signBit x.neg + (if ef == 0 then n' else ef * 2 ^ k.fb + (n' - 2 ^ k.fb)),
          Exc.when inx .inx ||| Exc.when (tiny && inx) .unf)

/-- R58: quieten a NaN of a format. -/
def FFmt.quiet (k : FFmt) (raw : Nat) : Nat :=
  if k.top == .ieee && raw / 2 ^ (k.fb - 1) % 2 == 0 then raw + 2 ^ (k.fb - 1) else raw

/-- R58: the NaN result of an operation over sources, which are patterns after DAZ and the modifiers. -/
def FFmt.nanOf (k : FFmt) (nanc : Bool) (srcs : List Nat) : Nat :=
  if nanc then k.canon
  else match srcs.find? k.isNan with
    | some r => k.quiet r
    | none => k.canon

/-- What an operation gives before delivery. -/
inductive OpRes where
  /-- A NaN under R58, raising invalid of its own or not. -/
  | nan (inv : Bool)
  /-- An infinity, with the exceptions it raises. -/
  | inf (neg : Bool) (x : Exc)
  /-- A number to round. -/
  | num (x : Ex)
  /-- A pattern delivered without rounding (R114), with the exceptions it raises. -/
  | pat (raw : Nat) (x : Exc)
  deriving DecidableEq, Repr

/-- How results are delivered: rounding mode, SAT, FTZ and NANC. -/
structure Dlv where
  mode : Nat
  sat : Bool := false
  ftz : Bool := false
  nanc : Bool := true

/-- R58, R62-R64: the delivered pattern and the exceptions of an operation over sources. -/
def FFmt.finish (k : FFmt) (d : Dlv) (srcs : List Nat) (r : OpRes) : Nat × Exc :=
  let s := Exc.when (srcs.any k.snan) .inv
  match r with
  | .nan i => (k.nanOf d.nanc srcs, s ||| Exc.when i .inv)
  | .inf neg x => (k.infBits neg, s ||| x)
  | .num x => let (y, f) := k.deliver d.mode d.sat (d.ftz && k.flushes) x; (y, s ||| f)
  | .pat raw x =>
    if d.ftz && k.flushes && k.subnormal raw then (k.signBit (k.sign raw), x ||| .unf ||| .inx) else (raw, x)

/-- R61: the sign of an exact zero sum of terms that are not both zeros of one sign. -/
def zeroNeg (mode : Nat) : Bool := mode == 4

/-- The sum of two dyadic numbers, each a signed integer and an exponent. -/
def dyAdd (a b : Int × Int) : Int × Int :=
  let e := min a.2 b.2
  (a.1 * 2 ^ (a.2 - e).toNat + b.1 * 2 ^ (b.2 - e).toNat, e)

/-- A sign and a magnitude as an integer. -/
def signed (neg : Bool) (m : Nat) : Int := if neg then -(m : Int) else m

/-- A dyadic number as an exact result; a zero takes the sign given. -/
def exOf (zneg : Bool) (a : Int × Int) : Ex :=
  { neg := if a.1 = 0 then zneg else decide (a.1 < 0), m := a.1.natAbs, e := a.2 }

/-- R113: a + b, with the sign of a zero sum that IEEE 754-2019 gives. -/
def fAdd (mode : Nat) : FV → FV → OpRes
  | .nan _, _ => .nan false
  | _, .nan _ => .nan false
  | .inf s, .inf t => if s = t then .inf s 0 else .nan true
  | .inf s, _ => .inf s 0
  | _, .inf t => .inf t 0
  | .fin s m e, .fin t n f =>
    let z := if m = 0 ∧ n = 0 ∧ s = t then s else zeroNeg mode
    .num (exOf z (dyAdd (signed s m, e) (signed t n, f)))

/-- The value with the opposite sign; a NaN is unchanged (R58). -/
def FV.neg : FV → FV
  | .nan r => .nan r
  | .inf s => .inf !s
  | .fin s m e => .fin (!s) m e

/-- Whether a value is a zero. -/
def FV.isZero : FV → Bool
  | .fin _ m _ => m == 0
  | _ => false

/-- Whether a value is a NaN. -/
def FV.isNan : FV → Bool
  | .nan _ => true
  | _ => false

/-- The sign of a value. -/
def FV.sgn : FV → Bool
  | .nan _ => false
  | .inf s => s
  | .fin s _ _ => s

/-- R113: a × b. -/
def fMul : FV → FV → OpRes
  | .nan _, _ => .nan false
  | _, .nan _ => .nan false
  | .inf s, b => if b.isZero then .nan true else .inf (s != b.sgn) 0
  | a, .inf t => if a.isZero then .nan true else .inf (a.sgn != t) 0
  | .fin s m e, .fin t n f => .num { neg := s != t, m := m * n, e := e + f }

/-- R113: a × b + c with one rounding; 0 × ∞ is invalid whatever c is. -/
def fFma (mode : Nat) (a b c : FV) : OpRes := match fMul a b with
  | .nan i => .nan i
  | .inf s _ => match c with
    | .nan _ => .nan false
    | .inf t => if s = t then .inf s 0 else .nan true
    | _ => .inf s 0
  | .num p => fAdd mode (.fin p.neg p.m p.e) c
  | .pat r x => .pat r x

/-- Bits kept beyond the divisor's in a quotient. -/
def quotBits : Nat := 320

/-- The quotient of two positive dyadic magnitudes. -/
def exDiv (neg : Bool) (m : Nat) (e : Int) (n : Nat) (f : Int) : Ex :=
  let k := quotBits + Nat.log2 n
  { neg := neg, m := m * 2 ^ k / n, e := e - f - k, sticky := m * 2 ^ k % n != 0 }

/-- R113: a / b. -/
def fDiv : FV → FV → OpRes
  | .nan _, _ => .nan false
  | _, .nan _ => .nan false
  | .inf _, .inf _ => .nan true
  | .inf s, b => .inf (s != b.sgn) 0
  | .fin s _ _, .inf t => .num { neg := s != t, m := 0, e := 0 }
  | .fin s m e, .fin t n f =>
    if n = 0 then (if m = 0 then .nan true else .inf (s != t) .dz)
    else .num (exDiv (s != t) m e n f)

/-- R113: 1 / a. -/
def fRcp : FV → OpRes
  | .nan _ => .nan false
  | .inf s => .num { neg := s, m := 0, e := 0 }
  | .fin s m e => if m = 0 then .inf s .dz else .num (exDiv s 1 0 m e)

/-- The integer square root, bit by bit from bit `n`. -/
def isqrt (n : Nat) : Nat → Nat → Nat
  | 0, r => if (r + 1) * (r + 1) ≤ n then r + 1 else r
  | i + 1, r => isqrt n i (if (r + 2 ^ (i + 1)) * (r + 2 ^ (i + 1)) ≤ n then r + 2 ^ (i + 1) else r)

/-- The integer square root. -/
def natSqrt (n : Nat) : Nat := isqrt n (Nat.log2 n / 2 + 1) 0

/-- The square root of a positive dyadic magnitude. -/
def exSqrt (neg : Bool) (m : Nat) (e : Int) : Ex :=
  let odd := e % 2 ≠ 0
  let k : Nat := 320
  let m' := (if odd then 2 * m else m) * 2 ^ (2 * k)
  let e' := if odd then e - 1 else e
  let r := natSqrt m'
  { neg := neg, m := r, e := e' / 2 - k, sticky := r * r != m' }

/-- R113: the square root. -/
def fSqrt : FV → OpRes
  | .nan _ => .nan false
  | .inf s => if s then .nan true else .inf false 0
  | .fin s m e =>
    if m = 0 then .num { neg := s, m := 0, e := 0 }
    else if s then .nan true else .num (exSqrt false m e)

/-- R113: 1 / √a. A quotient 2^2k / m under the root keeps its floor, so the mark of inexactness is taken from the
product. -/
def fRsq : FV → OpRes
  | .nan _ => .nan false
  | .inf s => if s then .nan true else .num { neg := false, m := 0, e := 0 }
  | .fin s m e =>
    if m = 0 then .inf s .dz
    else if s then .nan true
    else
      let odd := e % 2 ≠ 0
      let m' := if odd then 2 * m else m
      let e' := if odd then e - 1 else e
      let k : Nat := 320 + Nat.log2 m'
      let r := natSqrt (2 ^ (2 * k) / m')
      .num { neg := false, m := r, e := -(e' / 2) - k, sticky := r * r * m' != 2 ^ (2 * k) }

/-- Fraction bits of the fixed-point numbers behind the functions of R115 and R285. -/
def fixK : Nat := 640

/-- 1 in fixed point. -/
def fixOne : Nat := 2 ^ fixK

/-- Σ over the terms: t₀ given, tₙ₊₁ from tₙ and n. -/
def fixSeries (next : Nat → Nat → Nat) : Nat → Nat → Nat → Nat → Nat
  | 0, _, _, acc => acc
  | fuel + 1, n, t, acc => if t = 0 then acc else fixSeries next fuel (n + 1) (next n t) (acc + t)

/-- The alternating sum t₀ − t₁ + t₂ − …, for falling terms. -/
def fixAlternating (next : Nat → Nat → Nat) (t0 : Nat) : Nat :=
  fixAltSum next 400 0 t0 true 0 0
where
  /-- The sums of the terms added and of the terms taken away. -/
  fixAltSum (next : Nat → Nat → Nat) : Nat → Nat → Nat → Bool → Nat → Nat → Nat
    | 0, _, _, _, p, q => p - q
    | fuel + 1, n, t, pos, p, q =>
      if t = 0 then p - q
      else fixAltSum next fuel (n + 1) (next n t) (!pos) (if pos then p + t else p) (if pos then q else q + t)

/-- 2 × artanh(y / d) for a positive fraction at most 1/3, in fixed point. -/
def fixLnRatio (y d : Nat) : Nat :=
  -- term n of the odd powers: z^(2n+1); the sum of z^(2n+1) / (2n+1)
  let z := y * fixOne / d
  let z2 := z * z / fixOne
  2 * go z2 400 0 z 0
where
  /-- The sum over the odd powers. -/
  go (z2 : Nat) : Nat → Nat → Nat → Nat → Nat
    | 0, _, _, acc => acc
    | fuel + 1, n, p, acc =>
      if p = 0 then acc else go z2 fuel (n + 1) (p * z2 / fixOne) (acc + p / (2 * n + 1))

/-- ln 2 in fixed point. -/
def fixLn2 : Nat := fixLnRatio 1 3

/-- arctan(1 / d) in fixed point. -/
def fixAtanInv (d : Nat) : Nat := go (d * d) 500 0 (fixOne / d) true 0 0
where
  /-- The alternating sum over the odd powers. -/
  go (d2 : Nat) : Nat → Nat → Nat → Bool → Nat → Nat → Nat
    | 0, _, _, _, p, q => p - q
    | fuel + 1, n, t, pos, p, q =>
      if t = 0 then p - q
      else go d2 fuel (n + 1) (t / d2) (!pos)
        (if pos then p + t / (2 * n + 1) else p) (if pos then q else q + t / (2 * n + 1))

/-- π / 2 in fixed point, by Machin's formula. -/
def fixHalfPi : Nat := 2 * (4 * fixAtanInv 5 - fixAtanInv 239)

/-- e^y in fixed point, for a fixed-point y below 1. -/
def fixExp (y : Nat) : Nat := fixSeries (fun n t => t * y / fixOne / (n + 1)) 400 0 fixOne 0

/-- sin(π/2 × r / d) in fixed point, for 0 < r ≤ d. -/
def fixSin (r d : Nat) : Nat :=
  let x := fixHalfPi * r / d
  let x2 := x * x / fixOne
  fixAlternating (fun n t => t * x2 / fixOne / ((2 * n + 2) * (2 * n + 3))) x

/-- R115: 2^a. -/
def fExp2 : FV → OpRes
  | .nan _ => .nan false
  | .inf s => if s then .num { neg := false, m := 0, e := 0 } else .inf false 0
  | .fin s m e =>
    if m = 0 then .num { neg := false, m := 1, e := 0 }
    else
      let top : Int := e + Nat.log2 m
      if top ≥ 12 then .num { neg := false, m := 1, e := if s then -8192 else 8192 }
      else
        let d : Nat := 2 ^ (-e).toNat
        let v : Int := signed s (m * 2 ^ e.toNat)
        let i := v / d
        let f := (v % d).toNat
        if f = 0 then .num { neg := false, m := 1, e := i }
        else .num { neg := false, m := fixExp (fixLn2 * f / d), e := i - fixK, sticky := true }

/-- log2 of a positive dyadic magnitude, in fixed point, and whether it is exact. -/
def fixLog2 (m : Nat) (e : Int) : Int × Bool :=
  let l := Nat.log2 m
  let i : Int := (e + l) * fixOne
  if m = 2 ^ l then (i, true)
  else (i + (fixLnRatio (m - 2 ^ l) (m + 2 ^ l) * fixOne / fixLn2 : Nat), false)

/-- R115: log2 a. -/
def fLog2 : FV → OpRes
  | .nan _ => .nan false
  | .inf s => if s then .nan true else .inf false 0
  | .fin s m e =>
    if m = 0 then .inf true .dz
    else if s then .nan true
    else
      let (v, exact) := fixLog2 m e
      if exact then .num (exOf false (v, -(fixK : Int)))
      else if v < 0 then .num { neg := true, m := v.natAbs - 1, e := -(fixK : Int), sticky := true }
      else .num { neg := false, m := v.natAbs, e := -(fixK : Int), sticky := true }

/-- The number of quarter turns below an angle of m × 2^e turns, modulo 4, and the rest as a fraction of a quarter
turn. -/
def quarter (m : Nat) (e : Int) : Nat × Nat × Nat :=
  let d : Nat := 2 ^ (-e).toNat
  let r := 4 * (m * 2 ^ e.toNat)
  (r / d % 4, r % d, d)

/-- A fixed-point number strictly between 0 and 1 as a result. -/
def exFix (neg : Bool) (v : Nat) : Ex := { neg := neg, m := v, e := -(fixK : Int), sticky := true }

/-- R115: sin(2πa). -/
def fSin : FV → OpRes
  | .nan _ => .nan false
  | .inf _ => .nan true
  | .fin s m e =>
    let (q, r, d) := quarter m e
    if r = 0 then
      (if q = 0 ∨ q = 2 then .num { neg := s, m := 0, e := 0 } else .num { neg := s != (q == 3), m := 1, e := 0 })
    else
      let v := if q % 2 = 0 then fixSin r d else fixSin (d - r) d
      .num (exFix (s != decide (q ≥ 2)) v)

/-- R115: cos(2πa). -/
def fCos : FV → OpRes
  | .nan _ => .nan false
  | .inf _ => .nan true
  | .fin _ m e =>
    let (q, r, d) := quarter m e
    if r = 0 then
      (if q = 1 ∨ q = 3 then .num { neg := false, m := 0, e := 0 } else .num { neg := q == 2, m := 1, e := 0 })
    else
      let v := if q % 2 = 0 then fixSin (d - r) d else fixSin r d
      .num (exFix (q == 1 || q == 2) v)

/-- R116: FRINT. The integral value keeps the sign of a; inexact when it differs. -/
def fRint (mode : Nat) : FV → OpRes
  | .nan _ => .nan false
  | .inf s => .inf s 0
  | .fin s m e =>
    let (n, inx) := roundAt mode { neg := s, m := m, e := e } 0
    if e ≥ 0 then .num { neg := s, m := m, e := e }
    else if inx then .num { neg := s, m := n, e := 0 }
    else .num { neg := s, m := n, e := 0 }

/-- R116: whether FRINT is inexact. -/
def fRintInexact (mode : Nat) : FV → Bool
  | .fin s m e => e < 0 && (roundAt mode { neg := s, m := m, e := e } 0).2
  | _ => false

/-- R116: a − floor(a), exactly; an integral a gives +0. -/
def fFrac : FV → OpRes
  | .nan _ => .nan false
  | .inf _ => .nan true
  | .fin s m e =>
    if e ≥ 0 then .num { neg := false, m := 0, e := 0 }
    else
      let d : Nat := 2 ^ (-e).toNat
      .num { neg := false, m := (signed s m % (d : Int)).toNat, e := e }

/-- R119: a × 2^n. -/
def fScale (n : Int) : FV → OpRes
  | .nan _ => .nan false
  | .inf s => .inf s 0
  | .fin s m e =>
    -- an exponent beyond ±4096 already overflows or underflows every format
    .num { neg := s, m := m, e := e + max (-4096) (min 4096 n) }

/-- The order of two values that are not NaNs, −0 equal to +0. -/
def fvCmp : FV → FV → Ordering
  | .inf s, .inf t => compare (if s then 0 else 1) (if t then 0 else 1)
  | .inf s, _ => if s then .lt else .gt
  | _, .inf t => if t then .gt else .lt
  | .fin s m e, .fin t n f =>
    let d := dyAdd (signed s m, e) (-(signed t n), f)
    compare d.1 0
  | _, _ => .eq

/-- R114: whether a orders below b, −0 below +0. -/
def fvBelow (a b : FV) : Bool := match fvCmp a b with
  | .lt => true
  | .gt => false
  | .eq => a.sgn && !b.sgn

/-- R114: FMIN, FMAX, FMINP and FMAXP over patterns after DAZ and the modifiers. -/
def FFmt.minMax (k : FFmt) (isMax prop : Bool) (a b : Nat) : OpRes :=
  let s := Exc.when (k.snan a || k.snan b) .inv
  let va := k.read a
  let vb := k.read b
  match va.isNan, vb.isNan with
  | true, true => .nan false
  | true, false => if prop then .nan false else .pat b s
  | false, true => if prop then .nan false else .pat a s
  | false, false => .pat (if fvBelow va vb != isMax then a else b) s

/-- R118: the class mask of a pattern. -/
def FFmt.classOf (k : FFmt) (raw : Nat) : Nat := match k.read raw with
  | .nan _ => if k.snan raw then 1 else 2
  | .inf s => if s then 4 else 512
  | .fin s m _ =>
    if m = 0 then (if s then 32 else 64)
    else if k.subnormal raw then (if s then 16 else 128)
    else if s then 8 else 256

/-- R120: the comparison relations of two values: less, equal, greater, unordered. -/
def fvRel (a b : FV) : Bool × Bool × Bool × Bool :=
  if a.isNan || b.isNan then (false, false, false, true)
  else match fvCmp a b with
    | .lt => (true, false, false, false)
    | .eq => (false, true, false, false)
    | .gt => (false, false, true, false)

/-- R120: a condition code over two values. -/
def fcond (c : Nat) (a b : FV) : Bool :=
  let (lt, eq, gt, uno) := fvRel a b
  match c with
  | 0 => false
  | 1 => eq
  | 2 => lt
  | 3 => lt || eq
  | 4 => gt
  | 5 => gt || eq
  | 6 => lt || gt
  | 7 => !uno
  | 8 => uno
  | 9 => eq || uno
  | 10 => lt || uno
  | 11 => lt || eq || uno
  | 12 => gt || uno
  | 13 => gt || eq || uno
  | 14 => !eq
  | _ => true

/-- R64, R112: a source pattern after DAZ, then ABS, then NEG. -/
def FFmt.source (k : FFmt) (daz abs neg : Bool) (raw : Nat) : Nat :=
  let r := if daz && k.flushes && k.subnormal raw then k.signBit (k.sign raw) else raw
  let r := if abs then r % 2 ^ (k.w - 1) else r
  if neg then (if k.sign r then r - 2 ^ (k.w - 1) else r + 2 ^ (k.w - 1)) else r

/-- F32 addition under a mode with R58's canonical NaN and no FPMODE, as memory atomics (R224) and engines use it. -/
def f32AddPlain (k : FFmt) (a b : Nat) : Nat :=
  (k.finish { mode := 1 } [a, b] (fAdd 1 (k.read a) (k.read b))).1

end Sys2Proof.Machine
end

