-- ==== Sys2Proof/Machine/Flags.lean ====
section
/-!
DEFINITION. FPMODE (R59): its fields read out of the register, the sticky flags it accumulates (R60, R66), and the
elementwise floating-point computations of R111-R120 over register values.
-/

namespace Sys2Proof.Machine

/-- Bits [lo + n - 1 : lo] of a 32-bit register as a number. -/
def wbits (w : Word) (lo n : Nat) : Nat := bits w.toNat lo n
/-- Bit n of a 32-bit register. -/
def wbit (w : Word) (n : Nat) : Bool := w.getLsbD n

/-- R59: the dynamic rounding mode. -/
def fpRnd (m : Word) : Nat := wbits m 0 3
/-- R59: flush subnormal results. -/
def fpFtz (m : Word) : Bool := wbit m 3
/-- R59: read subnormal operands as zero. -/
def fpDaz (m : Word) : Bool := wbit m 4
/-- R59: the trap enables, in the order of the flags. -/
def fpEnables (m : Word) : Exc := BitVec.ofNat 5 (wbits m 5 5)
/-- R59: the sticky flags. -/
def fpFlags (m : Word) : Exc := BitVec.ofNat 5 (wbits m 16 5)
/-- R59: canonical NaN output. -/
def fpNanc (m : Word) : Bool := wbit m 21
/-- R59: approximation quality. -/
def fpAq (m : Word) : Nat := wbits m 22 3
/-- R66 step 2: the sticky flags of the exceptions raised are set; every other bit is kept. -/
def fpRaise (m : Word) (x : Exc) : Word := m ||| (x.setWidth 32 <<< 16)
/-- R59: the bits FPMODE holds; reserved bits are discarded (R60). -/
def fpMask : Word := 0x01FF03FF
/-- R60: an RND of 1 to 5. -/
def fpRndOk (m : Word) : Bool := 1 ≤ fpRnd m && fpRnd m ≤ 5

/-- R61, R43: the rounding mode of an instruction; RND 0 reads FPMODE. -/
def rndOf (m : Word) (rnd : Nat) : Nat := if rnd == 0 then fpRnd m else rnd

/-- The delivery settings of an instruction under FPMODE. -/
def dlvOf (m : Word) (rnd : Nat) (sat : Bool) : Dlv :=
  { mode := rndOf m rnd, sat := sat, ftz := fpFtz m, nanc := fpNanc m }

/-- R109: element h of a register under T: the whole of it for F32. -/
def elemOf (t h : Nat) (r : Word) : Nat := if t == 0 then r.toNat else bits r.toNat (16 * h) 16

/-- R109: the element results put together under T. -/
def joinElems (t : Nat) (y0 y1 : Nat) : Word := BitVec.ofNat 32 (if t == 0 then y0 else y0 + y1 * 2 ^ 16)

/-- The sources of a floating-point instruction in one lane, as patterns of one element: A, B, C after R112's order. -/
structure FSrc where
  a : Nat
  b : Nat
  c : Nat

/-- R112: one element's sources, DAZ first, then ABS, then NEG. -/
def fsrc (m : Word) (t h : Nat) (x : XW) (a b c : Word) : FSrc :=
  let k := vfmt t
  { a := k.source (fpDaz m) x.absa x.nega (elemOf t h a)
    b := k.source (fpDaz m) x.absb x.negb (elemOf t h b)
    c := k.source (fpDaz m) false x.negc (elemOf t h c) }

/-- R112: an elementwise operation over a lane's three sources: the register value and the exceptions of its
elements. -/
def elementwise (t : Nat) (f : Nat → Nat × Exc) : Word × Exc :=
  let (y0, e0) := f 0
  if t == 0 then (joinElems t y0 0, e0)
  else let (y1, e1) := f 1; (joinElems t y0 y1, e0 ||| e1)

/-- R112: the shape shared by the arithmetic instructions; `n` is the number of sources read, which R58 orders. -/
def arith (m : Word) (f : V3) (n : Nat) (op : Nat → FV → FV → FV → OpRes) (a b c : Word) : Word × Exc :=
  let k := vfmt f.t
  let d := dlvOf m f.x.rnd f.x.sat
  elementwise f.t fun h =>
    let s := fsrc m f.t h f.x a b c
    k.finish d ([s.a, s.b, s.c].take n) (op d.mode (k.read s.a) (k.read s.b) (k.read s.c))

/-- R113: FADD. -/
def opAdd (mode : Nat) (a b _c : FV) : OpRes := fAdd mode a b
/-- R113: FSUB, as a + (−b). -/
def opSub (mode : Nat) (a b _c : FV) : OpRes := fAdd mode a b.neg
/-- R113: FMUL. -/
def opMul (_ : Nat) (a b _c : FV) : OpRes := fMul a b
/-- R113: FFMA. -/
def opFma (mode : Nat) (a b c : FV) : OpRes := fFma mode a b c
/-- R113: FDIV. -/
def opDiv (_ : Nat) (a b _c : FV) : OpRes := fDiv a b
/-- R113: FRCP. -/
def opRcp (_ : Nat) (a _b _c : FV) : OpRes := fRcp a
/-- R113: FRSQ. -/
def opRsq (_ : Nat) (a _b _c : FV) : OpRes := fRsq a
/-- R113: FSQRT. -/
def opSqrt (_ : Nat) (a _b _c : FV) : OpRes := fSqrt a

/-- R115: the functions, always rounded to nearest-even. Underflow arises only when `under` says so, for FEXP2: a tiny
result of FSIN raises inexact alone (log entry 62). -/
def func (m : Word) (f : V3) (under : Bool) (op : FV → OpRes) (a : Word) : Word × Exc :=
  let k := vfmt f.t
  let d : Dlv := { dlvOf m 1 f.x.sat with mode := 1 }
  elementwise f.t fun h =>
    let s := fsrc m f.t h f.x a 0 0
    let (y, e) := k.finish d [s.a] (op (k.read s.a))
    (y, if under then e else e &&& ~~~Exc.unf)

/-- R114: FMIN, FMAX, FMINP, FMAXP. -/
def minmax (m : Word) (f : V3) (isMax prop : Bool) (a b : Word) : Word × Exc :=
  let k := vfmt f.t
  elementwise f.t fun h =>
    let s := fsrc m f.t h f.x a b 0
    k.finish (dlvOf m 0 false) [s.a, s.b] (k.minMax isMax prop s.a s.b)

/-- R116: FRINT. -/
def rint (m : Word) (f : V3) (a : Word) : Word × Exc :=
  let k := vfmt f.t
  let d := dlvOf m f.x.rnd false
  elementwise f.t fun h =>
    let s := fsrc m f.t h f.x a 0 0
    let (y, e) := k.finish d [s.a] (fRint d.mode (k.read s.a))
    (y, e ||| Exc.when (fRintInexact d.mode (k.read s.a)) .inx)

/-- R116: FFRAC; a rounding to 1.0 gives the largest value below 1.0, with inexact. -/
def frac (m : Word) (f : V3) (a : Word) : Word × Exc :=
  let k := vfmt f.t
  let d := dlvOf m f.x.rnd false
  elementwise f.t fun h =>
    let s := fsrc m f.t h f.x a 0 0
    let (y, e) := k.finish d [s.a] (fFrac (k.read s.a))
    if y == k.bias * 2 ^ k.fb then (y - 1, e ||| .inx) else (y, e)

/-- R117: FDOT2 over two-element vectors and the old F32 destination, rounded once. DESIGN CHOICE (log entry 65): the
first NaN of R58 is taken in the order a0, a1, b0, b1, addend. -/
def dot2 (m : Word) (f : V3) (a b d0 : Word) : Word × Exc :=
  let k := vfmt f.t
  let d := dlvOf m f.x.rnd f.x.sat
  let s0 := fsrc m f.t 0 f.x a b 0
  let s1 := fsrc m f.t 1 f.x a b 0
  let c := FFmt.f32.source (fpDaz m) false f.x.negc d0.toNat
  let vals := [k.read s0.a, k.read s0.b, k.read s1.a, k.read s1.b, FFmt.f32.read c]
  let sn := Exc.when (k.snan s0.a || k.snan s0.b || k.snan s1.a || k.snan s1.b || FFmt.f32.snan c) .inv
  let p0 := fMul (k.read s0.a) (k.read s0.b)
  let p1 := fMul (k.read s1.a) (k.read s1.b)
  let zeroInf := (match p0 with | .nan i => i | _ => false) || (match p1 with | .nan i => i | _ => false)
  let infs := [p0, p1].filterMap (fun p => match p with | .inf s _ => some s | _ => none)
    ++ (match FFmt.f32.read c with | .inf s => [s] | _ => [])
  let both := infs.contains true && infs.contains false
  -- R58: the first NaN operand in the order A, B, the addend, widened to F32
  let widen := fun (r : Nat) => (FFmt.signBit .f32 (k.sign r)) + 0x7F800000
    + (r % 2 ^ k.fb) * 2 ^ (23 - k.fb)
  let nans := ([s0.a, s1.a, s0.b, s1.b].filter k.isNan).map widen ++ (if FFmt.f32.isNan c then [c] else [])
  let (y, e) : Nat × Exc :=
    if vals.any FV.isNan || zeroInf || both then
      (FFmt.f32.nanOf d.nanc nans, Exc.when (zeroInf || both) .inv)
    else match infs with
      | s :: _ => (FFmt.f32.infBits s, 0)
      | [] =>
        let num := fun (p : OpRes) => match p with
          | .num x => (x.neg, signed x.neg x.m, x.e)
          | _ => (false, 0, 0)
        let (n0, v0) := num p0
        let (n1, v1) := num p1
        let (n2, v2) := match FFmt.f32.read c with
          | .fin s mm ee => (s, signed s mm, ee)
          | _ => (false, (0 : Int), (0 : Int))
        let allZero := v0.1 == 0 && v1.1 == 0 && v2.1 == 0
        let z := if allZero && n0 == n1 && n1 == n2 then n0 else zeroNeg d.mode
        FFmt.f32.deliver d.mode d.sat d.ftz (exOf z (dyAdd (dyAdd v0 v1) v2))
  (BitVec.ofNat 32 y, e ||| sn)

/-- R118: FCLASS. -/
def fclassOp (m : Word) (f : V3) (a : Word) : Word :=
  let k := vfmt f.t
  (elementwise f.t fun h => (k.classOf (fsrc m f.t h f.x a 0 0).a, 0)).1

/-- R119: FSCALE; B is a signed integer of the element. -/
def scale (m : Word) (f : V3) (a b : Word) : Word × Exc :=
  let k := vfmt f.t
  let d := dlvOf m f.x.rnd f.x.sat
  elementwise f.t fun h =>
    let s := fsrc m f.t h f.x a 0 0
    let n : Int := if f.t == 0 then b.toInt else (BitVec.ofNat 16 (elemOf f.t h b)).toInt
    k.finish d [s.a] (fScale n (k.read s.a))

/-- R120: FCMP: the condition over both elements, and the exceptions of both. -/
def fcmpOp (m : Word) (f : V3) (a b : Word) : Bool × Exc :=
  let k := vfmt f.t
  let c := f.d / 8
  let one := fun (h : Nat) =>
    let s := fsrc m f.t h f.x a b 0
    let nan := k.isNan s.a || k.isNan s.b
    let quiet := k.snan s.a || k.snan s.b
    (fcond c (k.read s.a) (k.read s.b),
     Exc.when (quiet || (nan && (c == 2 || c == 3 || c == 4 || c == 5))) .inv)
  let (p0, e0) := one 0
  if f.t == 0 then (p0, e0) else let (p1, e1) := one 1; (p0 && p1, e0 ||| e1)

/-- R138: one step of FADD, FMIN or FMAX over F32 values, FTZ applied at each step. -/
def redStep (m : Word) (rnd op : Nat) (a b : Nat) : Nat × Exc :=
  let k := FFmt.f32
  let d := dlvOf m rnd false
  if op == 8 then k.finish d [a, b] (fAdd d.mode (k.read a) (k.read b))
  else k.finish d [a, b] (k.minMax (op == 10) false a b)

/-- R53, R57: the range of an integer format code as its least and greatest value. -/
def intRange : Nat → Int × Int
  | 7 => (-128, 127)
  | 8 => (0, 255)
  | 9 => (-32768, 32767)
  | 0xA => (0, 65535)
  | 0xB => (-2147483648, 2147483647)
  | _ => (0, 4294967295)

/-- R53: whether a format code is an integer format. -/
def isIntFmt (c : Nat) : Bool := 7 ≤ c && c ≤ 0xC

/-- R57: an integer element's value. -/
def intValue (c raw : Nat) : Int :=
  if (c == 7 || c == 9 || c == 0xB) && raw / 2 ^ (fmtWidth c - 1) % 2 == 1 then (raw : Int) - 2 ^ fmtWidth c else raw

/-- A value as the two's-complement bits of a width. -/
def intBits (w : Nat) (v : Int) : Nat := (v % (2 ^ w : Int)).toNat

/-- R61, R63: an exact value rounded to an integer format. -/
def deliverInt (c mode : Nat) (x : Ex) : Nat × Exc :=
  let (n, inx) := roundAt mode x 0
  let v := signed x.neg n
  let (lo, hi) := intRange c
  if v < lo then (intBits (fmtWidth c) lo, .inv)
  else if v > hi then (intBits (fmtWidth c) hi, .inv)
  else (intBits (fmtWidth c) v, Exc.when inx .inx)

/-- R63: an exact value rounded to E8M0. DESIGN CHOICE (log entry 64): the format has no fraction, so the tie of RNE and
the bit that ROD sets are those of the encoded byte; and a result counts as below 2^−127 after rounding. -/
def deliverE8 (mode : Nat) (sat : Bool) (x : Ex) : Nat × Exc :=
  if x.m = 0 then (0, .inv)
  else if x.neg then (0xFF, .inv)
  else
    let top : Int := x.e + Nat.log2 x.m
    -- among powers of two the neighbours are 2^top and 2^(top+1)
    let exact := x.m = 2 ^ Nat.log2 x.m && !x.sticky
    let half := decide (2 * x.m > 3 * 2 ^ Nat.log2 x.m) || (2 * x.m == 3 * 2 ^ Nat.log2 x.m && x.sticky)
    let tie := 2 * x.m == 3 * 2 ^ Nat.log2 x.m && !x.sticky
    let up := !exact && (match mode with
      | 1 => half || (tie && (top + 127) % 2 != 0)
      | 3 => true
      | 5 => half || tie
      | 6 => (top + 127) % 2 == 0
      | _ => false)
    let r : Int := if up then top + 1 else top
    if r > 127 then
      ((if mode == 2 || mode == 4 || mode == 6 then 0xFE else if sat then 0xFE else 0xFF), .ovf ||| .inx)
    else if r < -127 then (0, .unf ||| .inx)
    else ((r + 127).toNat, Exc.when (!exact) .inx)

/-- R58: a NaN of one float format converted to another. -/
def convertNan (src dst : FFmt) (nanc : Bool) (raw : Nat) : Nat :=
  match dst.top with
  | .oneNaN => if nanc then dst.canon else dst.signBit (src.sign raw) + dst.canon
  | .noNaN => 0
  | .ieee =>
    if nanc then dst.canon
    else
      let f := raw % 2 ^ src.fb
      let f' := if dst.fb ≤ src.fb then f / 2 ^ (src.fb - dst.fb) else f * 2 ^ (dst.fb - src.fb)
      dst.quiet (dst.signBit (src.sign raw) + (2 ^ dst.eb - 1) * 2 ^ dst.fb + f' % 2 ^ (dst.fb - 1)
        + (if f' / 2 ^ (dst.fb - 1) % 2 == 1 then 2 ^ (dst.fb - 1) else 0))

/-- What CVT reads: a NaN, an infinity, or an exact number (R55-R57). -/
inductive CvtSrc where
  | nan (snan : Bool) (neg : Bool) (raw : Nat)
  | inf (neg : Bool)
  | num (x : Ex)
  deriving DecidableEq, Repr

/-- R130: the source element of CVT, DAZ applied. -/
def cvtRead (daz : Bool) (src raw : Nat) : CvtSrc :=
  if isIntFmt src then .num (exOf false (intValue src raw, 0))
  else if src == 6 then (if raw == 255 then .nan false false raw else .num { neg := false, m := 1, e := (raw : Int) - 127 })
  else match ffmtOf src with
    | none => .num { neg := false, m := 0, e := 0 }
    | some k =>
      let r := k.source daz false false raw
      match k.read r with
      | .nan _ => .nan (k.snan r) (k.sign r) r
      | .inf s => .inf s
      | .fin s m e => .num { neg := s, m := m, e := e }

/-- R130, R58, R61-R64: CVT's delivery of a source to a destination format. -/
def cvtDeliver (mode : Nat) (sat ftz nanc : Bool) (src dst : Nat) : CvtSrc → Nat × Exc
  | .nan sn _neg raw =>
    if isIntFmt dst then (0, .inv)
    else if dst == 5 then (0, .inv)
    else if dst == 6 then (0xFF, Exc.when sn .inv)
    else match ffmtOf dst with
      | none => (0, 0)
      | some kd => match ffmtOf src with
        | some ks => (convertNan ks kd nanc raw, Exc.when sn .inv)
        -- an E8M0 NaN has neither sign nor payload
        | none => (kd.canon, 0)
  | .inf neg =>
    if isIntFmt dst then
      (intBits (fmtWidth dst) (if neg then (intRange dst).1 else (intRange dst).2), .inv)
    else if dst == 6 then (if neg then (0xFF, .inv) else (if sat then 0xFE else 0xFF, .ovf ||| .inx))
    else match ffmtOf dst with
      | none => (0, 0)
      | some kd =>
        if kd.top == .ieee then (kd.infBits neg, 0)
        else (kd.overflow 1 sat neg, .ovf ||| .inx)
  | .num x =>
    if isIntFmt dst then deliverInt dst mode x
    else if dst == 6 then deliverE8 mode sat x
    else match ffmtOf dst with
      | none => (0, 0)
      | some kd => kd.deliver mode sat (ftz && kd.flushes) x

/-- R130: CVT over one lane: the control word, the source register and the old destination. -/
def cvtOp (m : Word) (ctl : Nat) (a d0 : Word) : Word × Exc :=
  let src := bits ctl 0 4
  let dst := bits ctl 4 4
  let sat := flag ctl 11
  let raw := bits a.toNat (bits ctl 12 3 * fmtWidth src) (fmtWidth src)
  let (y, e) : Nat × Exc :=
    if isIntFmt src && isIntFmt dst then
      let v := intValue src raw
      let (lo, hi) := intRange dst
      (intBits (fmtWidth dst) (if sat then max lo (min hi v) else v), 0)
    else
      cvtDeliver (rndOf m (bits ctl 8 3)) sat (fpFtz m) (fpNanc m) src dst (cvtRead (fpDaz m) src raw)
  let lo := bits ctl 15 3 * fmtWidth dst
  let base := if flag ctl 18 then d0.toNat else 0
  (BitVec.ofNat 32 (base - bits base lo (fmtWidth dst) * 2 ^ lo + y * 2 ^ lo), e)

end Sys2Proof.Machine
end

