-- ==== Sys2Proof/Machine/Alu.lean ====
section
/-!
DEFINITION. The per-lane computations of the integer, conversion and permutation instructions (R71, R121-R131, R140,
R141): functions of register values, without state.
-/

namespace Sys2Proof.Machine

/-- The integer a word stands for under T: 0 unsigned, otherwise signed. -/
def ival (t : Nat) (w : Word) : Int := if t == 0 then w.toNat else w.toInt

/-- R121: an exact result modulo 2^32, or clamped to the range T names when SAT. -/
def isat (t : Nat) (sat : Bool) (v : Int) : Word :=
  if !sat then BitVec.ofInt 32 v
  else if t == 0 then BitVec.ofInt 32 (max 0 (min 4294967295 v))
  else BitVec.ofInt 32 (max (-2147483648) (min 2147483647 v))

/-- R122: IADD. -/
def iaddOp (t : Nat) (sat : Bool) (a b : Word) : Word := isat t sat (ival t a + ival t b)
/-- R122: ISUB. -/
def isubOp (t : Nat) (sat : Bool) (a b : Word) : Word := isat t sat (ival t a - ival t b)
/-- R122: IMUL. -/
def imulOp (t : Nat) (sat : Bool) (a b : Word) : Word := isat t sat (ival t a * ival t b)
/-- R122: IMULH: bits [63:32] of the exact product. -/
def imulhOp (t : Nat) (a b : Word) : Word := BitVec.ofInt 32 (ival t a * ival t b / 4294967296)
/-- R122: IMAD. -/
def imadOp (t : Nat) (sat : Bool) (a b c : Word) : Word := isat t sat (ival t a * ival t b + ival t c)
/-- R122: IMIN. -/
def iminOp (t : Nat) (a b : Word) : Word := if ival t a ≤ ival t b then a else b
/-- R122: IMAX. -/
def imaxOp (t : Nat) (a b : Word) : Word := if ival t a ≤ ival t b then b else a

/-- R123: IDIV: the quotient rounded towards zero; by zero 0xFFFF_FFFF. -/
def idivOp (t : Nat) (a b : Word) : Word :=
  if b == 0 then 0xFFFFFFFF else BitVec.ofInt 32 (Int.tdiv (ival t a) (ival t b))
/-- R123: IREM: a − b × quotient; by zero a. -/
def iremOp (t : Nat) (a b : Word) : Word :=
  if b == 0 then a else BitVec.ofInt 32 (Int.tmod (ival t a) (ival t b))

/-- R122: the second operand of AND, OR and XOR, complemented when T = 1. -/
def notIf (t : Nat) (b : Word) : Word := if t == 1 then ~~~b else b
/-- R122: AND. -/
def andOp (t : Nat) (a b : Word) : Word := a &&& notIf t b
/-- R122: OR. -/
def orOp (t : Nat) (a b : Word) : Word := a ||| notIf t b
/-- R122: XOR. -/
def xorOp (t : Nat) (a b : Word) : Word := a ^^^ notIf t b
/-- R122: SHL; 0 when b ≥ 32. -/
def shlOp (a b : Word) : Word := if b.toNat ≥ 32 then 0 else a <<< b.toNat
/-- R122: SHR, logical (T = 0) or arithmetic; b ≥ 32 gives 0 or copies of a[31]. -/
def shrOp (t : Nat) (a b : Word) : Word :=
  let n := min b.toNat 32
  if t == 0 then a >>> n else a.sshiftRight n
/-- R122: ROT, left (T = 0) or right, by b mod 32. -/
def rotOp (t : Nat) (a b : Word) : Word :=
  if t == 0 then a.rotateLeft (b.toNat % 32) else a.rotateRight (b.toNat % 32)

/-- R124: the offset of a bit field. -/
def bfOff (b : Word) : Nat := min (wbits b 0 8) 32
/-- R124: the width of a bit field. -/
def bfWid (b : Word) : Nat := min (wbits b 8 8) (32 - bfOff b)
/-- R124: BFE, zero-extended (T = 0) or sign-extended from its top bit. -/
def bfeOp (t : Nat) (a b : Word) : Word :=
  let v := wbits a (bfOff b) (bfWid b)
  if t == 1 && bfWid b != 0 && v / 2 ^ (bfWid b - 1) % 2 == 1 then BitVec.ofInt 32 ((v : Int) - 2 ^ bfWid b)
  else BitVec.ofNat 32 v
/-- R124: BFI: bits of the old destination replaced by the low bits of a. -/
def bfiOp (a b d0 : Word) : Word :=
  let mask : Word := BitVec.ofNat 32 ((2 ^ bfWid b - 1) * 2 ^ bfOff b)
  (d0 &&& ~~~mask) ||| ((a <<< bfOff b) &&& mask)

/-- R122: POPC. -/
def popcOp (a : Word) : Word := BitVec.ofNat 32 ((List.range 32).filter (a.getLsbD ·)).length
/-- R122: CLZ. -/
def clzOp (a : Word) : Word := BitVec.ofNat 32 (if a == 0 then 32 else 31 - Nat.log2 a.toNat)
/-- R122: BREV. -/
def brevOp (a : Word) : Word := a.reverse

/-- R125: a condition code over two values of one width. -/
def icond {n : Nat} (c : Nat) (a b : BitVec n) : Bool := match c with
  | 0 => a == b
  | 1 => a != b
  | 2 => a.slt b
  | 3 => a.sle b
  | 4 => b.slt a
  | 5 => b.sle a
  | 6 => a.ult b
  | 7 => a.ule b
  | 8 => b.ult a
  | 9 => b.ule a
  | 10 => (a &&& b) != 0
  | 11 => (a &&& b) == 0
  | 12 => false
  | _ => true

/-- R126: IADD64. -/
def iadd64Op (t : Nat) (a b : DWord) : DWord := if t == 1 then a - b else a + b
/-- R126: IMADW. -/
def imadwOp (t : Nat) (a b : Word) (d0 : DWord) : DWord := BitVec.ofInt 64 (ival t a * ival t b) + d0
/-- R126: the scale that T selects in LEA. -/
def leaScale (t : Nat) : Nat := match t with
  | 0 => 1
  | 1 => 4
  | 2 => 8
  | _ => 16
/-- R126: LEA. -/
def leaOp (t : Nat) (a : DWord) (b : Word) : DWord := a + b.setWidth 64 * BitVec.ofNat 64 (leaScale t)

/-- R71: IHASH. -/
def ihashOp (a b : Word) : Word :=
  let x := a ^^^ (b * 0x243F6A89#32)
  let x := x ^^^ (x >>> 16)
  let x := x * 0x85A308D3#32
  let x := x ^^^ (x >>> 13)
  let x := x * 0x13198A2F#32
  x ^^^ (x >>> 16)

/-- R128: the 32-bit value of a signed 10-bit immediate. -/
def imm10 (v : Nat) : Word := (BitVec.ofNat 10 v).signExtend 32
/-- R128: LOGI. -/
def logiOp (md : Nat) (a b : Word) : Word := match md with
  | 0 => a &&& b
  | 1 => a ||| b
  | 2 => a ^^^ b
  | _ => a &&& ~~~b

/-- R131: PACK. -/
def packOp (t : Nat) (a b : Word) : Word :=
  let lo := if t == 1 || t == 3 then a >>> 16 else a &&& 0xFFFF
  let hi := if t == 1 || t == 2 then b >>> 16 else b &&& 0xFFFF
  (hi <<< 16) ||| lo

/-- R131: one byte of PRMT's result. -/
def prmtByte (a b c : Word) (i : Nat) : Nat :=
  if wbit c (12 + i) then 0
  else
    let k := wbits c (3 * i) 3
    if k < 4 then wbits a (8 * k) 8 else wbits b (8 * (k - 4)) 8
/-- R131: PRMT. -/
def prmtOp (a b c : Word) : Word :=
  BitVec.ofNat 32 (prmtByte a b c 0 + prmtByte a b c 1 * 2 ^ 8 + prmtByte a b c 2 * 2 ^ 16 + prmtByte a b c 3 * 2 ^ 24)

/-- R138: one step of an integer reduction. -/
def redInt (op : Nat) (a b : Word) : Word := match op with
  | 0 => a + b
  | 1 => if a.ule b then a else b
  | 2 => if a.sle b then a else b
  | 3 => if a.ule b then b else a
  | 4 => if a.sle b then b else a
  | 5 => a &&& b
  | 6 => a ||| b
  | _ => a ^^^ b

/-- R138: the identity of a reduction. -/
def redIdentity (op : Nat) : Word := match op with
  | 0 => 0
  | 1 => 0xFFFFFFFF
  | 2 => 0x7FFFFFFF
  | 3 => 0
  | 4 => 0x80000000
  | 5 => 0xFFFFFFFF
  | 6 => 0
  | 7 => 0
  | 8 => 0x80000000
  | 9 => 0x7F800000
  | _ => 0xFF800000

/-- R140: SALU. -/
def saluOp (op : Nat) (a b : Word) : Word := match op with
  | 0 => a + b
  | 1 => a - b
  | 2 => a &&& b
  | 3 => a ||| b
  | 4 => a ^^^ b
  | 5 => shlOp a b
  | 6 => shrOp 0 a b
  | 7 => a * b
  | 8 => if a.ule b then a else b
  | 9 => if a.ule b then b else a
  | 10 => if a.sle b then a else b
  | 11 => if a.sle b then b else a
  | _ => shrOp 1 a b

/-- R226: the order-preserving key of a depth. -/
def depthKey (d : Word) : Word := if wbit d 31 then ~~~d else d ^^^ 0x80000000

end Sys2Proof.Machine
end

