-- ==== Sys2Proof/Machine/State.lean ====
section
/-!
DEFINITION. The state of the machine as plain data. Each structure is one of the units the spec describes; the fields
of `State` are listed with their rules in INVENTORY.md. Which agent moves next, and which outside event arrives, is
held in `agenda`.
-/

namespace Sys2Proof.Machine

/-- No step of this model stops with a fault: every trap, refusal of a request and queue fault of the spec is a next
state. -/
inductive Fault where
  deriving DecidableEq, Repr

/-- Why the model gives no step. -/
inductive Refusal where
  /-- Raised by the dispatch of an instruction that has no meaning yet. Safe: the run stops. -/
  | notModelled (mnemonic : String)
  deriving DecidableEq, Repr

/-- The trap causes of R96. -/
inductive Cause where
  | illegalOp | rsvdField | illegalClause | regRange | priv
  | fpInvalid | fpDivzero | fpOverflow | fpUnderflow | fpInexact | intDivzero
  | memAlign | memXlate | memPerm | memEcc | memPoison
  | feBudget | fePage | feParkfull
  | maskSelf | maskRange | slot | barrier
  | specExt | version | stackSpill | break_ | user
  | watchdog | killed
  deriving DecidableEq, Repr

/-- A leaf entry of the page tables (R170): where a page lies and what it permits. `bits` is the page's size as a
power of two. -/
structure Leaf where
  pa : Nat
  bits : Nat
  r : Bool
  w : Bool
  x : Bool
  cache : Nat
  rm : Bool
  fe : Bool
  ver : Bool
  key : Nat
  node : Nat
  deriving DecidableEq, Repr

/-- One result of a counted operation that has not landed yet (R38): a vector register (kind 1), a scalar register
(kind 2) or a predicate (kind 3) of a lane; `slot` numbers the registers of one lane's group. -/
structure Land where
  kind : Nat
  lane : Nat
  reg : Nat
  slot : Nat
  val : Word
  deriving DecidableEq, Repr

/-- An access of an engine's instruction that issue has checked (R297): its address, bytes and page. -/
structure Span where
  va : Nat
  n : Nat
  leaf : Leaf
  /-- The pieces read ahead of the rest (R27), by their offsets. -/
  got : SMap Nat := []
  deriving DecidableEq, Repr

/-- A counted operation that has not left its counter (R36): the instruction, its operands as read at issue (R202),
the lanes performed, and the results performed and not landed. `pages` holds the pages its issue translated, `spans` the
accesses of each lane of an engine's instruction; `aux` a descriptor as read at issue; `homes` the numbers of its stores
that a home has not yet acknowledged. -/
structure Op where
  ctr : Nat
  i : Instr
  pc : DWord
  word : Nat
  lanes : Lanes
  perf : Lanes := 0
  done : Lanes := 0
  src : SMap (List Nat)
  aux : List Nat := []
  /-- ACTIVE at issue, for which a scalar result counts (R86). -/
  act : Lanes := 0
  pages : List (Nat × Leaf) := []
  spans : SMap (List Span) := []
  res : List Land := []
  homes : List Nat := []
  version : Nat
  /-- The operation's number among all operations issued. -/
  num : Nat := 0
  deriving DecidableEq, Repr

/-- Who made an access, as a late trap of it needs (R204) and a report of it (R176). `cver` is the VERSION of the
cohort. -/
structure Origin where
  wave : Nat
  core : Nat
  slot : Nat
  part : Nat
  cohort : Nat
  ctx : Nat
  cver : Nat
  lane : Nat
  pc : DWord
  word : Nat
  dst : Nat
  va : Nat
  deriving DecidableEq, Repr

/-- A late trap held by a wave (R204). -/
structure LateTrap where
  cause : Cause
  mask : Lanes
  pc : DWord
  word : Nat
  dst : Nat
  addr : DWord
  /-- The address of each lane concerned, where they differ from `addr`. -/
  addrs : SMap Nat := []
  deriving DecidableEq, Repr

/-- A full/empty wait or value wait of a lane (R215, R216): its park slot and, when `placed`, its record. `level` is 1
park table, 2 waiter table, 3 cloakroom; `woken` once a wake event has freed the record. -/
structure Park where
  lane : Nat
  i : Instr
  pc : DWord
  word : Nat
  va : Nat
  scratch : Bool
  kind : Nat
  data : Nat
  dst : Nat
  budget : Nat
  version : Nat
  level : Nat
  woken : Bool
  pa : Nat
  /-- The physical address of its cloakroom record (R217), plus one; 0 when it has none. -/
  cloak : Nat := 0
  /-- R216: the number of its group's record. -/
  recd : Nat := 0
  /-- Whether its page is cached (R180), so that the word's line can be held. -/
  cached : Bool := true
  /-- R206: the number of its instruction while its first attempt waits for earlier accesses of the wave; else 0. -/
  first : Nat := 0
  deriving DecidableEq, Repr

/-- A clause in progress: its header's address and word, the words fetched with it (R145), the index of the next word
to issue, ISSUE and ACTIVE of R84. -/
structure Clause where
  hdr : DWord
  head : Nat
  words : List Nat
  idx : Nat
  /-- The index of the word being executed. -/
  at_ : Nat
  issue : Lanes
  active : Lanes
  /-- R145: the words still to run are fetched again before the next of them issues (after TRET). -/
  refetch : Bool := false
  deriving DecidableEq, Repr

/-- Where handler lanes go on after the handler (R97, R99): nowhere yet, the rest of a clause, the next clause header,
each lane its own PC (a late trap), or the end of the lanes (a header trap). -/
inductive Resume where
  | none
  | clause (c : Clause)
  | next (pc : DWord)
  | perLane
  | ends
  deriving DecidableEq, Repr

/-- What a held wave waits for (R83). -/
inductive Hold where
  | none
  /-- The instruction is executed again at each later turn of the wave until it completes. -/
  | again (i : Instr)
  /-- BARS: the barrier and the token it arrived with (R157). -/
  | barrier (b : Nat) (token : Word)
  /-- A translation fault awaits its resolution (R173); the token of its record, and the address. On RESUME the
  instruction is executed again, or the fetch made again when there is none. -/
  | fault (again : Option Instr) (token : Nat) (va : Nat)
  /-- CWAIT (R241): the cell of its barrier, the group of slots and their mask, its destination, and its result once a test
  at an engine step has ended the wait. -/
  | cwait (cell t : Nat) (mask : Lanes) (dst : Nat) (res : Option Word)
  /-- SLEEP: until the reference count reaches a value (R154). -/
  | sleep (until_ : Nat)
  /-- YIELD: the waves yet to issue, and the clocks of its cluster, in thousandths, after which it ends in any case
  (R153). -/
  | yield (waves : List Nat) (left : Nat)
  deriving DecidableEq, Repr

/-- An open or sealed copy batch (R244). -/
structure Batch where
  state : Nat := 0
  incomplete : Nat := 0
  err : Nat := 0
  deriving DecidableEq, Repr

/-- A wave context (R73). Registers are finite maps with default 0: vector register r of lane l at key 128 × l + r,
predicate p as the set of lanes where it is true. -/
structure Wave where
  on : Bool := false
  /-- The wave's number among all waves ever placed; the agenda names waves by it. -/
  id : Nat := 0
  ctx : Nat := 0
  /-- R146: every lane has exited and the contexts are released; operations of WST and WCP still complete. -/
  ended : Bool := false
  core : Nat := 0
  part : Nat := 0
  slot : Nat := 0
  cohort : Nat := 0
  rank : Nat := 0
  index : Nat := 0
  width : Nat := 8
  nregs : Nat := 8
  v : SMap Word := []
  p : SMap Lanes := []
  s : SMap Word := []
  m : SMap Lanes := []
  pc : SMap DWord := []
  fpmode : Word := 1
  waitBudget : Word := 0
  version : Nat := 0
  clockHi : Word := 0
  trapCause : Word := 0
  trapMask : Lanes := 0
  trapPc : DWord := 0
  trapIns : Word := 0
  trapDst : Word := 0
  trapAddr : DWord := 0
  exited : Lanes := 0
  parked : Lanes := 0
  /-- R91: the mask register, plus one, on which a lane is parked at WAITM. -/
  waitOn : SMap Nat := []
  /-- R149: the mask register, plus one, on which a lane parks at the end of the clause. -/
  parkAtEnd : SMap Nat := []
  /-- R149: the same, kept while a handler runs. -/
  parkHeld : SMap Nat := []
  /-- R86: LOOPPC, plus one; 0 before the lane's first backward branch. -/
  loopPc : SMap Nat := []
  changed : Lanes := 0
  stored : Lanes := 0
  spin : SMap Nat := []
  demoted : Lanes := 0
  prev : Lanes := 0
  fast : Bool := false
  clause : Option Clause := none
  handler : Bool := false
  handlerLanes : Lanes := 0
  tret : Lanes := 0
  entered : Nat := 0
  resume : Resume := .none
  resumePc : SMap DWord := []
  late : List LateTrap := []
  hold : Hold := .none
  /-- R173: the address whose translation fault was refused; the held instruction takes MEM_XLATE for it. -/
  refused : Option Nat := none
  parks : List Park := []
  batches : SMap Batch := []
  fetched : SMap Nat := []
  squash : Bool := false
  ops : List Op := []
  /-- R176: the VERSION of its cohort. -/
  cver : Nat := 0
  /-- R104: its cohort has been discarded; only its issued writes remain. -/
  husk : Bool := false
  /-- R79: the slot in which its last word issued, counted over the module; its launch counts as an issue. -/
  last : Nat := 0
  /-- R80: the slot in which its packed group took the header of its clause; 0 outside a group. -/
  pack : Nat := 0
  /-- R80: the slot, already taken in its partition, in which it is still to issue: beside its packed group, or its first
  word after a header; 0 when none. -/
  owed : Nat := 0
  deriving DecidableEq, Repr

/-- A named barrier (R155). -/
structure Barrier where
  count : Bool
  expected : Nat
  arrived : Nat
  gen : Word
  deriving DecidableEq, Repr

/-- A kernel header as the command processor read it (R46), its offsets made addresses; RESTART and MSTREAM are 0 when
the offset is, and TRAPH is absent. -/
structure Kernel where
  addr : Nat
  entry : DWord
  regs : Nat
  width : Nat
  restartMode : Bool
  matrix : Bool
  teamSize : Nat
  teams : Nat
  scratch : Nat
  column : Nat
  restart : DWord
  traph : Option DWord
  mstream : Nat
  mlen : Nat
  params : Nat
  fpmode0 : Word
  waitBudget0 : Word
  deriving DecidableEq, Repr

/-- The waves that a pool's front end formed: FORMED at formation, and one (PC, payload) for each lane (R401). -/
structure Formed where
  number : Nat
  recs : List (Nat × List Nat)
  deriving DecidableEq, Repr

/-- A cohort resident on a cluster, or waiting for relaunch (R14-R18, R103-R105). `tags` are the owner tags of its
teams' allocations, `waves` the number of its waves that have not ended, `gone` the ranks of its teams that have ended. -/
structure Cohort where
  id : Nat
  ctx : Nat
  launch : Nat
  group : Nat
  cluster : Nat
  cores : List Nat
  tags : List Nat
  label : DWord
  restarts : Word
  version : Nat
  bars : List Barrier
  formed : Option Formed
  order : Nat
  waves : Nat
  gone : List Nat := []
  deriving DecidableEq, Repr

/-- A dispatch packet (R380) with the queue it came from and the stack of that queue. -/
structure Packet where
  ctx : Nat
  q : Nat
  stack : Nat
  cls : Nat
  bytes : List Nat
  deriving DecidableEq, Repr

/-- A cohort that waits for relaunch (R102, R105). -/
structure Waiting where
  group : Nat
  label : DWord
  restarts : Word
  version : Nat
  formed : Option Formed
  deriving DecidableEq, Repr

/-- A grid or pool that has been launched and is not complete (R93-R95, R381, R399-R402). -/
structure Launch where
  id : Nat
  ctx : Nat
  packet : Packet
  kernel : Kernel
  params : DWord
  version : Nat
  pool : Bool
  gridX : Nat
  gridY : Nat
  gridZ : Nat
  count : Nat
  nextGroup : Nat
  completed : Nat
  waiting : List Waiting
  drained : Bool
  status : Nat
  cause : Nat
  poolA : Nat
  bins : List (Nat × List (Nat × List Nat))
  formedQueue : List Formed
  flush : Bool
  /-- The physical address of the FLUSH word, plus one (R402). -/
  flushPa : Nat
  order : Nat
  /-- The cohorts of the launch that have ended. -/
  members : List Nat := []
  deriving DecidableEq, Repr

/-- A version tag (R355, R356). State 0 FREE, 1 LIVE, 2 SQUASHED, 3 COMMITTED; `into` is the tag it merged into;
`expired` that the expiry of the deadline it holds has been performed (R374). -/
structure Tag where
  state : Nat := 0
  parent : Nat := 0
  depth : Nat := 0
  reason : Nat := 0
  dset : Bool := false
  dmiss : Bool := false
  deadline : Nat := 0
  into : Nat := 0
  expired : Bool := false
  deriving DecidableEq, Repr

/-- A binding of a range to a word (R194). -/
structure Binding where
  base : Nat
  len : Nat
  word : Nat
  deriving DecidableEq, Repr

/-- A started context: the fields of its record (R375) and what the machine keeps for it. An `id` of 4,096 or more is
that of a context that has ended while commands issued in it still complete (R26, R376). -/
structure Context where
  id : Nat
  ptroot : Nat
  classMax : Nat
  pwr : Bool
  pinQuota : Nat
  cloakPa : Nat
  egressPa : Nat
  vspillPa : Nat
  vlogPa : Nat
  cloakLog2 : Nat
  egressLog2 : Nat
  vspillLog2 : Nat
  vlogLog2 : Nat
  fabric : Nat
  tags : SMap Tag
  bindings : List Binding
  append : Nat
  take : Nat
  /-- R374: the record of the ring that last reached STATE 3, if any. -/
  lastSent : List Nat := []
  deriving DecidableEq, Repr

/-- An entry of a version's log (R363): the operation, its address and data, the thread that made it, and the records
it draws. An entry that waits for replay keeps the tag of the version that was committed. -/
structure LogEntry where
  ctx : Nat
  tag : Nat
  i : Instr
  va : Nat
  data : List Nat
  core : Nat
  wave : Nat
  part : Nat
  recs : Nat
  late : Bool
  /-- The wave that made it, and the number of the entry among all operations issued. -/
  wid : Nat := 0
  num : Nat := 0
  deriving DecidableEq, Repr

/-- A speculative sector (R358-R360): the 128 bytes and 32 full/empty bits that a version holds. -/
structure Sector where
  ctx : Nat
  tag : Nat
  num : Nat
  data : BitVec 1024
  fe : BitVec 32
  spilled : Bool
  deriving DecidableEq, Repr

/-- A line of an L1 (R178), with the version tag it carries; tag 0 lines carry context 0. -/
structure L1Line where
  core : Nat
  num : Nat
  /-- The virtual address of the access that filled it, in units of 128 bytes. -/
  vnum : Nat := 0
  ctx : Nat
  tag : Nat
  data : BitVec 1024
  deriving DecidableEq, Repr

/-- A reduction merged into an update-only line of an L1 and not yet at its home (R198), or several of one location
combined there; `orgs` are their lanes. -/
structure Update where
  core : Nat
  va : Nat
  pa : Nat
  cached : Bool
  ctx : Nat
  tag : Nat
  ver : Bool
  i : Instr
  data : Nat
  orgs : List Origin
  deriving DecidableEq, Repr

/-- A store or FESET that a core has accepted and its home has not performed (R178, R180, R189). `n` bytes of `data`,
or the full/empty bit when `feset`; `buf` is the combining buffer, plus one, that holds it; `op` numbers the instruction
it belongs to. `atom` marks the write-through of an atomic executed in the L1, `raced` that an atomic at the home has
met its location since (R197). -/
structure Pending where
  id : Nat
  core : Nat
  ctx : Nat
  tag : Nat
  va : Nat
  pa : Nat
  n : Nat
  data : Nat
  feset : Bool
  ver : Bool
  rm : Bool
  uncached : Bool
  buf : Nat
  op : Nat
  org : Origin
  atom : Bool := false
  raced : Bool := false
  deriving DecidableEq, Repr

/-- An entry of a unit's TLB, or of a cluster's shared one (R12, R177); `core` numbers the unit. -/
structure TlbEntry where
  core : Nat
  ctx : Nat
  vpn : Nat
  leaf : Leaf
  deriving DecidableEq, Repr

/-- A line of a core's instruction cache (R230). -/
structure ILine where
  core : Nat
  num : Nat
  ctx : Nat
  tag : Nat
  data : BitVec 1024
  deriving DecidableEq, Repr

/-- A line of the stacked cache (R179, R182, R183): its number and way, its dirty sectors, the contexts that hold it
pinned, and the order of its last write and use. -/
structure CacheLine where
  num : Nat
  way : Nat
  dirty : BitVec 8
  pins : List Nat
  wrote : Nat
  used : Nat
  /-- R186: held while a waiters bit of the line is set. -/
  held : Bool := false
  deriving DecidableEq, Repr

/-- A fault record waiting for a slot of its stack's ring, or pending a resolution (R173-R175). -/
structure FaultRec where
  stack : Nat
  bytes : List Nat
  token : Nat
  ctx : Nat
  replay : Bool
  written : Bool
  deriving DecidableEq, Repr

/-- A command of a copy or layout engine, a PUT, or a copy packet (R236, R250, R259, R382), with its tags of R26. `kind`
is 0 COPY, 1 LAYOUT, 2 PUT, 3 copy packet, 4 a PUT replayed from a log. `record` holds the bytes of its records, `nums`
the operands read at issue, `data` the data a PUT carries; `todo` the chunks not complete yet. -/
structure Cmd where
  id : Nat
  kind : Nat
  core : Nat
  wave : Nat
  batch : Nat
  cohort : Nat
  ctx : Nat
  tag : Nat
  owner : Nat
  bar : Nat
  record : List Nat := []
  nums : List Nat := []
  data : List Nat := []
  /-- The owner tags of its cohort's teams, its team's rank and declared scratch and column sizes (R26). -/
  tags : List Nat := []
  rank : Nat := 0
  scratch : Nat := 0
  column : Nat := 0
  /-- The issuing wave's slot and partition, for fault records (R174), and its leader lane. -/
  slot : Nat := 0
  part : Nat := 0
  lane : Nat := 0
  accepted : Bool := false
  started : Bool := false
  /-- R239: its first chunk slot. -/
  base : Nat := 0
  todo : List Nat := []
  packet : Option Packet := none
  deriving DecidableEq, Repr

/-- The states of a queue (R379). -/
inductive QState where
  | idle | ready | waiting | suspended | faulted
  deriving DecidableEq, Repr

/-- The run of a queue program (R385): the next word, the instructions used, and the loop in progress (start, end,
iterations left). -/
structure Run where
  pc : Nat
  used : Nat
  loop : Option (Nat × Nat × Nat)
  deriving DecidableEq, Repr

/-- A window of a queue (R377). -/
structure Window where
  base : Nat
  len2 : Nat
  wr : Bool
  deriving DecidableEq, Repr

/-- A queue (R377-R379, R443). -/
structure Queue where
  on : Bool := false
  ctx : Nat := 0
  num : Nat := 0
  desc : Nat := 0
  ring : Nat := 0
  ringLog2 : Nat := 2
  cls : Nat := 0
  weight : Nat := 1
  stackSet : Nat := 1
  home : Nat := 0
  wdog : Nat := 1
  prog : List Nat := []
  windows : List Window := []
  c : SMap DWord := []
  ridx : Nat := 0
  state : QState := .idle
  buf : List Nat := []
  run : Option Run := none
  notified : Bool := false
  /-- R378: WIDX as the command processor last read it. -/
  widx : Nat := 0
  /-- The physical address of the WIDX word, plus one, as last translated (R378). -/
  widxPa : Nat := 0
  deriving DecidableEq, Repr

/-- A completion that the completion engine has not executed yet (R380): `version` is the tag it is logged under while
that is LIVE (R398), `cohorts` the grid's cohorts, whose accesses come before it (R196), `stage` 1 once its status word
has been written. -/
structure Completion where
  packet : Packet
  status : Nat
  cause : Nat
  version : Nat
  stage : Nat
  cohorts : List Nat := []
  deriving DecidableEq, Repr

/-- An armed slot (R394); `due` once its counter has reached zero while the ready list was full (R395). -/
structure ArmedSlot where
  stack : Nat
  slot : Nat
  packet : Packet
  due : Bool := false
  deriving DecidableEq, Repr

/-- A watchdog that runs (R403): the queue, the launch being drained, and the count at which it expires. -/
structure Watch where
  ctx : Nat
  q : Nat
  launch : Nat
  until_ : Nat
  deriving DecidableEq, Repr

/-- A step of an agent that no row of the opcode table names. -/
inductive Background where
  /-- The reference count advances (R76). -/
  | tick (n : Nat)
  /-- A home performs a pending store. -/
  | storeHome (id : Nat)
  /-- An L1 line is replaced (R178). -/
  | l1Evict (core num ctx tag : Nat)
  /-- Two pending reductions change places (R198). -/
  | updateSwap (idx : Nat)
  /-- A pending reduction is combined with the next one (R198). -/
  | updateMerge (idx : Nat)
  /-- The result of an atomic executed in an L1 loses a race with one at the home (R197). -/
  | storeLost (id : Nat)
  /-- The owner's scrub request clears the poison of a sector (R185). -/
  | scrub (num : Nat)
  /-- A pending reduction reaches its home (R198). -/
  | updateFlush (idx : Nat)
  /-- A TLB entry is replaced. -/
  | tlbEvict (core ctx vpn : Nat)
  /-- An instruction-cache line is replaced. -/
  | icacheEvict (core num ctx tag : Nat)
  /-- The focused wave drops a word it holds fetched (R230). -/
  | fetchDrop (va : Nat)
  /-- The focused wave fetches a word ahead (R230). -/
  | fetchAhead (va : Nat)
  /-- A lane of an engine's operation of the focused wave reads one piece of an access ahead of the rest (R27). -/
  | readPiece (ctr k lane va off : Nat)
  /-- A stacked-cache line is replaced (R179). -/
  | lineEvict (num : Nat)
  /-- A speculative sector is replaced and spilled (R360). -/
  | spill (ctx tag num : Nat)
  /-- The owner names the masters that may send INPUT (R425). -/
  | nameMasters (masters : List Nat)
  /-- The root firmware loads a key (R170). -/
  | loadKey (key : Nat)
  deriving DecidableEq, Repr

/-- One turn of the agenda. `wid` names the wave that is brought into focus first. -/
inductive Turn where
  | issue (wid : Option Nat)
  | stream (cohort : Nat)
  | queue (ctx q : Nat)
  | event (wid : Option Nat) (i : Instr)
  | background (wid : Option Nat) (b : Background)
  deriving DecidableEq, Repr

/-- What the machine sends to the outside, in order (R423-R425, R440). -/
structure Sent where
  kind : Nat
  dest : Nat
  data : List Nat
  deriving DecidableEq, Repr

/-- A stream context of a cluster's matrix sequencer (R267), held by one cohort. State 0 IDLE, 1 RUNNING, 2 DONE.
`forker` is the id of the forking wave, `forkLanes` the lanes ACTIVE at MFORK (R290). -/
structure Stream where
  on : Bool := false
  cohort : Nat := 0
  state : Nat := 0
  status : Nat := 2
  x : SMap DWord := []
  loops : List (Nat × Nat) := []
  idx : Nat := 0
  aq : Nat := 0
  version : Nat := 0
  leader : Nat := 0
  forker : Nat := 0
  forkLanes : Lanes := 0
  /-- R273: the core, wave slot and partition of its forking wave. -/
  forkCore : Nat := 0
  forkSlot : Nat := 0
  forkPart : Nat := 0
  /-- The number of this stream among all streams forked. -/
  run : Nat := 0
  /-- The slots (kind 0) and accumulators (kind 1) held, as engine, kind and number. -/
  claims : List (Nat × Nat × Nat) := []
  fetched : SMap Nat := []
  /-- R273: the token of a fetch fault that awaits its resolution; the stream is parked. -/
  parked : Option Nat := none
  /-- R287: how many MBARWs the stream has passed. -/
  waits : Nat := 0
  deriving DecidableEq, Repr

/-- A stream word sent to a matrix engine (R269), with the sequencer registers it read when it was sent (R277). `done`
counts the 16-byte pieces of an MSTORE already written (R292). -/
structure EngineWord where
  core : Nat
  cohort : Nat
  i : Instr
  xa : Nat
  xs : Nat
  pc : Nat
  word : Nat
  done : Nat
  /-- R283: the token of a translation fault that awaits its resolution. -/
  parked : Option Nat := none
  /-- R269, R292: the word is part-way: some of its rows may have been sent. -/
  started : Bool := false
  /-- R292: the word's cohort was discarded while it was part-way: its rows can only be dropped. -/
  lost : Bool := false
  /-- R287: how many MBARWs its stream had passed when it was sent. -/
  waits : Nat := 0
  /-- The context, VERSION and AQ of its stream, and the stream's number. -/
  ctx : Nat := 0
  tag : Nat := 0
  aq : Nat := 0
  run : Nat := 0
  deriving DecidableEq, Repr

/-- A raster slot that is owned (R316): its core and number, the owner tag of its team, the fixed-point vertices (X0, Y0,
X1, Y1, X2, Y2), the depths as F32 patterns and the tile (TX, TY, TW, TH, SPP, TB). -/
structure RasterSlot where
  core : Nat
  num : Nat
  owner : Nat
  xy : List Int
  z : List Nat
  tile : List Nat
  deriving DecidableEq, Repr

/-- A cluster's voltage island (R414-R419, R436-R438). State 0 ON, 1 CLOSING, 2 GATED, 3 OPENING. `base` is the level
in force but for `cut`, the levels lowered by the power cap; `want` the level requested; `gate` a gate recorded while
OPENING (1 plain, 2 forced), and while CLOSING 1 when its end posts an event; `drained` that condition 1 of R417 has held; `since` the count at which OPENING began. -/
structure Island where
  state : Nat := 0
  base : Nat := 0
  cut : Nat := 0
  want : Nat := 0
  approx : Bool := false
  wantApprox : Bool := false
  gate : Nat := 0
  drained : Bool := false
  since : Nat := 0
  deriving DecidableEq, Repr

/-- An entry of a vertical FIFO (R406); `ready` once VPOP can take it (R411). -/
structure FifoEntry where
  ctx : Nat
  data : List Word
  ready : Bool
  deriving DecidableEq, Repr

/-- A vertical FIFO (R406), its oldest entry first. -/
structure Fifo where
  entries : List FifoEntry := []
  down : Bool := false
  deriving DecidableEq, Repr

/-- A claim of a roll call (R429). -/
structure Claim where
  master : Nat
  rank : Nat
  nonce : Nat
  deriving DecidableEq, Repr

/-- A reply given to a request (R424). -/
structure Reply where
  master : Nat
  seq : Nat
  port : Nat
  data : List Nat
  deriving DecidableEq, Repr

/-- A staged transfer of an image or of a configuration record (R433): the pieces received are (offset, length). -/
structure Staging where
  master : Nat
  total : Nat
  data : List Host.Cell := []
  got : List (Nat × Nat) := []
  deriving DecidableEq, Repr

/-- The fields of the configuration record (R435). -/
structure ConfigRecord where
  node : Nat := 0
  cver : Nat := 1
  minver : Nat := 0
  peers : List Nat := []
  approxOk : Nat := 0
  trip : Nat := 0
  cap : Nat := 800
  fabadmit : Nat := 0
  cak : List Nat := []
  deriving DecidableEq, Repr

/-- A frame being sent, or one repeated after a deadline (R335, R374). -/
structure Frame where
  id : Nat
  ctx : Nat
  index : Nat
  repeated : Bool
  /-- The node it goes to, and the record and rows it carries. -/
  node : Nat
  data : List Nat
  deriving DecidableEq, Repr

/-- A message held for a route (R422): a PUT (kind 0) or a frame (kind 1) and the count at which it was held. -/
structure Held where
  kind : Nat
  id : Nat
  since : Nat
  deriving DecidableEq, Repr

/-- The module's platform (R406-R443). FIFOs stand at 2 × pair + direction (0 UP, 1 DN), where pair is 16 × stack + the
lower core's position; sensors are numbered by the log's entry on sensors; `deadDies` holds 7 × stack + die. -/
structure Platform where
  config : ConfigRecord := {}
  nextConfig : Option ConfigRecord := none
  islands : SMap Island := []
  fifos : SMap Fifo := []
  vfdiag : SMap Nat := []
  trips : SMap Nat := []
  deadDies : List Nat := []
  cap : Nat := 800
  capping : Bool := false
  owner : Option Nat := none
  lastRequest : Nat := 0
  successor : Option (Nat × Nat) := none
  roll : Option Nat := none
  claims : List Claim := []
  replies : List Reply := []
  inputMasters : List Nat := []
  hostPorts : SMap Nat := []
  fibresDown : List Nat := []
  sync : Bool := false
  /-- The 802.1AS time less the reference count (R427). -/
  timeOffset : Int := 0
  /-- R432: verification has failed at boot, and the boot ROM waits for IMAGE and CONFIG. -/
  waiting : Bool := false
  /-- R434: the boots before this one, and the image that runs. -/
  boots : Nat := 0
  running : List Host.Cell := []
  image : Option Staging := none
  imageSlot : List Host.Cell := []
  record : Option Staging := none
  recordSlot : List Host.Cell := []
  frames : List Frame := []
  held : List Held := []
  deriving DecidableEq, Repr

/-- The whole machine. INVENTORY.md names the rule behind each field; `w` is the wave whose turn it is, `waves` the
other wave contexts that are occupied, `q` the queue whose run the interpreter turn executes, `queues` the others,
`st` the stream context whose turn it is, `streams` the others. -/
structure State where
  w : Wave := {}
  waves : List Wave := []
  cohorts : List Cohort := []
  launches : List Launch := []
  contexts : List Context := []
  q : Queue := {}
  queues : List Queue := []
  ready : List Packet := []
  armed : List ArmedSlot := []
  gens : SMap Nat := []
  rr : SMap Nat := []
  completions : List Completion := []
  watches : List Watch := []
  logs : List LogEntry := []
  replay : List LogEntry := []
  sectors : List Sector := []
  mem : List Host.Cell := []
  poison : List Nat := []
  scratch : List Host.Cell := []
  scratchFe : List (Nat × Bool) := []
  /-- R216: the 128-byte blocks of scratch cells whose waiters bit is set. -/
  scratchWait : List Nat := []
  l1 : List L1Line := []
  updates : List Update := []
  pending : List Pending := []
  tlb : List TlbEntry := []
  icache : List ILine := []
  lines : List CacheLine := []
  /-- R360: lines replaced in this turn that hold speculative sectors still to be spilled. -/
  evicted : List Nat := []
  keys : List Nat := []
  faults : List FaultRec := []
  faultBase : SMap Nat := []
  st : Stream := {}
  streams : List Stream := []
  engine : List EngineWord := []
  /-- R264, R265: operand-slot bytes at 2^24 × core + 32768 × slot + offset; tags plus one at 16 × core + slot. -/
  slotMem : List Host.Cell := []
  slotTag : SMap Nat := []
  /-- R264: accumulator elements at 16384 × (8 × core + number) + 128 × row + column. -/
  acc : SMap Word := []
  /-- Copy, layout and PUT commands in flight, in the order they were sent; a layout engine's queue is its cluster's
  accepted layout commands in this order (R250). -/
  cmds : List Cmd := []
  /-- R249: CPDIAG of each core. -/
  cpdiag : SMap Nat := []
  raster : List RasterSlot := []
  /-- R316: GEN of each raster slot, at 32 × core + number. -/
  rasterGen : SMap Nat := []
  eventRing : Option (Nat × Nat) := none
  eventNext : Nat := 0
  overflow : Nat := 0
  /-- R185: sectors that hold an uncorrectable error no access has found yet. -/
  ecc : List Nat := []
  plat : Platform := {}
  out : List Sent := []
  now : Nat := 0
  /-- R79: the issue slots taken. -/
  slots : Nat := 0
  fresh : Nat := 0
  nextId : Nat := 1
  agenda : List Turn := []
  /-- Steps taken with an empty agenda (log entry 1). -/
  rota : Nat := 0
  deriving DecidableEq, Repr

/-- The machine right after module reset (R442): no owner, no started context, nothing resident, every cache invalid,
every full/empty bit clear; the fields whose value the spec does not give are named in the log. -/
def State.reset : State := {}

end Sys2Proof.Machine
end

