-- ==== Sys2Proof/Machine/Cells.lean ====
section
/-!
DEFINITION. The named operations on the finite maps, lane sets and byte memories that the state is built from.
-/

namespace Sys2Proof

/-- The value of a key; `d` when the map does not list it. -/
def SMap.get {α : Type} (d : α) : SMap α → Nat → α
  | [], _ => d
  | (j, v) :: m, k => if j = k then v else SMap.get d m k

/-- The map without a key. -/
def SMap.erase {α : Type} (m : SMap α) (k : Nat) : SMap α := m.filter (fun e => e.1 != k)

/-- An entry placed before the first greater key. -/
def SMap.insert {α : Type} : SMap α → Nat → α → SMap α
  | [], k, v => [(k, v)]
  | (j, u) :: m, k, v => if k < j then (k, v) :: (j, u) :: m else (j, u) :: SMap.insert m k v

/-- The map with a key set; the default is not listed. -/
def SMap.set {α : Type} [DecidableEq α] (d : α) (m : SMap α) (k : Nat) (v : α) : SMap α :=
  if v = d then m.erase k else (m.erase k).insert k v

/-- The canonical form: keys strictly rising, no entry equal to the default. -/
def SMap.wf {α : Type} [DecidableEq α] (d : α) : SMap α → Bool
  | [] => true
  | [e] => e.2 != d
  | e :: f :: m => e.2 != d && e.1 < f.1 && SMap.wf d (f :: m)

/-- Memory as a list of cells in canonical form: addresses strictly rising, no cell that holds 0, which is what an
unlisted address reads as (log entry 2). -/
def Memory.wf (m : List Host.Cell) : Bool := SMap.wf (0 : BitVec 8) m

namespace Machine

/-- The set of one lane. -/
def laneBit (l : Nat) : Lanes := BitVec.twoPow 64 l

/-- The lanes of a set, ascending. -/
def lanesOf (m : Lanes) : List Nat := (List.range 64).filter m.getLsbD

/-- The set of the lanes below 64 that satisfy a test. -/
def laneSet (f : Nat → Bool) : Lanes :=
  (List.range 64).foldl (fun acc l => if f l then acc ||| laneBit l else acc) 0

/-- The lowest lane of a set; 64 for the empty set. -/
def lowest (m : Lanes) : Nat := ((lanesOf m).head?).getD 64

/-- The number of lanes of a set. -/
def laneCount (m : Lanes) : Nat := (lanesOf m).length

/-- The lanes below a width. -/
def widthMask (w : Nat) : Lanes := laneSet (· < w)

/-- One byte of a memory. -/
def readByte (m : List Host.Cell) (a : Nat) : BitVec 8 := SMap.get (0 : BitVec 8) m a

/-- One byte of a memory written; the canonical form is kept. -/
def writeByte (m : List Host.Cell) (a : Nat) (b : BitVec 8) : List Host.Cell := SMap.set (0 : BitVec 8) m a b

/-- `n` bytes from an address as a little-endian number (R3). -/
def readMem (m : List Host.Cell) (a : Nat) : Nat → Nat
  | 0 => 0
  | n + 1 => (readByte m a).toNat + 256 * readMem m (a + 1) n

/-- `n` bytes written little-endian from an address (R3). -/
def writeMem (m : List Host.Cell) (a : Nat) : Nat → Nat → List Host.Cell
  | 0, _ => m
  | n + 1, v => writeMem (writeByte m a (BitVec.ofNat 8 v)) (a + 1) n (v / 256)

/-- A number as `n` bytes, least significant first. -/
def toBytes : Nat → Nat → List Nat
  | 0, _ => []
  | n + 1, v => v % 256 :: toBytes n (v / 256)

/-- Bytes, least significant first, as a number. -/
def ofBytes : List Nat → Nat
  | [] => 0
  | b :: bs => b % 256 + 256 * ofBytes bs

/-- Bytes [off + n - 1 : off] of a byte list, as a number. -/
def field (bs : List Nat) (off n : Nat) : Nat := ofBytes ((bs.drop off).take n)

/-- A number with bytes [off + n - 1 : off] replaced. -/
def patch (v off n x : Nat) : Nat :=
  v - bits v (8 * off) (8 * n) * 2 ^ (8 * off) + x % 2 ^ (8 * n) * 2 ^ (8 * off)

/-- The first element of a list that satisfies a test, changed. -/
def updFirst {α : Type} (p : α → Bool) (f : α → α) : List α → List α
  | [] => []
  | a :: as => if p a then f a :: as else a :: updFirst p f as

end Machine

end Sys2Proof
end

