-- ==== Sys2Proof/Machine/Home.lean ====
section
/-!
DEFINITION. Home memory and what a write performed at a home brings with it: full/empty and waiters bits (R186), the
lines of the stacked cache (R179, R182, R183), poison (R185), wake events (R218), notifications (R378, R402), the event
ring (R440) and the fault queues (R174, R175).
-/

namespace Sys2Proof.Machine

/-- R23: the end of mappable home memory. -/
def homeEnd : Nat := 0x1F00000000
/-- R23: the end of the physical map. -/
def physEnd : Nat := 0x2000000000

/-- R186: the byte that holds a word's full/empty bit, and the bit. -/
def feCell (pa : Nat) : Nat × Nat := (0x1F00000000 + pa / 32, pa / 4 % 8)
/-- R186: the byte that holds a sector's waiters bit, and the bit. -/
def waitCell (pa : Nat) : Nat × Nat := (0x1FF8000000 + pa / 1024, pa / 128 % 8)

/-- A bit of memory. -/
def readBit (m : List Host.Cell) (c : Nat × Nat) : Bool := (readByte m c.1).getLsbD c.2
/-- A bit of memory written. -/
def writeBit (m : List Host.Cell) (c : Nat × Nat) (b : Bool) : List Host.Cell :=
  let old := readByte m c.1
  writeByte m c.1 (if b then old ||| BitVec.twoPow 8 c.2 else old &&& ~~~(BitVec.twoPow 8 c.2))

/-- R186: whether a committed word is full. -/
def feFull (s : State) (pa : Nat) : Bool := readBit s.mem (feCell pa)

/-- R179: the slice of a physical address. -/
def sliceOf (pa : Nat) : Nat :=
  Nat.xor (Nat.xor (Nat.xor (bits pa 10 5) (bits pa 15 5)) (Nat.xor (bits pa 20 5) (bits pa 25 5)))
    (Nat.xor (bits pa 30 5) (bits pa 35 2))
/-- R179: the set of a physical address. -/
def setOf (pa : Nat) : Nat := bits pa 15 15
/-- R179: the cache die of a way of a line: 3 × stack + die. -/
def dieOf (num way : Nat) : Nat := 3 * (sliceOf (1024 * num) / 8) + way / 4

/-- R184: whether a cache die (3 × stack + die) is without power. -/
def dieDead (s : State) (die : Nat) : Bool := s.plat.deadDies.contains (7 * (die / 3) + 4 + die % 3)
/-- R183: whether the throttle trip of a cache die is in force. -/
def dieThrottled (s : State) (die : Nat) : Bool :=
  SMap.get 0 s.plat.trips (128 + 7 * (die / 3) + 4 + die % 3) / 2 % 2 == 1

/-- R186: whether a line is held in the stacked cache for its waiters. -/
def lineHeld (s : State) (num : Nat) : Bool := s.lines.any fun l => l.num == num && l.held

/-- The lines of the set that a line number belongs to. -/
def setLines (s : State) (num : Nat) : List CacheLine :=
  s.lines.filter fun l => sliceOf (1024 * l.num) == sliceOf (1024 * num) && setOf (1024 * l.num) == setOf (1024 * num)

/-- The line of smallest stamp in a list. -/
def oldest (key : CacheLine → Nat) : List CacheLine → Option CacheLine
  | [] => none
  | l :: ls => match oldest key ls with
    | none => some l
    | some m => if key m < key l then some m else some l

/-- R179: a way for a line to be allocated: a free way of a powered die, else that of the least recently used line
that is neither pinned nor held. -/
def wayFor (s : State) (num : Nat) : Option (Nat × List CacheLine) :=
  let own := setLines s num
  let alive := (List.range 12).filter fun w => !dieDead s (dieOf num w)
  match alive.find? (fun w => !own.any (·.way == w)) with
  | some w => some (w, s.lines)
  | none => match oldest CacheLine.used (own.filter fun l => l.pins.isEmpty && !lineHeld s l.num) with
    | some v => some (v.way, s.lines.filter (·.num != v.num))
    | none => none

/-- R183: one more dirty line on a die at its budget first writes back the least recently written one. -/
def dirtyBudget (ls : List CacheLine) (die : Nat) : List CacheLine :=
  let dirty := ls.filter fun l => l.dirty != 0 && dieOf l.num l.way == die
  if dirty.length < 65536 then ls
  else match oldest CacheLine.wrote dirty with
    | some v => updFirst (·.num == v.num) (fun l => { l with dirty := 0 }) ls
    | none => ls

/-- R360: whether a line holds a speculative sector that has not been spilled. -/
def specLine (s : State) (num : Nat) : Bool := s.sectors.any fun x => x.num / 8 == num && !x.spilled

/-- R179, R183, R360: an access of a cached page touches its line at home; `wr` names the sectors it writes. A line that
is replaced gives up its speculative sectors to the spill area when the turn ends. -/
def touchLine (s : State) (num : Nat) (wr : BitVec 8) : State :=
  let stamp := s.fresh
  let old := s.lines
  let ls : List CacheLine :=
    if s.lines.any (·.num == num) then s.lines
    else match wayFor s num with
      | some (w, rest) => { num := num, way := w, dirty := 0, pins := [], wrote := 0, used := stamp } :: rest
      | none => s.lines
  let ls := match ls.find? (·.num == num) with
    | some l =>
      let die := dieOf num l.way
      let mark := if dieThrottled s die then 0 else wr
      let ls := if mark != 0 && l.dirty == 0 then dirtyBudget ls die else ls
      updFirst (·.num == num)
        (fun l => { l with used := stamp, dirty := l.dirty ||| mark, wrote := if wr != 0 then stamp else l.wrote }) ls
    | none => ls
  let out := (old.filter fun l => specLine s l.num && !ls.any (·.num == l.num)).map CacheLine.num
  { s with lines := ls, fresh := s.fresh + 1, evicted := out ++ s.evicted }

/-- R185: the error an access to a sector meets. -/
def memError (s : State) (pa : Nat) : Option Cause :=
  if s.poison.contains (pa / 128) then some .memPoison
  else if s.ecc.contains (pa / 128) then some .memEcc
  else none

/-- A number added to a list that holds it at most once. -/
def addOnce (n : Nat) (l : List Nat) : List Nat := if l.contains n then l else n :: l

/-- R185: the access that finds an uncorrectable error poisons its sector. -/
def findEcc (s : State) (pa : Nat) : State :=
  if s.ecc.contains (pa / 128) then
    { s with ecc := s.ecc.filter (· != pa / 128), poison := addOnce (pa / 128) s.poison }
  else s

/-- A change of every wave context that is occupied. -/
def mapWaves (f : Wave → Wave) (s : State) : State :=
  { s with w := if s.w.on then f s.w else s.w, waves := s.waves.map f }

/-- The occupied wave contexts. -/
def allWaves (s : State) : List Wave := (if s.w.on then [s.w] else []) ++ s.waves

/-- Whether a park record of the fabric names a word of the range. -/
def parkHit (pa n : Nat) (p : Park) : Bool := !p.scratch && pa < p.pa + 4 && p.pa < pa + n

/-- R218: a record named by a write is freed, and its lane attempts again. -/
def wakePark (pa n : Nat) (p : Park) : Park :=
  if parkHit pa n p && p.level != 0 then { p with woken := true, level := 0, cloak := 0 } else p

/-- R217, R104: the cloakroom record of a park slot is freed, or, while other lanes of the record wait, loses its
lane. -/
def freeCloak (left : List Park) (m : List Host.Cell) (p : Park) : List Host.Cell :=
  if p.cloak == 0 then m
  else if left.any (·.cloak == p.cloak) then
    let a := p.cloak - 1 + 16 + p.lane / 8
    writeByte m a (readByte m a &&& ~~~(BitVec.twoPow 8 (p.lane % 8)))
  else writeMem m (p.cloak - 1) 32 0

/-- R218, R104: the cloakroom records of park slots that leave are freed; `left` are the slots that stay. -/
def freeCloaks (left : List Park) (gone : List Park) (m : List Host.Cell) : List Host.Cell :=
  gone.foldl (freeCloak left) m

/-- R186: the waiters bit of a sector set. -/
def setWaiters (pa : Nat) (s : State) : State := { s with mem := writeBit s.mem (waitCell pa) true }

/-- R186, R218: the waiters bit of a sector cleared; its line is held no longer once no bit of it is set. -/
def clearWaiters (pa : Nat) (s : State) : State :=
  let s := { s with mem := writeBit s.mem (waitCell pa) false }
  if (readByte s.mem (waitCell pa).1) != 0 then s
  else { s with lines := updFirst (fun l => l.num == pa / 1024) (fun l => { l with held := false }) s.lines }

/-- R186: the line of a word is held in the stacked cache. -/
def holdLine (pa : Nat) (s : State) : State :=
  let s := touchLine s (pa / 1024) 0
  { s with lines := updFirst (fun l => l.num == pa / 1024) (fun l => { l with held := true }) s.lines }

/-- R218: a wake event on the words of a range frees their records; the waiters bit is cleared when no record of the
sector is left. -/
def wake (pa n : Nat) (s : State) : State :=
  if !readBit s.mem (waitCell pa) then s
  else
    let hit := (allWaves s).flatMap fun w => w.parks.filter (parkHit pa n)
    let s := mapWaves (fun w => { w with parks := w.parks.map (wakePark pa n) })
      { s with mem := freeCloaks [] hit s.mem }
    let left := (allWaves s).any fun w => w.parks.any fun p => !p.scratch && p.level != 0 && p.pa / 128 == pa / 128
    if left then s else clearWaiters pa s

/-- R378, R402: a write to a WIDX word notifies its queue; one to a FLUSH word asks its pool for a flush. -/
def noticeWrite (pa n : Nat) (s : State) : State :=
  let hit := fun (a : Nat) => a != 0 && pa < a - 1 + 4 && a - 1 < pa + n
  let nq := fun (q : Queue) => if hit q.widxPa then { q with notified := true } else q
  { s with q := nq s.q, queues := s.queues.map nq
           launches := s.launches.map fun l => if hit l.flushPa then { l with flush := true } else l }

/-- The sectors of its line that an access of n bytes touches. -/
def sectorMask (pa n : Nat) : BitVec 8 :=
  (List.range 8).foldl
    (fun acc i => if pa % 1024 < 128 * i + 128 && 128 * i < pa % 1024 + n then acc ||| BitVec.twoPow 8 i else acc) 0

/-- A write of committed data performed at its home (R178, R183, R218): the bytes, the line, wake events and
notifications. -/
def homeWrite (cached : Bool) (pa n v : Nat) (s : State) : State :=
  let s := { s with mem := writeMem s.mem pa n v }
  let s := if cached then touchLine s (pa / 1024) (sectorMask pa n) else s
  noticeWrite pa n (wake pa n s)

/-- R214, R186, R218: a full/empty bit of committed data written at its home, inline with its sector. -/
def homeSetFe (cached : Bool) (pa : Nat) (full : Bool) (s : State) : State :=
  let s := { s with mem := writeBit s.mem (feCell pa) full }
  let s := if cached then touchLine s (pa / 1024) (sectorMask pa 4) else s
  noticeWrite pa 4 (wake pa 4 s)

/-- The 32 bytes of an event record (R440). -/
def eventBytes (s : State) (kind ctx version core wave code payload : Nat) : List Nat :=
  toBytes 8 (kind % 256 + ctx % 4096 * 2 ^ 8 + version % 16 * 2 ^ 20 + core % 128 * 2 ^ 24 + wave % 65536 * 2 ^ 32)
    ++ toBytes 4 code ++ toBytes 4 payload ++ toBytes 8 s.now ++ toBytes 8 0

/-- R440: the append index advances and the owner, when there is one, is sent a notice. -/
def noteEvent (kind : Nat) (s : State) : State :=
  { s with eventNext := s.eventNext + 1
           out := s.out ++ (s.plat.owner.map fun m => { kind := 1, dest := m, data := [kind] : Sent }).toList }

/-- R440: append an event record and notify the owner, or drop it and count the overflow. -/
def postEvent (kind ctx version core wave code payload : Nat) (s : State) : State :=
  match s.eventRing with
  | none => { s with overflow := s.overflow + 1 }
  | some (base, k) =>
    let a := base + 32 * (s.eventNext % 2 ^ k)
    if readMem s.mem a 1 != 0 then { s with overflow := s.overflow + 1 }
    else noteEvent kind (homeWrite true a 32 (ofBytes (eventBytes s kind ctx version core wave code payload)) s)

/-- R175: whether a stack's fault queue has a slot free: WPTR − RPTR is not 256. -/
def ringRoom (s : State) (stack : Nat) : Option (Nat × Nat) :=
  match SMap.get 0 s.faultBase stack with
  | 0 => none
  | b + 1 =>
    let wptr := readMem s.mem (b + 0x2000) 4
    let rptr := readMem s.mem (b + 0x2004) 4
    if (wptr + 2 ^ 32 - rptr) % 2 ^ 32 = 256 then none else some (b, wptr)

/-- R175: write the records that wait, oldest first, as far as their rings have room; each posts a FAULT event. -/
def writeFaults : List FaultRec → State → List FaultRec × State
  | [], s => ([], s)
  | r :: rs, s =>
    if r.written then let (rest, s) := writeFaults rs s; (r :: rest, s)
    else match ringRoom s r.stack with
      | none => let (rest, s) := writeFaults rs s; (r :: rest, s)
      | some (b, wptr) =>
        let s := homeWrite true (b + 32 * (wptr % 256)) 32 (ofBytes r.bytes) s
        let s := homeWrite true (b + 0x2000) 4 ((wptr + 1) % 2 ^ 32) s
        let s := postEvent 9 r.ctx (field r.bytes 9 1 / 16) 0 0 r.stack 0 s
        let (rest, s) := writeFaults rs s
        if r.replay then ({ r with written := true } :: rest, s) else (rest, s)

/-- R175: write the fault records that wait for room. -/
def flushFaults (s : State) : State :=
  let (fs, s1) := writeFaults s.faults { s with faults := [] }
  { s1 with faults := fs ++ s1.faults }

/-- The fields of a fault record (R174). -/
structure FaultInfo where
  addr : Nat
  ctx : Nat := 0
  version : Nat := 0
  core : Nat := 0
  wave : Nat := 0
  part : Nat := 0
  kind : Nat
  level : Nat := 0
  reason : Nat := 0
  replay : Bool := false
  cause : Nat := 0
  cause2 : Nat := 0
  report : Nat := 0

/-- The 32 bytes of a fault record (R174). -/
def faultBytes (f : FaultInfo) (token now : Nat) : List Nat :=
  toBytes 8 f.addr
    ++ toBytes 8 (f.ctx % 4096 + f.version % 16 * 2 ^ 12 + f.core % 128 * 2 ^ 16 + f.wave % 32 * 2 ^ 23
        + f.part % 4 * 2 ^ 28 + f.kind % 8 * 2 ^ 32 + f.level % 4 * 2 ^ 35 + f.reason % 4 * 2 ^ 37
        + (if f.replay then 2 ^ 39 else 0) + f.cause % 256 * 2 ^ 40 + f.cause2 % 256 * 2 ^ 48
        + f.report % 16 * 2 ^ 56)
    ++ toBytes 8 now ++ toBytes 8 token

/-- R175: the next token that no pending record of a stack has. -/
def newToken (s : State) (stack : Nat) : Nat :=
  let used := (s.faults.filter fun r => r.stack == stack && r.replay).map FaultRec.token
  (((List.range (used.length + 1)).map fun k => (s.nextId + k) % 2 ^ 32).find? fun t => !used.contains t).getD 0

/-- R175: a record for a stack's fault queue, written at once when there is room; a replayable record takes a new
token. -/
def postFault (stack : Nat) (f : FaultInfo) (s : State) : State :=
  let token := if f.replay then newToken s stack else 0
  let r : FaultRec := { stack := stack, bytes := faultBytes f token s.now, token := token, ctx := f.ctx,
                        replay := f.replay, written := false }
  flushFaults { s with faults := s.faults ++ [r], nextId := s.nextId + 1 }

end Sys2Proof.Machine
end

