-- ==== Sys2Proof/Machine/Fifo.lean ====
section
/-!
DEFINITION. Vertical FIFOs (R406, R411, R412) and the state of the voltage islands (R13, R414, R415, R436-R439).
-/

namespace Sys2Proof.Machine

/-- R11: whether a core lies on the lower die of its stack. -/
def lowerCore (core : Nat) : Bool := core % 32 < 16
/-- R11: the pair of a core. -/
def pairOf (core : Nat) : Nat := 16 * (core / 32) + core % 16
/-- R406: the FIFO that a core pushes into: UP from the lower core, DN from the upper one. -/
def outbound (core : Nat) : Nat := 2 * pairOf core + (if lowerCore core then 0 else 1)
/-- R406: the FIFO that a core pops from. -/
def inbound (core : Nat) : Nat := 2 * pairOf core + (if lowerCore core then 1 else 0)
/-- The two clusters of a pair: of the lower core and of the upper core. -/
def pairClusters (pair : Nat) : Nat × Nat := (8 * (pair / 16) + pair % 16 / 4, 8 * (pair / 16) + pair % 16 / 4 + 4)

/-- A FIFO. -/
def State.fifo (s : State) (k : Nat) : Fifo := SMap.get {} s.plat.fifos k
/-- A change of a FIFO. -/
def updFifo (k : Nat) (f : Fifo → Fifo) (s : State) : State :=
  { s with plat := { s.plat with fifos := SMap.set {} s.plat.fifos k (f (s.fifo k)) } }

/-- R412: entries dropped from the FIFOs of a pair, holding at 0xFFFF. -/
def countDrops (pair n : Nat) (s : State) : State :=
  { s with plat := { s.plat with vfdiag := SMap.set 0 s.plat.vfdiag pair (min 0xFFFF (SMap.get 0 s.plat.vfdiag pair + n)) } }

/-- R412: the entries of a FIFO that satisfy a test are dropped and counted. -/
def dropEntries (p : FifoEntry → Bool) (k : Nat) (s : State) : State :=
  let n := ((s.fifo k).entries.filter p).length
  if n == 0 then s
  else countDrops (k / 2) n (updFifo k (fun f => { f with entries := f.entries.filter fun e => !p e }) s)

/-- An operation on each FIFO of a list. -/
def forFifos (f : Nat → State → State) : List Nat → State → State
  | [], s => s
  | k :: ks, s => forFifos f ks (f k s)

/-- The cores of a cluster (R10). -/
def coresOf (cluster : Nat) : List Nat := (List.range 4).map (4 * cluster + ·)

/-- R412: the entries of a context that ends are dropped. -/
def dropContextEntries (ctx : Nat) (s : State) : State := forFifos (dropEntries (·.ctx == ctx)) (List.range 128) s

/-- An island. -/
def State.island (s : State) (cluster : Nat) : Island := SMap.get {} s.plat.islands cluster
/-- A change of an island. -/
def updIsland (cluster : Nat) (f : Island → Island) (s : State) : State :=
  { s with plat := { s.plat with islands := SMap.set {} s.plat.islands cluster (f (s.island cluster)) } }

/-- The stack of a sensor (log entry on sensors: 0-127 the cores, 128 + 7 × stack + die the dies). -/
def sensorStack (n : Nat) : Nat := if n < 128 then n / 32 else (n - 128) / 7
/-- The die of a sensor, counted from the bottom (R413). -/
def sensorDie (n : Nat) : Nat := if n < 128 then (if lowerCore n then 1 else 2) else (n - 128) % 7

/-- R439: whether a throttle trip is in force on a stack; `trips` holds 1 advise, 2 throttle, 4 shut-down. -/
def throttled (s : State) (stack : Nat) : Bool :=
  s.plat.trips.any fun e => sensorStack e.1 == stack && e.2 / 2 % 2 == 1

/-- R415, R438: the level in force on an island. -/
def islandLevel (i : Island) : Nat := if i.approx then 0 else min 5 (i.base + i.cut)
/-- R13, R415: the clock in force on an island, in MHz. -/
def islandMhz (s : State) (cluster : Nat) : Nat :=
  let f := 1000 - 100 * islandLevel (s.island cluster)
  if throttled s (cluster / 8) then f / 2 else f

/-- R417: an island that is CLOSING with no cohort resident drops what its inbound FIFOs hold. -/
def drainIsland (cluster : Nat) (s : State) : State :=
  let i := s.island cluster
  if i.state == 1 && !i.drained && !s.cohorts.any (·.cluster == cluster) then
    updIsland cluster (fun i => { i with drained := true })
      (forFifos (dropEntries fun _ => true) ((coresOf cluster).map inbound) s)
  else s

/-- R417: whether an entry pushed into a FIFO is dropped as it arrives: the popping core's island is closing and
drained. -/
def pushDropped (s : State) (k : Nat) : Bool :=
  let (lo, hi) := pairClusters (k / 2)
  let i := s.island (if k % 2 == 0 then hi else lo)
  i.state == 1 && i.drained

end Sys2Proof.Machine
end

