-- ==== Sys2Proof/Machine/Ops.lean ====
section
/-!
DEFINITION. The named operations over a wave and its cohort: registers and the change tracking of R86, mask
registers and WAITM (R89-R92), exit (R146), taking a trap (R97) and returning from one (R99), the end of a wave, a
cohort and a launch, and the discard of a cohort (R104).
-/

namespace Sys2Proof.Machine

/-- What an instruction answers. -/
abbrev Out := Host.Outcome State Fault Refusal

/-! ## Register files (R9, R40, R73) -/

/-- A vector register of a lane. -/
def Wave.vreg (w : Wave) (l r : Nat) : Word := SMap.get 0 w.v (128 * l + r)
/-- A vector pair of a lane, low half in the even register (R73). -/
def Wave.vpair (w : Wave) (l r : Nat) : DWord := w.vreg l (r + 1) ++ w.vreg l r
/-- A scalar register. -/
def Wave.sreg (w : Wave) (r : Nat) : Word := SMap.get 0 w.s r
/-- A scalar pair (R73). -/
def Wave.spair (w : Wave) (r : Nat) : DWord := w.sreg (r + 1) ++ w.sreg r
/-- The lanes of the wave. -/
def Wave.all (w : Wave) : Lanes := widthMask w.width
/-- The lanes in which a predicate is true; p7 reads true in every lane (R73). -/
def Wave.preds (w : Wave) (p : Nat) : Lanes := if p == 7 then w.all else SMap.get 0 w.p p
/-- A predicate of a lane. -/
def Wave.pred (w : Wave) (p l : Nat) : Bool := (w.preds p).getLsbD l
/-- A mask register. -/
def Wave.mreg (w : Wave) (m : Nat) : Lanes := SMap.get 0 w.m m
/-- The PC of a lane. -/
def Wave.pcOf (w : Wave) (l : Nat) : DWord := SMap.get 0 w.pc l
/-- The lanes that have not exited (R83). -/
def Wave.live (w : Wave) : Lanes := w.all &&& ~~~w.exited
/-- The ready lanes (R83). -/
def Wave.ready (w : Wave) : Lanes := w.live &&& ~~~w.parked
/-- ACTIVE of the clause in progress (R84). -/
def Wave.active (w : Wave) : Lanes := match w.clause with
  | some c => c.active
  | none => 0

/-- R86: a write marks CHANGED in the lanes it counts for when it writes a different value. -/
def Wave.mark (w : Wave) (lanes : Lanes) (differs : Bool) : Wave :=
  { w with changed := if differs then w.changed ||| lanes else w.changed }

/-- A vector register of a lane written. -/
def Wave.setV (w : Wave) (l r : Nat) (x : Word) : Wave :=
  { w.mark (laneBit l) (w.vreg l r != x) with v := SMap.set 0 w.v (128 * l + r) x }

/-- A predicate of a lane written; p7 discards the write (R73). -/
def Wave.setP (w : Wave) (p l : Nat) (b : Bool) : Wave :=
  let old := SMap.get 0 w.p p
  let new := if b then old ||| laneBit l else old &&& ~~~laneBit l
  { w.mark (laneBit l) (p != 7 && old != new) with p := if p == 7 then w.p else SMap.set 0 w.p p new }

/-- A scalar register written; the write counts for every ACTIVE lane (R86). -/
def Wave.setS (w : Wave) (r : Nat) (x : Word) : Wave :=
  { w.mark w.active (w.sreg r != x) with s := SMap.set 0 w.s r x }

/-- A scalar pair written. -/
def Wave.setSPair (w : Wave) (r : Nat) (x : DWord) : Wave :=
  (w.setS r (x.setWidth 32)).setS (r + 1) ((x >>> 32).setWidth 32)

/-- A function of a lane written to a vector register of every lane of a list. -/
def Wave.putV (r : Nat) (f : Nat → Word) : List Nat → Wave → Wave
  | [], w => w
  | l :: ls, w => Wave.putV r f ls (w.setV l r (f l))

/-- A pair of registers written in every lane of a list. -/
def Wave.putVPair (r : Nat) (f : Nat → DWord) (ls : List Nat) (w : Wave) : Wave :=
  Wave.putV (r + 1) (fun l => (f l >>> 32).setWidth 32) ls (Wave.putV r (fun l => (f l).setWidth 32) ls w)

/-- A predicate written in every lane of a list. -/
def Wave.putP (p : Nat) (f : Nat → Bool) : List Nat → Wave → Wave
  | [], w => w
  | l :: ls, w => Wave.putP p f ls (w.setP p l (f l))

/-- The PC of every lane of a list set. -/
def Wave.putPc (f : Nat → DWord) : List Nat → Wave → Wave
  | [], w => w
  | l :: ls, w => Wave.putPc f ls { w with pc := SMap.set 0 w.pc l (f l) }

/-! ## Clauses -/

/-- R142: NEXT, the address of the next clause header. -/
def Clause.next (c : Clause) : DWord := c.hdr + BitVec.ofNat 64 (4 * (c.words.length + 1))
/-- The address of the word being executed. -/
def Clause.pcAt (c : Clause) : DWord := c.hdr + BitVec.ofNat 64 (4 * (c.at_ + 1))
/-- The word being executed. -/
def Clause.wordAt (c : Clause) : Nat := c.words.getD c.at_ 0

/-- The address of the word being executed by the wave. -/
def Wave.wordPc (w : Wave) : DWord := match w.clause with
  | some c => c.pcAt
  | none => w.pcOf (lowest w.ready)
/-- The word being executed by the wave. -/
def Wave.word (w : Wave) : Nat := match w.clause with
  | some c => c.wordAt
  | none => 0
/-- The clause header of the wave (HDR of R142). -/
def Wave.hdr (w : Wave) : DWord := match w.clause with
  | some c => c.hdr
  | none => 0

/-- R97: the resume point after the word being executed: the rest of the clause, or the next clause header. -/
def Wave.resumePoint (w : Wave) : Resume := match w.clause with
  | some c => if c.idx < c.words.length then .clause c else .next c.next
  | none => .none

/-! ## Spin detector (R86, R87) -/

/-- Demoted lanes restored. -/
def Wave.restore (w : Wave) (lanes : Lanes) : Wave :=
  if w.demoted &&& lanes == 0 then w else { w with demoted := w.demoted &&& ~~~lanes, fast := false }

/-- R87: lanes store or park at WAITM; a lane that is not demoted restores the whole wave. -/
def Wave.restoreBy (w : Wave) (lanes : Lanes) : Wave :=
  if lanes &&& ~~~w.demoted == 0 then w.restore lanes else w.restore w.all

/-- R86, R87: an operation of the lanes sets STORED. -/
def Wave.markStored (w : Wave) (lanes : Lanes) : Wave :=
  ({ w with stored := w.stored ||| lanes }).restoreBy lanes

/-- R86, R87: a lane takes a backward branch at an address. -/
def Wave.backBranch (w : Wave) (b : DWord) (l : Nat) : Wave :=
  let bit := laneBit l
  let moved := w.changed.getLsbD l || w.stored.getLsbD l
  let w := if moved then w.restore bit else w
  let count := if SMap.get 0 w.loopPc l == b.toNat + 1 && !moved then SMap.get 0 w.spin l + 1 else 0
  let w := { w with loopPc := SMap.set 0 w.loopPc l (b.toNat + 1), changed := w.changed &&& ~~~bit,
                    stored := w.stored &&& ~~~bit }
  if count == 4 then { w with demoted := w.demoted ||| bit, spin := SMap.set 0 w.spin l 0, fast := false }
  else { w with spin := SMap.set 0 w.spin l count }

/-! ## Mask registers (R89-R92) -/

/-- The lanes parked at a WAITM on register m. -/
def Wave.parkedOn (w : Wave) (m : Nat) : Lanes := laneSet fun l => SMap.get 0 w.waitOn l == m + 1

/-- R91: register m is evaluated. -/
def Wave.evalMask (w : Wave) (m : Nat) : Wave :=
  let on := w.parkedOn m
  if on == 0 || w.mreg m &&& w.live &&& ~~~on != 0 then w
  else { w with parked := w.parked &&& ~~~on, waitOn := w.waitOn.filter (fun e => e.2 != m + 1), fast := false }

/-- Registers evaluated in order. -/
def Wave.evalMasks : List Nat → Wave → Wave
  | [], w => w
  | m :: ms, w => Wave.evalMasks ms (w.evalMask m)

/-- R89: a mask register written and evaluated; bits at or above WIDTH are discarded. -/
def Wave.setM (w : Wave) (m : Nat) (x : Lanes) : Wave :=
  let x := x &&& w.all
  ({ w.mark w.active (w.mreg m != x) with m := SMap.set 0 w.m m x }).evalMask m

/-- R89: the exiting lanes' bits cleared in every mask register. -/
def Wave.clearMasks (e : Lanes) : List Nat → Wave → Wave
  | [], w => w
  | m :: ms, w =>
    Wave.clearMasks e ms
      (if w.mreg m &&& e == 0 then w
       else { w.mark w.active true with m := SMap.set 0 w.m m (w.mreg m &&& ~~~e) })

/-- R149, R91: the lanes that executed WAITM in the clause park. DESIGN CHOICE (log entry 75): a lane that a later word of
the clause has sent elsewhere parks where that word has put it. -/
def Wave.parkNow (w : Wave) : Wave :=
  let ls := w.parkAtEnd.filter fun e => !w.exited.getLsbD e.1
  let set := laneSet fun l => ls.any (·.1 == l)
  if set == 0 then { w with parkAtEnd := [] }
  else
    let w := { w with parked := w.parked ||| set, fast := false, parkAtEnd := []
                      waitOn := ls.foldl (fun m (e : Nat × Nat) => SMap.set 0 m e.1 e.2) w.waitOn }
    Wave.evalMasks (List.range 12) (w.restoreBy set)

/-- R83, R89, R146: the wave's part of the exit of lanes. -/
def Wave.exitLanes (w : Wave) (e : Lanes) : Wave :=
  let w := { w with exited := w.exited ||| e, parked := w.parked &&& ~~~e, fast := false
                    demoted := w.demoted &&& ~~~e
                    waitOn := w.waitOn.filter fun x => !e.getLsbD x.1
                    parkAtEnd := w.parkAtEnd.filter fun x => !e.getLsbD x.1
                    parks := w.parks.filter fun x => !e.getLsbD x.lane }
  Wave.evalMasks (List.range 12) (Wave.clearMasks e (List.range 12) w)

/-! ## Trap causes (R96) -/

/-- The code of a cause. -/
def Cause.code : Cause → Nat
  | .illegalOp => 0x01 | .rsvdField => 0x02 | .illegalClause => 0x03 | .regRange => 0x04 | .priv => 0x05
  | .fpInvalid => 0x10 | .fpDivzero => 0x11 | .fpOverflow => 0x12 | .fpUnderflow => 0x13 | .fpInexact => 0x14
  | .intDivzero => 0x15
  | .memAlign => 0x20 | .memXlate => 0x21 | .memPerm => 0x22 | .memEcc => 0x23 | .memPoison => 0x24
  | .feBudget => 0x28 | .fePage => 0x29 | .feParkfull => 0x2A
  | .maskSelf => 0x30 | .maskRange => 0x31 | .slot => 0x38 | .barrier => 0x39
  | .specExt => 0x40 | .version => 0x41 | .stackSpill => 0x48 | .break_ => 0x50 | .user => 0x51
  | .watchdog => 0x60 | .killed => 0x61

/-- R77: TRAPDST for a register of a kind: 1 vector, 2 scalar, 3 predicate, 4 mask. -/
def dstOf (kind reg : Nat) : Nat := reg % 128 + 128 * kind

/-- R77: TRAPDST of an instruction: its destination, or 0 where it has none; where it has several, the one it names
first (log entry 30). -/
def destReg : Instr → Nat
  | .fadd f | .fsub f | .fmul f | .ffma f | .fmin f | .fmax f | .fminp f | .fmaxp f => dstOf 1 f.d
  | .frcp f | .frsq f | .fsqrt f | .fdiv f | .fexp2 f | .flog2 f | .fsin f | .fcos f => dstOf 1 f.d
  | .frint f | .ffrac f | .fdot2 f | .fclass f | .fscale f => dstOf 1 f.d
  | .iadd f | .isub f | .imul f | .imulh f | .imad f | .imin f | .imax f | .idiv f | .irem f => dstOf 1 f.d
  | .iand f | .ior f | .ixor f | .shl f | .shr f | .rot f | .bfe f | .bfi f => dstOf 1 f.d
  | .popc f | .clz f | .brev f | .iadd64 f | .imadw f | .ihash f | .lea f | .sel f | .mov f => dstOf 1 f.d
  | .pack f | .prmt f | .vxrd f | .smovv f | .shfl f | .scanx f | .matchx f | .waita f => dstOf 1 f.d
  | .callx f | .vpop f | .tex f | .texl f | .texg f | .tld f | .tquery f | .hgfetch f => dstOf 1 f.d
  | .rast f | .attr f | .rbox f | .rtri f | .rxfm f | .rstko f | .rtrail f | .rstkp f => dstOf 1 f.d
  | .fcmp f | .icmp f | .elect f => dstOf 3 (f.d % 8)
  | .vote f => if f.t == 2 then dstOf 1 f.d else dstOf 3 (f.d % 8)
  | .redux f => if f.t == 1 then dstOf 2 f.d else dstOf 1 f.d
  | .vmovs f | .bind f | .unbind f | .cwait f => dstOf 2 f.d
  | .vpush f => match f.xw with
    | some x => dstOf 3 (x.c % 8)
    | none => 0
  | .movi f | .logi f | .cvt f | .call f => dstOf 1 f.d
  | .smovi f => dstOf 2 f.d
  | .icmpi f => dstOf 3 (f.d % 8)
  | .iaddi f | .sreg f => dstOf 1 f.d
  | .ld f | .lds f | .ldw f | .ldc f | .ldsw f | .ldsc f | .feget f => dstOf 1 f.d
  | .sld f => dstOf 2 f.d
  | .cpin f => dstOf 3 (f.d % 8)
  | .atom f | .atomf f | .cas f | .atoms f | .cass f => dstOf 1 f.d
  | .join f | .leave f | .mset f => dstOf 4 f.md
  | .mtest f => if f.imm == 5 then dstOf 2 f.s else dstOf 3 (f.md % 8)
  | .salu f | .bara f | .cbwait f | .mjoin f | .vfree f | .flip f | .triset f | .pgreq f => dstOf 2 f.sd
  | .vfork f | .vcommit f | .vsquash f | .vquery f | .vdeadl f => dstOf 2 f.sd
  | .scmp f | .grow f | .mfork f => dstOf 3 (f.sd % 8)
  | _ => 0

/-- The instruction that a word spells, whether or not its checks pass. -/
def rawInstr (word : Nat) (ext : Option Nat) : Option Instr :=
  (fmtOf (word % 256)).bind fun fmt => build (word % 256) (readForm word (ext.getD 0) fmt)

/-- The destination of the word being executed. -/
def Wave.wordDst (w : Wave) : Nat :=
  ((rawInstr w.word (w.clause.bind fun c => c.words[c.at_ + 1]?)).map destReg).getD 0

/-! ## Cohorts and launches -/

/-- The record of a cohort. -/
def State.cohort (s : State) (id : Nat) : Option Cohort := s.cohorts.find? (·.id == id)
/-- The record of a launch. -/
def State.launch (s : State) (id : Nat) : Option Launch := s.launches.find? (·.id == id)
/-- The record of a context. -/
def State.context (s : State) (id : Nat) : Option Context := s.contexts.find? (·.id == id)
/-- The cohort of the focused wave. -/
def State.myCohort (s : State) : Option Cohort := s.cohort s.w.cohort
/-- The launch of the focused wave. -/
def State.myLaunch (s : State) : Option Launch := s.myCohort.bind fun c => s.launch c.launch
/-- The context number of the focused wave. -/
def State.ctxId (s : State) : Nat := s.w.ctx

/-- A change of one cohort's record. -/
def updCohort (id : Nat) (f : Cohort → Cohort) (s : State) : State :=
  { s with cohorts := updFirst (·.id == id) f s.cohorts }
/-- A change of one launch's record. -/
def updLaunch (id : Nat) (f : Launch → Launch) (s : State) : State :=
  { s with launches := updFirst (·.id == id) f s.launches }
/-- A change of one context's record. -/
def updContext (id : Nat) (f : Context → Context) (s : State) : State :=
  { s with contexts := updFirst (·.id == id) f s.contexts }
/-- A change of the focused wave. -/
def withWave (f : Wave → Wave) (s : State) : State := { s with w := f s.w }

/-- R380: an entry for the completion engine. -/
def complete (p : Packet) (status cause version : Nat) (s : State) : State :=
  { s with completions := s.completions ++ [{ packet := p, status := status, cause := cause, version := version,
                                              stage := 0 }] }

/-- A launch ends: it completes with its status (R381, R402). -/
def endLaunch (l : Launch) (s : State) : State :=
  let c : Completion := { packet := l.packet, status := l.status, cause := l.cause, version := l.version, stage := 0
                          cohorts := l.members }
  { s with launches := s.launches.filter (·.id != l.id), completions := s.completions ++ [c] }

/-- R381, R94: a grid whose every group up to the final count has completed is complete. -/
def finishLaunch (id : Nat) (s : State) : State := match s.launch id with
  | none => s
  | some l =>
    if !l.pool && l.nextGroup == l.count && l.completed == l.count && l.waiting.isEmpty then endLaunch l s else s

/-- A group of a launch is complete: its cohort has ended. -/
def Launch.groupDone (cohort : Nat) (l : Launch) : Launch :=
  { l with completed := l.completed + 1, members := cohort :: l.members }

/-- R403: the watchdog of a drained grid is cancelled when no cohort of the grid remains resident. -/
def cancelWatch (id : Nat) (s : State) : State :=
  if s.cohorts.any (·.launch == id) then s
  else { s with watches := s.watches.filter (·.launch != id) }

/-- The owner tag of a scratch cell: its address is tag × 2^28 + offset (R21, R26). -/
def scratchTag (a : Nat) : Nat := a / 2 ^ 28

/-- R292: what is left of an engine word of a cohort that is gone: the rows that a scratch MSTORE part-way has sent can
still reach their banks, where they are dropped; every other word is abandoned. -/
def EngineWord.leftover (w : EngineWord) : Option EngineWord := match w.i with
  | .mstore _ _ _ _ _ 1 _ 0 _ => if w.started then some { w with lost := true } else none
  | _ => none

/-- R18, R104: what a cohort held on chip is released: its records, scratch, stream context with its claims, raster
slots. A closing island that it leaves empty goes on (R417). -/
def releaseCohort (c : Cohort) (s : State) : State :=
  let mine := fun (x : Stream) => x.on && x.cohort == c.id
  drainIsland c.cluster { s with
    cohorts := s.cohorts.filter (·.id != c.id)
    st := if mine s.st then {} else s.st
    streams := s.streams.filter fun x => !mine x
    engine := s.engine.filterMap fun w => if w.cohort == c.id then w.leftover else some w
    scratch := s.scratch.filter fun e => !c.tags.contains (scratchTag e.1)
    scratchFe := s.scratchFe.filter fun e => !c.tags.contains (scratchTag e.1)
    scratchWait := s.scratchWait.filter fun b => !c.tags.contains (scratchTag (128 * b))
    raster := s.raster.filter fun r => !c.tags.contains r.owner }

/-- R291: the stream context of a cohort. -/
def State.stream (s : State) (id : Nat) : Option Stream :=
  ((if s.st.on then [s.st] else []) ++ s.streams).find? fun x => x.on && x.cohort == id

/-- R289, R291: whether a cohort's stream runs, or has words on the engines that are still to complete (log entry 58). -/
def streamBusy (s : State) (id : Nat) : Bool := (s.stream id).any (·.state == 1) || s.engine.any (·.cohort == id)

/-- R18: whether a team of a cohort has not ended. -/
def teamOn (s : State) (c : Cohort) (rank : Nat) : Bool :=
  (allWaves s).any (fun w => w.on && w.cohort == c.id && w.rank == rank && !w.ended)
    || streamBusy s c.id

/-- R18, R248: a team that has ended releases its space: the banks drop their tag and what they held. -/
def releaseTeam (c : Cohort) (rank : Nat) (s : State) : State :=
  let old := c.tags.getD rank 0
  let fresh := s.nextId
  let s := updCohort c.id (fun c => { c with tags := c.tags.set rank fresh, gone := rank :: c.gone }) s
  { s with nextId := fresh + 1, scratch := s.scratch.filter fun e => scratchTag e.1 != old
           scratchFe := s.scratchFe.filter fun e => scratchTag e.1 != old
           scratchWait := s.scratchWait.filter fun b => scratchTag (128 * b) != old
           raster := s.raster.filter fun r => r.owner != old }

/-- R18: the teams of a cohort that have ended release their space. -/
def releaseTeams (c : Cohort) (s : State) : State :=
  (List.range c.tags.length).foldl (fun s r => if c.gone.contains r || teamOn s c r then s else releaseTeam c r s) s

/-- R18, R291: a cohort whose waves have ended and whose stream is not busy ends; its group is complete. Until then each
team that ends releases its space. -/
def endCohort (id : Nat) (s : State) : State := match s.cohort id with
  | none => s
  | some c =>
    if c.waves != 0 || streamBusy s id then releaseTeams c s
    else
      let s := releaseCohort c s
      let s := updLaunch c.launch (Launch.groupDone c.id) s
      finishLaunch c.launch (cancelWatch c.launch s)

/-- Whether an instruction acts on scratch. -/
def onScratch : Instr → Bool
  | .lds _ | .sts _ | .ldsw _ | .ldsc _ | .stsf _ | .atoms _ | .cass _ => true
  | .feset f | .feget f => f.w == 1
  | .vismin f => f.ax.aop == 1
  | _ => false

/-- R205: whether an instruction writes the locations it names. -/
def writesMem : Instr → Bool
  | .ld _ | .lds _ | .sld _ | .feget _ | .ldw _ | .ldsw _ => false
  | .tex _ | .texl _ | .texg _ | .tld _ | .tquery _ | .hgfetch _ | .rast _ | .attr _ => false
  | .rbox _ | .rtri _ | .rxfm _ | .rtrail _ => false
  | _ => true

/-- R104, R26: whether an issued operation completes although its wave has been discarded: it writes global memory and
has not been performed, or its home has not acknowledged it. -/
def Op.outlives (o : Op) : Bool :=
  writesMem o.i && !onScratch o.i && o.ctr != 2 && (o.perf != o.lanes || !o.homes.isEmpty)

/-- R104: what is left of a discarded wave: the writes it has issued, which complete without it. -/
def Wave.toHusk (w : Wave) : Wave :=
  { on := true, id := w.id, ctx := w.ctx, ended := true, core := w.core, part := w.part, slot := w.slot
    cohort := w.cohort, rank := w.rank, index := w.index, width := w.width, version := w.version, cver := w.cver
    exited := w.all, husk := true, ops := (w.ops.filter Op.outlives).map fun o => { o with res := [] } }

/-- The discarded waves that still have writes to complete. -/
def husks (ws : List Wave) : List Wave := (ws.map Wave.toHusk).filter fun w => !w.ops.isEmpty

/-- R104: the waves of a cohort and what it held are gone; issued commands, writes and stores that a core has accepted
stay. -/
def dropCohort (c : Cohort) (s : State) : State :=
  let gone := (allWaves s).filter (·.cohort == c.id)
  let s := { s with
    mem := freeCloaks [] (gone.flatMap Wave.parks) s.mem
    w := if s.w.on && s.w.cohort == c.id then {} else s.w
    waves := s.waves.filter (·.cohort != c.id) ++ husks gone }
  releaseCohort c s

/-- R176: the report of a discarded cohort. -/
def reportDiscard (c : Cohort) (cause cause2 addr : Nat) (w : Option Wave) (s : State) : State :=
  postFault (c.cluster / 8)
    { addr := addr, ctx := c.ctx, version := c.version, kind := 7
      core := (w.map Wave.core).getD 0, wave := (w.map Wave.slot).getD 0, part := (w.map Wave.part).getD 0
      cause := cause, cause2 := cause2 } s

/-- R104, R176, R381: a cohort is discarded with a report; its launch takes status 2 and the cause of its first such
discard. -/
def discardCohort (id cause cause2 addr : Nat) (w : Option Wave) (s : State) : State := match s.cohort id with
  | none => s
  | some c =>
    let s := reportDiscard c cause cause2 addr w (dropCohort c s)
    let s := updLaunch c.launch
      (fun l => if l.status == 0 then { l.groupDone c.id with status := 2, cause := cause } else l.groupDone c.id) s
    finishLaunch c.launch (cancelWatch c.launch s)

/-! ## Barriers (R155) -/

/-- R157: a phase whose arrivals are complete completes. -/
def Barrier.check (b : Barrier) : Barrier :=
  if b.arrived != 0 && b.expected ≤ b.arrived then { b with arrived := 0, gen := b.gen + 1 } else b

/-- R155: lanes exit. -/
def Barrier.exitLanes (k : Nat) (b : Barrier) : Barrier :=
  if b.count then b else ({ b with expected := b.expected - k }).check

/-- R204: the late traps of a wave that has ended: each is reported, and the cohort, when still resident, discarded. -/
def lateUntaken (w : Wave) (cluster ctx : Nat) : List LateTrap → State → State
  | [], s => s
  | t :: ts, s =>
    lateUntaken w cluster ctx ts
      (match s.cohort w.cohort with
       | some _ => discardCohort w.cohort t.cause.code 0 t.pc.toNat (some w) s
       | none => postFault (cluster / 8)
           { addr := t.pc.toNat, ctx := ctx, version := w.cver, kind := 7, core := w.core, wave := w.slot
             part := w.part, cause := t.cause.code } s)

/-- R146: the focused wave, all of whose lanes have exited, ends. Its record stays while operations of it are
outstanding. -/
def endWave (s : State) : State :=
  let w := { s.w with ended := true, clause := none, handler := false, hold := .none, late := [], parks := []
                      batches := [] }
  let late := s.w.late
  let cid := w.cohort
  let s := { s with w := if w.ops.isEmpty then {} else w }
  let s := updCohort cid (fun c => { c with waves := c.waves - 1 }) s
  let s := lateUntaken w (w.core / 4) w.ctx late s
  endCohort cid s

/-! ## Traps (R97-R99) -/

/-- R99: handler mode ends when no lane remains in the handler; the lanes that executed TRET go on at the resume
point. -/
def endHandler (w : Wave) : Wave :=
  if !w.handler || w.handlerLanes &&& ~~~w.tret &&& ~~~w.exited != 0 then w
  else
    let back := w.tret &&& ~~~w.exited
    let keep := w.parkHeld.filter fun e => back.getLsbD e.1
    let w0 := { w with handler := false, handlerLanes := 0, tret := 0, entered := 0, resume := .none, resumePc := []
                       parkHeld := [], fast := false, clause := none }
    if back == 0 then w0
    else match w.resume with
      | .clause c =>
        Wave.putPc (fun _ => c.next) (lanesOf back)
          { w0 with clause := some { c with issue := back, active := back, refetch := true }, parkAtEnd := keep }
      | .next pc => ({ Wave.putPc (fun _ => pc) (lanesOf back) w0 with parkAtEnd := keep }).parkNow
      | .perLane => Wave.putPc (fun l => SMap.get 0 w.resumePc l) (lanesOf back) w0
      | .ends => w0
      | .none => w0

/-- R32, R99: the lanes that TRET ends for good, after a header trap. -/
def tretEnds (w : Wave) : Lanes :=
  if w.handler && w.resume == .ends && w.handlerLanes &&& ~~~w.tret &&& ~~~w.exited == 0 then w.tret &&& ~~~w.exited
  else 0

/-- R146: lanes of the focused wave exit, by EXIT or as if by it; with them those that a header trap's handler gave
up (R32). -/
def exitLanes (e : Lanes) (s : State) : State :=
  let e := e &&& s.w.live
  let s := { s with mem := freeCloaks (s.w.parks.filter fun p => !e.getLsbD p.lane)
                             (s.w.parks.filter fun p => e.getLsbD p.lane) s.mem }
  let w1 := s.w.exitLanes e
  let gone := tretEnds w1
  let w := endHandler (w1.exitLanes gone)
  let s := updCohort w.cohort
    (fun c => { c with bars := c.bars.map (Barrier.exitLanes (laneCount (e ||| gone))) }) { s with w := w }
  if w.live == 0 && !w.ended then endWave s else s

/-- What a trap writes to the trap registers (R77, R97). -/
structure TrapInfo where
  cause : Cause
  mask : Lanes
  pc : DWord
  ins : Nat
  dst : Nat := 0
  addr : DWord := 0

/-- R97, R98: a trap of the focused wave is taken by the handler lanes, or discards the cohort when the wave is in
handler mode or its kernel has no handler. -/
def takeTrap (t : TrapInfo) (lanes : Lanes) (resume : Resume) (s : State) : State :=
  let w := s.w
  if w.handler then discardCohort w.cohort t.cause.code w.entered t.pc.toNat (some w) s
  else match s.myLaunch.bind fun l => l.kernel.traph with
  | none => discardCohort w.cohort t.cause.code 0 t.pc.toNat (some w) s
  | some traph =>
    let w := { w with
      trapCause := BitVec.ofNat 32 t.cause.code, trapMask := t.mask, trapPc := t.pc
      trapIns := BitVec.ofNat 32 t.ins, trapDst := BitVec.ofNat 32 t.dst, trapAddr := t.addr
      handler := true, handlerLanes := lanes, tret := 0, entered := t.cause.code, resume := resume
      resumePc := (lanesOf lanes).foldl (fun m l => SMap.set 0 m l (w.pcOf l)) []
      parkHeld := w.parkAtEnd, parkAtEnd := [], clause := none, fast := false, hold := .none
      refused := none, pack := 0, owed := 0 }
    { s with w := Wave.putPc (fun _ => traph) (lanesOf lanes) w }

/-- R97: a cause raised by the operation of the word being executed, for the ACTIVE lanes. -/
def raise (cause : Cause) (mask : Lanes) (dst : Nat) (addr : DWord) (s : State) : State :=
  takeTrap { cause := cause, mask := mask, pc := s.w.wordPc, ins := s.w.word, dst := dst, addr := addr }
    s.w.active s.w.resumePoint s

/-- R45: a check of the word being executed fails; every lane at the issuing PC takes the trap. -/
def raiseCheck (cause : Cause) (s : State) : State :=
  let lanes := (s.w.clause.map Clause.issue).getD 0
  takeTrap { cause := cause, mask := lanes, pc := s.w.wordPc, ins := s.w.word, dst := s.w.wordDst } lanes
    s.w.resumePoint s

/-- A late trap found after its word issued (R204); the wave holds it. A wave that has ended takes none. -/
def Wave.addLate (w : Wave) (t : LateTrap) : Wave := { w with late := w.late ++ [t] }

/-- The focused wave executes the instruction again at its later turns until it completes (R83). -/
def holdAgain (i : Instr) (s : State) : State := { s with w := { s.w with hold := .again i } }

/-- R68: the enabled flags of an instruction's exceptions raise the trap of the first cause in the order of R96. -/
def fpCause (x : Exc) : Option Cause :=
  if x.getLsbD 0 then some .fpInvalid
  else if x.getLsbD 1 then some .fpDivzero
  else if x.getLsbD 2 then some .fpOverflow
  else if x.getLsbD 3 then some .fpUnderflow
  else if x.getLsbD 4 then some .fpInexact
  else none

/-! ## Focus -/

/-- The wave with a number brought into focus. -/
def focusWave (id : Nat) (s : State) : State :=
  if s.w.on && s.w.id == id then s
  else match s.waves.find? (·.id == id) with
    | none => s
    | some w =>
      { s with w := w, waves := (if s.w.on then [s.w] else []) ++ s.waves.filter (·.id != id) }

/-- The queue of a context brought into focus. -/
def focusQueue (ctx q : Nat) (s : State) : State :=
  if s.q.on && s.q.ctx == ctx && s.q.num == q then s
  else match s.queues.find? (fun x => x.ctx == ctx && x.num == q) with
    | none => s
    | some x =>
      { s with q := x
               queues := (if s.q.on then [s.q] else []) ++ s.queues.filter (fun y => !(y.ctx == ctx && y.num == q)) }

/-- The stream of a cohort brought into focus. -/
def focusStream (cohort : Nat) (s : State) : State :=
  if s.st.on && s.st.cohort == cohort then s
  else match s.streams.find? (·.cohort == cohort) with
    | none => s
    | some x =>
      { s with st := x, streams := (if s.st.on then [s.st] else []) ++ s.streams.filter (·.cohort != cohort) }

/-- The waves with numbers of a list, each brought into focus and acted on in turn; the wave in focus before is in
focus again afterwards. -/
def forWaves (f : State → State) : List Nat → State → State
  | [], s => s
  | id :: ids, s =>
    let s1 := focusWave id s
    forWaves f ids (if s1.w.on && s1.w.id == id then f s1 else s1)

/-- An operation on each occupied wave that satisfies a test. -/
def eachWave (p : Wave → Bool) (f : State → State) (s : State) : State :=
  let s1 := forWaves f ((allWaves s).filter p |>.map Wave.id) s
  if s.w.on then focusWave s.w.id s1 else s1

end Sys2Proof.Machine
end

