-- ==== Sys2Proof/Machine/Operands.lean ====
section
/-!
DEFINITION. The operand forms of the wave engine (R107-R109, R135): a source as a lane reads it, 64-bit pairs, scalar
sources, the special registers (R75), member masks, and the shapes that write a result for every ACTIVE lane.
-/

namespace Sys2Proof.Machine

/-- Source A of a V3 instruction in a lane: a vector register, or a scalar with AS (R108). -/
def Wave.srcA (w : Wave) (f : V3) (l : Nat) : Word := if f.x.as then w.sreg f.a else w.vreg l f.a
/-- Source B of a V3 instruction in a lane (R108). -/
def Wave.srcB (w : Wave) (f : V3) (l : Nat) : Word := if f.x.bs then w.sreg f.b else w.vreg l f.b
/-- The third source, XW.C (R108). -/
def Wave.srcC (w : Wave) (f : V3) (l : Nat) : Word := w.vreg l f.x.c
/-- Source A as a 64-bit operand (R108). -/
def Wave.pairA (w : Wave) (f : V3) (l : Nat) : DWord := if f.x.as then w.spair f.a else w.vpair l f.a
/-- Source B as a 64-bit operand (R108). -/
def Wave.pairB (w : Wave) (f : V3) (l : Nat) : DWord := if f.x.bs then w.spair f.b else w.vpair l f.b

/-- The ACTIVE lanes, ascending. -/
def Wave.lanes (w : Wave) : List Nat := lanesOf w.active
/-- The lowest-numbered ACTIVE lane. -/
def Wave.leader (w : Wave) : Nat := lowest w.active
/-- Whether ACTIVE is empty. -/
def Wave.idle (w : Wave) : Bool := w.active == 0

/-- R107: a vector result written in every ACTIVE lane. -/
def writeV (r : Nat) (f : Nat → Word) (s : State) : State := { s with w := Wave.putV r f s.w.lanes s.w }
/-- R107: a 64-bit result written to a pair in every ACTIVE lane. -/
def writeVPair (r : Nat) (f : Nat → DWord) (s : State) : State := { s with w := Wave.putVPair r f s.w.lanes s.w }
/-- R107: a predicate written in every ACTIVE lane. -/
def writeP (p : Nat) (f : Nat → Bool) (s : State) : State := { s with w := Wave.putP p f s.w.lanes s.w }
/-- R107: a scalar written once per issue, and not when ACTIVE is empty. -/
def writeS (r : Nat) (x : Word) (s : State) : State :=
  { s with w := if s.w.idle then s.w else s.w.setS r x }
/-- R107: a scalar pair written once per issue. -/
def writeSPair (r : Nat) (x : DWord) (s : State) : State :=
  { s with w := if s.w.idle then s.w else s.w.setSPair r x }

/-- R66: the exceptions of the lanes are recorded in FPMODE, and the first enabled one traps before the next word. -/
def completeFp (exc : Nat → Exc) (dst : Nat) (s : State) : State :=
  let ls := s.w.lanes
  let all := ls.foldl (fun x l => x ||| exc l) (0 : Exc)
  let en := fpEnables s.w.fpmode
  let s1 := { s with w := { s.w with fpmode := fpRaise s.w.fpmode all } }
  match fpCause (all &&& en) with
  | none => s1
  | some c => raise c (laneSet fun l => ls.contains l && fpCause (exc l &&& BitVec.twoPow 5 (c.code - 0x10)) == some c)
      dst 0 s1

/-- R112: a floating-point result in every ACTIVE lane, with its exceptions. -/
def fpResult (d : Nat) (r : Nat → Word × Exc) (s : State) : State :=
  completeFp (fun l => (r l).2) (dstOf 1 d) (writeV d (fun l => (r l).1) s)

/-- R112: the shape of a floating-point instruction with sources A, B and C. -/
def fpV3 (f : V3) (op : Word → Word → Word → Word × Exc) (s : State) : State :=
  fpResult f.d (fun l => op (s.w.srcA f l) (s.w.srcB f l) (s.w.srcC f l)) s

/-- R121: the shape of an integer instruction with 32-bit sources A, B and C. -/
def intV3 (f : V3) (op : Word → Word → Word → Word) (s : State) : State :=
  writeV f.d (fun l => op (s.w.srcA f l) (s.w.srcB f l) (s.w.srcC f l)) s

/-! ## Special registers (R75-R77) -/

/-- R93: the coordinates of a group. -/
def coord (l : Launch) (g : Nat) : Nat → Nat
  | 0 => g % l.gridX
  | 1 => g / l.gridX % l.gridY
  | _ => g / (l.gridX * l.gridY)

/-- R93, R401: COHORTX, COHORTY, COHORTZ of a wave. -/
def cohortCoord (s : State) (k : Nat) : Nat := match s.myCohort, s.myLaunch with
  | some c, some l =>
    match c.formed with
    | some f => if k == 0 then f.number else 0
    | none => coord l c.group k
  | _, _ => 0

/-- R75: the value of a special register in a lane. -/
def specialReg (s : State) (n l : Nat) : Word :=
  let w := s.w
  let la := s.myLaunch
  match n with
  | 0x000 => BitVec.ofNat 32 l
  | 0x001 => BitVec.ofNat 32 w.index
  | 0x002 => BitVec.ofNat 32 w.width
  | 0x003 => BitVec.ofNat 32 w.rank
  | 0x004 => BitVec.ofNat 32 (cohortCoord s 0)
  | 0x005 => BitVec.ofNat 32 (cohortCoord s 1)
  | 0x006 => BitVec.ofNat 32 (cohortCoord s 2)
  | 0x007 => BitVec.ofNat 32 ((la.map Launch.gridX).getD 0)
  | 0x008 => BitVec.ofNat 32 ((la.map Launch.gridY).getD 0)
  | 0x009 => BitVec.ofNat 32 ((la.map Launch.gridZ).getD 0)
  | 0x00A => BitVec.ofNat 32 w.core
  | 0x00B => BitVec.ofNat 32 (w.core / 4)
  | 0x00C => BitVec.ofNat 32 (w.core / 32)
  | 0x00D => BitVec.ofNat 32 (w.version % 16)
  | 0x00E => (s.myCohort.map Cohort.restarts).getD 0
  | 0x00F => BitVec.ofNat 32 s.now
  | 0x010 => w.clockHi
  | 0x011 => w.fpmode
  | 0x012 => w.trapCause
  | 0x013 => w.trapMask.setWidth 32
  | 0x014 => (w.trapMask >>> 32).setWidth 32
  | 0x015 => w.trapPc.setWidth 32
  | 0x016 => (w.trapPc >>> 32).setWidth 32
  | 0x017 => w.trapIns
  | 0x018 => w.trapDst
  | 0x019 => w.trapAddr.setWidth 32
  | 0x01A => (w.trapAddr >>> 32).setWidth 32
  | 0x01B => w.waitBudget
  | _ => BitVec.ofNat 32 ((la.map Launch.count).getD 0)

/-! ## Member masks (R90, R135) -/

/-- R135: the member mask of a cross-lane instruction. -/
def Wave.member (w : Wave) (f : V3) : Lanes := match f.xw with
  | none => w.active
  | some x => if x.c % 16 == 15 then w.active else w.mreg (x.c % 16)

/-- R135: the participating set: members that have not exited. -/
def Wave.partSet (w : Wave) (f : V3) : Lanes := w.member f &&& w.live

/-- R90: the ACTIVE lanes that leave themselves out of a mask. -/
def Wave.selfOmitted (w : Wave) (m : Lanes) : Lanes := w.active &&& ~~~m

/-- R135, R90: a cross-lane instruction, refused when an ACTIVE lane is outside its member mask. -/
def crossLane (i : Instr) (f : V3) (op : State → State) (s : State) : State :=
  let bad := s.w.selfOmitted (s.w.member f)
  if bad == 0 then op s else raise .maskSelf bad (destReg i) 0 s

end Sys2Proof.Machine
end

