-- ==== Sys2Proof/Machine/Version.lean ====
section
/-!
DEFINITION. Versions (R355-R374): the tag table of a context, speculative sectors, the log, killing a wave, and squash
(R371). The commit point stands in Commit.lean.
-/

namespace Sys2Proof.Machine

/-- The state of tag 0 (R355): always LIVE. -/
def tagZero : Tag := { state := 1 }

/-- A tag of a context. -/
def tagOf (s : State) (ctx t : Nat) : Tag :=
  if t == 0 then tagZero
  else match s.context ctx with
    | some c => SMap.get {} c.tags t
    | none => {}

/-- A change of a tag. -/
def updTag (ctx t : Nat) (f : Tag → Tag) (s : State) : State :=
  if t == 0 then s else updContext ctx (fun c => { c with tags := SMap.set {} c.tags t (f (SMap.get {} c.tags t)) }) s

/-- Whether a tag is LIVE. -/
def live (s : State) (ctx t : Nat) : Bool := (tagOf s ctx t).state == 1

/-- The LIVE children of a tag, ascending. -/
def children (s : State) (ctx t : Nat) : List Nat :=
  (List.range 16).filter fun k => k != 0 && live s ctx k && (tagOf s ctx k).parent == t

/-- R356: the status word of a tag. -/
def tagWord (s : State) (ctx t : Nat) : Nat :=
  let g := tagOf s ctx t
  let kids := (children s ctx t).length
  if t == 0 then 0x40 + kids * 2 ^ 16
  else if g.state == 0 then g.reason * 2 ^ 8 + (if g.dmiss then 2 ^ 13 else 0)
  else g.parent + g.depth * 2 ^ 4 + g.state * 2 ^ 6 + g.reason * 2 ^ 8 + (if g.dset then 2 ^ 12 else 0)
    + (if g.dmiss then 2 ^ 13 else 0) + kids * 2 ^ 16

/-- R370: whether tag a is an ancestor of tag v. -/
def isAncestor (s : State) (ctx a v : Nat) : Bool :=
  let p := (tagOf s ctx v).parent
  v != 0 && (p == a || (p != 0 && (tagOf s ctx p).parent == a))

/-- R106: the tag that a committed tag merged into. Depth is at most 2, so two steps reach a tag that did not commit. -/
def mergedTag (s : State) (ctx t : Nat) : Nat :=
  let g := tagOf s ctx t
  if g.state == 3 then
    let h := tagOf s ctx g.into
    if h.state == 3 then h.into else g.into
  else t

/-- R371: the focused wave is killed: as EXIT for every lane that has not exited. -/
def killFocused (s : State) : State :=
  let w := { s.w with squash := false, clause := none, hold := .none, late := [], batches := [], parkAtEnd := [] }
  if w.ended then { s with w := w } else exitLanes w.live { s with w := w }

/-- R371: the focused wave of a squashed version: killed at once when it is held in a wait of R83 or stands at a clause
boundary, where it may wait for its header; else its parked lanes are, and the rest at its next clause boundary. -/
def killTagged (s : State) : State :=
  let w := s.w
  if w.hold != .none || w.clause.isNone then killFocused s
  else
    let s := { s with w := { w with squash := true } }
    if w.parked == 0 then s else exitLanes w.parked s

/-- R371: the waves tagged with a version are killed. -/
def killWaves (ctx t : Nat) (s : State) : State :=
  let mine := fun (w : Wave) => w.on && !w.ended && w.version == t && w.ctx == ctx
  eachWave mine killTagged s

/-- R288: a stream whose version is squashed. -/
def squashStream (x : Stream) : Stream := { x with state := 2, status := 0x4101, parked := none }

/-- R371: one version is squashed. Its sectors, log and merged reductions go; waves are killed; streams stop before their
next word (R288); its tagged writes still in flight are dropped at their homes; completions that occurred under it and
have not been executed are discarded (R398). -/
def squash (ctx t reason : Nat) (s : State) : State :=
  let s := updTag ctx t (fun g => { g with state := 2, reason := reason }) s
  let cohortCtx := fun (cid : Nat) => (s.cohort cid).any (·.ctx == ctx)
  let hit := fun (x : Stream) => x.on && x.state == 1 && x.version == t && cohortCtx x.cohort
  let s := { s with
    sectors := s.sectors.filter fun x => !(x.ctx == ctx && x.tag == t)
    logs := s.logs.filter fun e => !(e.ctx == ctx && e.tag == t)
    updates := s.updates.filter fun u => !(u.ver && u.ctx == ctx && u.tag == t)
    completions := s.completions.filter fun c => !(c.packet.ctx == ctx && c.version == t && t != 0)
    st := if hit s.st then squashStream s.st else s.st
    streams := s.streams.map fun x => if hit x then squashStream x else x }
  let done := (if s.st.state == 2 then [s.st.cohort] else []) ++ (s.streams.filter (·.state == 2)).map (·.cohort)
  (killWaves ctx t s) |> fun s => done.foldl (fun s c => endCohort c s) s

/-- R370: a version is squashed with its descendants. -/
def squashTree (ctx t reason : Nat) (s : State) : State :=
  let kids := children s ctx t
  let s := squash ctx t reason s
  kids.foldl (fun s k =>
    let grand := children s ctx k
    grand.foldl (fun s g => squash ctx g 3 s) (squash ctx k 3 s)) s

/-- R370: the versions of a list, ascending, are squashed for a reason of their own, then the descendants of theirs that
are LIVE still. -/
def squashAll (ctx reason : Nat) (ts : List Nat) (s : State) : State :=
  let below := fun (t : Nat) => (children s ctx t).flatMap fun k => k :: children s ctx k
  let rest := ((ts.flatMap below).eraseDups).filter fun k => !ts.contains k
  rest.foldl (fun s k => if live s ctx k then squash ctx k 3 s else s) (ts.foldl (fun s t => squash ctx t reason s) s)

/-! ## Sectors (R358-R360) -/

/-- The sector of a tag of a context, spilled or not. -/
def sectorOf (s : State) (ctx t num : Nat) : Option Sector :=
  s.sectors.find? fun x => x.ctx == ctx && x.tag == t && x.num == num

/-- R358: the sector that a tag's lookup finds among speculative ones: its own, its parent's, or none (committed). -/
def lookup (s : State) (ctx t num : Nat) : Option Sector :=
  if t == 0 then none
  else match sectorOf s ctx t num with
    | some x => some x
    | none =>
      let p := (tagOf s ctx t).parent
      if p == 0 then none
      else match sectorOf s ctx p num with
        | some x => some x
        | none =>
          let g := (tagOf s ctx p).parent
          if g == 0 then none else sectorOf s ctx g num

/-- The committed full/empty bits of a sector. -/
def feBits (s : State) (num : Nat) : BitVec 32 :=
  BitVec.ofNat 32 (readMem s.mem (0x1F00000000 + 4 * num) 4)

/-- R358: bytes read at their home by a tag, all in one sector. -/
def viewSector (s : State) (ctx t : Nat) (ver : Bool) (pa n : Nat) : Nat :=
  match (if ver then lookup s ctx t (pa / 128) else none) with
  | some x => bits x.data.toNat (8 * (pa % 128)) (8 * n)
  | none => readMem s.mem pa n

/-- Bytes read at their home by a tag. -/
def viewBytes (s : State) (ctx t : Nat) (ver : Bool) (pa : Nat) : Nat → List Nat
  | 0 => []
  | n + 1 => viewSector s ctx t ver pa 1 :: viewBytes s ctx t ver (pa + 1) n

/-- A word's full/empty bit as a tag sees it. -/
def viewFe (s : State) (ctx t : Nat) (ver : Bool) (pa : Nat) : Bool :=
  match (if ver then lookup s ctx t (pa / 128) else none) with
  | some x => x.fe.getLsbD (pa % 128 / 4)
  | none => feFull s pa

/-- R358: copy on write: the tag comes to hold its own copy of a sector. -/
def ownSector (ctx t num : Nat) (s : State) : State :=
  match sectorOf s ctx t num with
  | some _ => s
  | none =>
    let (data, fe) := match lookup s ctx t num with
      | some x => (x.data, x.fe)
      | none => (BitVec.ofNat 1024 (readMem s.mem (128 * num) 128), feBits s num)
    { s with sectors := { ctx := ctx, tag := t, num := num, data := data, fe := fe, spilled := false } :: s.sectors }

/-- A change of one sector. -/
def updSector (ctx t num : Nat) (f : Sector → Sector) (s : State) : State :=
  { s with sectors := updFirst (fun x => x.ctx == ctx && x.tag == t && x.num == num) f s.sectors }

/-- R360: a speculative sector is kept in a way of its home slice, whatever the CACHE of its page; one that finds no way
gives up its place when the turn ends. -/
def touchSpec (pa : Nat) (s : State) : State :=
  let s := touchLine s (pa / 1024) 0
  if s.lines.any (·.num == pa / 1024) then s else { s with evicted := addOnce (pa / 1024) s.evicted }

/-- A write performed at its home under a tag (R358, R371): at tag 0 or on an unversioned page committed data, else
the tag's own copy; dropped when the tag is no longer LIVE. The bytes lie in one sector. -/
def viewWrite (ctx t : Nat) (ver cached : Bool) (pa n v : Nat) (s : State) : State :=
  if !ver || t == 0 then homeWrite cached pa n v s
  else if !live s ctx t then s
  else
    let s := updSector ctx t (pa / 128)
      (fun x => { x with data := BitVec.ofNat 1024 (patch x.data.toNat (pa % 128) n v) }) (ownSector ctx t (pa / 128) s)
    wake pa n (touchSpec pa s)

/-- A full/empty bit written at its home under a tag. -/
def viewSetFe (ctx t : Nat) (ver cached : Bool) (pa : Nat) (full : Bool) (s : State) : State :=
  if !ver || t == 0 then homeSetFe cached pa full s
  else if !live s ctx t then s
  else
    let k := BitVec.twoPow 32 (pa % 128 / 4)
    let s := touchSpec pa s
    wake pa 4 (updSector ctx t (pa / 128)
      (fun x => { x with fe := if full then x.fe ||| k else x.fe &&& ~~~k }) (ownSector ctx t (pa / 128) s))

/-! ## Packets and logs -/

/-- The version bits of a packet (R381-R383). -/
def Packet.version (p : Packet) : Nat := field p.bytes 1 1 % 16
/-- The type of a packet (R380). -/
def Packet.type (p : Packet) : Nat := field p.bytes 0 1
/-- R398: a launch or copy packet carries its version. -/
def Packet.carries (p : Packet) (ctx t : Nat) : Bool :=
  p.ctx == ctx && (p.type == 1 || p.type == 2) && p.version == t
/-- R368: a launch or copy packet retagged. -/
def Packet.retag (ctx t u : Nat) (p : Packet) : Packet :=
  if p.carries ctx t then
    { p with bytes := p.bytes.set 1 (field p.bytes 1 1 / 16 * 16 + u) }
  else p

/-- R363: the log records that a context's versions and replays draw. -/
def logUsed (s : State) (ctx : Nat) : Nat :=
  ((s.logs ++ s.replay).filter (·.ctx == ctx)).foldl (fun n e => n + e.recs) 0

/-- Whether an entry is an EVENT's. -/
def LogEntry.isEvent (e : LogEntry) : Bool := match e.i with
  | .event _ => true
  | _ => false

/-- R363: an entry made in the log of a version, or, when the records have run out, the version squashed with reason
OVERFLOW. -/
def logEntry (e : LogEntry) (s : State) : State :=
  -- R163: an EVENT waits for nothing; its entry stands after those of its wave's earlier instructions that enter later
  let after := fun (x : LogEntry) => x.ctx == e.ctx && x.tag == e.tag && x.wid == e.wid && e.num < x.num && x.isEvent
  match s.context e.ctx with
  | none => s
  | some c =>
    if !live s e.ctx e.tag then s
    else if logUsed s e.ctx + e.recs > 2 ^ c.vlogLog2 then squashTree e.ctx e.tag 4 s
    else { s with logs := s.logs.filter (fun x => !after x) ++ e :: s.logs.filter after }

/-- R360: a speculative sector is replaced: it takes a spill slot, or its version is squashed when none is free. -/
def spillSector (ctx t num : Nat) (s : State) : State :=
  match sectorOf s ctx t num, s.context ctx with
  | some x, some c =>
    if x.spilled then s
    else if ((s.sectors.filter fun y => y.ctx == ctx && y.spilled).length) < 2 ^ c.vspillLog2 then
      updSector ctx t num (fun y => { y with spilled := true }) s
    else squashTree ctx t 4 s
  | _, _ => s

/-- R360: the speculative sectors of a line that is replaced. -/
def spillLine (num : Nat) (s : State) : State :=
  (s.sectors.filter fun x => x.num / 8 == num && !x.spilled).foldl (fun s x => spillSector x.ctx x.tag x.num s) s

/-- R360: the speculative sectors of the lines that a turn replaced are spilled. -/
def spillEvicted (s : State) : State :=
  s.evicted.foldl (fun s n => spillLine n s) { s with evicted := [] }

end Sys2Proof.Machine
end

