-- ==== Sys2Proof/Machine/Space.lean ====
section
/-!
DEFINITION. Global memory as an access sees it: translation (R169-R177), the L1 of a core with its pending stores and
update-only lines (R178, R180, R198), the effect of the atomic operations (R223-R226), and release and acquire (R190).
-/

namespace Sys2Proof.Machine

/-! ## Pages (R169-R172) -/

/-- What a kind of access needs of a page (R172). -/
structure Need where
  r : Bool := false
  w : Bool := false
  x : Bool := false
  deriving DecidableEq, Repr

/-- R172: a load, SLD, FEGET or a source of a command. -/
def Need.load : Need := { r := true }
/-- R172: a store, FESET or a destination of a command. -/
def Need.store : Need := { w := true }
/-- R172: an atomic, a reduction, a consuming load or a filling store. -/
def Need.rmw : Need := { r := true, w := true }
/-- R172: an instruction fetch. -/
def Need.fetch : Need := { x := true }

/-- The end of a walk (R171); LEVEL and REASON of R174. -/
inductive Xlat where
  | ok (leaf : Leaf)
  | replay (level : Nat)
  | bad (level : Nat)
  | perm (level reason : Nat)
  deriving DecidableEq, Repr

/-- A leaf entry read from its word (R170). -/
def readLeaf (e pageBits : Nat) : Leaf :=
  { pa := bits e 16 32 * 2 ^ 16, bits := pageBits, r := flag e 2, w := flag e 3, x := flag e 4, cache := bits e 5 2
    rm := flag e 7, fe := flag e 8, ver := flag e 9, key := bits e 10 4, node := bits e 56 8 }

/-- R171, order 2: a leaf that is malformed. -/
def leafBad (own e pageBits : Nat) : Bool :=
  let l := readLeaf e pageBits
  bits e 14 2 != 0 || bits e 48 8 != 0 || l.pa % 2 ^ pageBits != 0 || l.cache == 3 || (l.w && !l.r)
    || (l.node == own && homeEnd ≤ l.pa)

/-- R171, order 2: a table entry that is malformed; `align` is the size of the next table. -/
def tableBad (e align : Nat) : Bool :=
  let ta := bits e 8 40 * 2 ^ 8
  bits e 2 6 != 0 || bits e 48 16 != 0 || ta % align != 0 || homeEnd ≤ ta

/-- R169: the levels of a walk: level, lowest index bit, index bits, and the size of the next table. -/
def walkLevels : List (Nat × Nat × Nat × Nat) :=
  [(3, 39, 13, 4096), (2, 30, 9, 4096), (1, 21, 9, 256), (0, 16, 5, 0)]

/-- R171: the physical address that a leaf gives. -/
def Leaf.addr (l : Leaf) (va : Nat) : Nat := l.pa + va % 2 ^ l.bits
/-- R180: whether a page is cached. -/
def Leaf.cached (l : Leaf) : Bool := l.cache == 0

/-! ## Atomic operations (R223-R226) -/

/-- R223: the operations AOP 0 to 11 on n-bit values. -/
def aopInt (aop n : Nat) (old b : Nat) : Nat :=
  let x := BitVec.ofNat n old
  let y := BitVec.ofNat n b
  (match aop with
   | 0 => x + y
   | 1 => x - y
   | 2 => if x.toNat ≤ y.toNat then x else y
   | 3 => if x.toInt ≤ y.toInt then x else y
   | 4 => if x.toNat ≤ y.toNat then y else x
   | 5 => if x.toInt ≤ y.toInt then y else x
   | 6 => x &&& y
   | 7 => x ||| y
   | 8 => x ^^^ y
   | 9 => y
   | 10 => if y.toNat ≤ x.toNat then 0 else x + 1
   | _ => if x.toNat = 0 ∨ y.toNat < x.toNat then y else x - 1).toNat

/-- R224: one element of a floating atomic: 0 FADD, 1 FMIN, 2 FMAX. -/
def aopElem (k : FFmt) (op a b : Nat) : Nat :=
  if op == 0 then f32AddPlain k a b
  else (k.finish { mode := 1, sat := false, ftz := false, nanc := true } [a, b] (k.minMax (op == 2) false a b)).1

/-- R224: a floating atomic on a 32-bit word. -/
def aopFloat (t op a b : Nat) : Nat :=
  let k := vfmt t
  if t == 0 then aopElem k op a b
  else aopElem k op (a % 2 ^ 16) (b % 2 ^ 16) + aopElem k op (bits a 16 16) (bits b 16 16) * 2 ^ 16

/-- The size in bytes of the location that an atomic names. -/
def rmwBytes : Instr → Nat
  | .atom f | .red f | .atoms f | .cas f | .cass f => if f.t == 1 then 8 else 4
  | .vismin _ => 8
  | _ => 4

/-- The new value that an atomic or a reduction gives a location; `b` is its data (R223-R226). A compare-and-swap has
the new value above the expected one. -/
def rmwNew (i : Instr) (old b : Nat) : Nat := match i with
  | .atom f | .red f => aopInt f.ax.aop (8 * rmwBytes i) old b
  | .atoms f =>
    if 12 ≤ f.ax.aop then aopFloat 0 (f.ax.aop - 12) old b else aopInt f.ax.aop (8 * rmwBytes i) old b
  | .atomf f | .redf f => aopFloat f.t f.ax.aop old b
  | .cas _ | .cass _ =>
    let n := 8 * rmwBytes i
    if old == b % 2 ^ n then b / 2 ^ n % 2 ^ n else old
  | .vismin _ => min old b
  | .hgscat _ => aopElem .f32 0 old b
  | _ => old

/-! ## The L1 of a core (R178, R198) -/

/-- R359: whether an L1 line serves a tag. -/
def L1Line.serves (l : L1Line) (core num ctx tag : Nat) : Bool :=
  l.core == core && l.num == num && l.tag == tag && (tag == 0 || l.ctx == ctx)

/-- R178, R188, R358: whether an L1 line of a core holds the copy that an access of a tag meets: every line of an
unversioned page does, as does that of the same tag, and that of a tag whose lookup finds the same copy. -/
def L1Line.shows (l : L1Line) (s : State) (core ctx tag : Nat) (ver : Bool) (pa : Nat) : Bool :=
  l.core == core && l.num == pa / 128 &&
    (!ver || l.serves core (pa / 128) ctx tag ||
      (lookup s l.ctx l.tag (pa / 128) == lookup s ctx tag (pa / 128)
        && !s.pending.any fun p =>
          p.core == core && p.ver && p.tag != 0 && p.tag == l.tag && p.ctx == l.ctx && p.pa / 128 == pa / 128))

/-- R178: bytes of a core's L1 lines updated by a write of the core. -/
def patchL1 (core ctx tag : Nat) (ver : Bool) (pa n v : Nat) (s : State) : State :=
  { s with l1 := s.l1.map fun l =>
      if l.shows s core ctx tag ver pa then
        { l with data := BitVec.ofNat 1024 (patch l.data.toNat (pa % 128) n v) }
      else l }

/-- Whether an access of a tag to a sector meets the committed copy, whose errors it finds (R185). -/
def committedView (s : State) (ctx tag : Nat) (ver : Bool) (pa : Nat) : Bool :=
  !ver || (lookup s ctx tag (pa / 128)).isNone

/-- R185: the error that an access of a tag meets. -/
def viewError (s : State) (ctx tag : Nat) (ver : Bool) (pa : Nat) : Option Cause :=
  if committedView s ctx tag ver pa then memError s pa else none

/-- R371: whether a write under a tag is dropped at its home, because the tag is no longer LIVE. -/
def dropped (s : State) (ctx tag : Nat) (ver : Bool) : Bool := ver && tag != 0 && !live s ctx tag

/-- The wave that made an access, as its reports need it when it is gone. -/
def Origin.maker (o : Origin) : Wave :=
  { id := o.wave, ctx := o.ctx, ended := true, core := o.core, part := o.part, slot := o.slot, cohort := o.cohort
    cver := o.cver }

/-- Whether two accesses are of one instruction of a wave. -/
def Origin.same (a b : Origin) : Bool := a.wave == b.wave && a.pc == b.pc && a.word == b.word

/-- R204: a late trap of the lanes that made the accesses of a list, the first of them `o`: the wave holds it, or, when
the wave has ended, nobody takes it. -/
def postLate (c : Cause) (o : Origin) (orgs : List Origin) (s : State) : State :=
  let mask := laneSet fun l => orgs.any (·.lane == l)
  let addr := ((orgs.find? (·.lane == lowest mask)).getD o).va
  let t : LateTrap := { cause := c, mask := mask, pc := o.pc, word := o.word, dst := o.dst, addr := BitVec.ofNat 64 addr
                        addrs := orgs.map fun x => (x.lane, x.va) }
  if (allWaves s).any (fun w => w.id == o.wave && !w.ended) then
    mapWaves (fun w => if w.id == o.wave then w.addLate t else w) s
  else lateUntaken o.maker (o.core / 4) o.ctx [t] s

/-- R204: errors found together: one late trap for each cause and instruction, in the order found. -/
def postLates (es : List (Cause × Origin)) (s : State) : State :=
  let same := fun (a b : Cause × Origin) => a.1 == b.1 && a.2.same b.2
  let heads := es.filter fun e => es.find? (same e) == some e
  heads.eraseDups.foldl (fun s e => postLate e.1 e.2 ((es.filter (same e)).map Prod.snd) s) s

/-- R198: one reduction combined into its location at home; the core's own line follows. An error that it meets there
is a late trap of its lanes (R185, R204). -/
def applyUpdate (u : Update) (s : State) : State :=
  let n := rmwBytes u.i
  if dropped s u.ctx u.tag u.ver then s
  else match viewError s u.ctx u.tag u.ver u.pa with
    | some c => postLates (u.orgs.map fun o => (c, o)) (findEcc s u.pa)
    | none =>
      let new := rmwNew u.i (viewSector s u.ctx u.tag u.ver u.pa n) u.data
      patchL1 u.core u.ctx u.tag u.ver u.pa n new (viewWrite u.ctx u.tag u.ver u.cached u.pa n new s)

/-- R198: the pending reductions that satisfy a test reach their homes in the order they stand in. -/
def flushUpdates (p : Update → Bool) (s : State) : State :=
  (s.updates.filter p).foldl (fun s u => applyUpdate u s) { s with updates := s.updates.filter fun u => !p u }

/-- R198: every update-only copy of a line is recalled before another access at its home. -/
def recallLine (pa : Nat) (s : State) : State := flushUpdates (fun u => u.pa / 1024 == pa / 1024) s

/-- R204: an access that its core had accepted is not performed after all: the lines that show it leave the core's L1,
and its lane's results that have not landed are dropped (log entry 69). -/
def undoAccepted (p : Pending) (s : State) : State :=
  let strip := fun (o : Op) => if o.num == p.op then { o with res := o.res.filter (·.lane != p.org.lane) } else o
  mapWaves (fun w => if w.id == p.org.wave then { w with ops := w.ops.map strip } else w)
    { s with l1 := s.l1.filter fun l => !l.shows s p.core p.ctx p.tag p.ver p.pa }

/-- R189, R171: a store or FESET that a core has accepted is performed at its home, or meets an error there (R185). -/
def performPending (p : Pending) (s : State) : Option Cause × State :=
  let s := recallLine p.pa s
  if dropped s p.ctx p.tag p.ver then (none, s)
  else match viewError s p.ctx p.tag p.ver p.pa with
    | some c => (some c, undoAccepted p (findEcc s p.pa))
    | none =>
      (none, if p.feset then viewSetFe p.ctx p.tag p.ver (!p.uncached) p.pa (p.data % 2 == 1) s
        else viewWrite p.ctx p.tag p.ver (!p.uncached) p.pa p.n p.data s)

/-- Stores performed in order, with the errors met. -/
def performAll : List Pending → State → List (Cause × Origin) × State
  | [], s => ([], s)
  | p :: ps, s =>
    let (e, s) := performPending p s
    let (es, s) := performAll ps s
    (match e with
     | some c => (c, p.org) :: es
     | none => es, s)

/-- R36, R189: an outstanding operation that is finished: performed in every lane, its results landed, its stores
acknowledged as its scope asks. -/
def Op.finished (pend : List Pending) (o : Op) : Bool :=
  o.perf == o.lanes && o.res.isEmpty && !o.homes.any (fun h => pend.any (·.id == h))

/-- R37: the operations of a counter left after the finished ones at its head have left; `open_` lists the counters
with an earlier unfinished operation. -/
def retireOps (pend : List Pending) : List Nat → List Op → List Op
  | _, [] => []
  | open_, o :: os =>
    if o.finished pend && !open_.contains o.ctr then retireOps pend open_ os
    else o :: retireOps pend (o.ctr :: open_) os

/-- R37, R146: the counters of every wave retire what has finished; an ended wave with nothing outstanding is gone. -/
def retire (s : State) : State :=
  let s := mapWaves (fun w => { w with ops := retireOps s.pending [] w.ops }) s
  let gone := fun (w : Wave) => w.ended && w.ops.isEmpty
  { s with w := if gone s.w then {} else s.w, waves := s.waves.filter fun w => !gone w }

/-- Whether two pending stores are of one instruction and location, and so are performed together (R205). -/
def Pending.joins (p q : Pending) : Bool := p.core == q.core && p.op == q.op && p.pa == q.pa

/-- Pending stores that satisfy a test are performed at their homes, oldest first, each with those of its instruction to
its location (R205); the errors they meet become late traps (R204). -/
def drain (p : Pending → Bool) (s : State) : State :=
  if s.pending.any p then
    let chosen := s.pending.filter p
    let take := fun (x : Pending) => chosen.any x.joins
    let (es, s) := performAll (s.pending.filter take) { s with pending := s.pending.filter fun x => !take x }
    retire (postLates es s)
  else s

/-- R178, R188: a core's own stores to a sector are at its home before the core reads it there. -/
def settle (core num : Nat) (s : State) : State := drain (fun p => p.core == core && p.pa / 128 == num) s

/-- R178: the update-only lines of a core, oldest first. -/
def updateLines (s : State) (core : Nat) : List Nat :=
  ((s.updates.filter (·.core == core)).map fun u => u.pa / 128).eraseDups

/-- R12, R178: room for one more line in a core's L1 of 2,048 lines: when it is full, the line filled longest ago is
replaced, or, when every line is update-only, the oldest of those, which is flushed (log entry 56). -/
def makeRoom (core : Nat) (s : State) : State :=
  let mine := s.l1.filter (·.core == core)
  let upd := updateLines s core
  if mine.length + upd.length < 2048 then s
  else match mine.getLast?, upd with
    | some v, _ => { s with l1 := s.l1.filter (· != v) }
    | none, n :: _ => flushUpdates (fun u => u.core == core && u.pa / 128 == n) s
    | none, [] => s

/-! ## The walk (R169-R172) -/

/-- R169: a word of a table read through its home slice's stacked cache. -/
def readEntry (a : Nat) (s : State) : Nat × State :=
  let s := touchLine (recallLine a s) (a / 1024) 0
  (readMem s.mem a 8, s)

/-- R169, R171: a walk from a table over the levels that remain. -/
def walk (va : Nat) : Nat → List (Nat × Nat × Nat × Nat) → State → Xlat × State
  | _, [], s => (.bad 0, s)
  | table, (level, lo, n, align) :: rest, s =>
    let (e, s) := readEntry (table + 8 * bits va lo n) s
    if !flag e 0 then (.replay level, s)
    else if flag e 1 then
      (if level == 3 || leafBad s.plat.config.node e lo then .bad level else .ok (readLeaf e lo), s)
    else if level == 0 || tableBad e align then (.bad level, s)
    else walk va (bits e 8 40 * 2 ^ 8) rest s

/-- R172, R24: the permission check on a leaf. -/
def permit (s : State) (need : Need) (level : Nat) (l : Leaf) : Xlat :=
  if (need.r && !l.r) || (need.w && !l.w) || (need.x && !l.x) || l.node != s.plat.config.node then .perm level 1
  else if l.key != 0 && !s.keys.contains l.key then .perm level 3
  else .ok l

/-- The level at which a leaf of a size stands. -/
def leafLevel (l : Leaf) : Nat := if l.bits == 30 then 2 else if l.bits == 21 then 1 else 0

/-- R12: the shared TLB of the cluster of a unit (log entry 56). -/
def sharedTlb (who : Nat) : Option Nat :=
  if who < 128 then some (1024 + who / 4)
  else if who < 256 then some (1024 + (who - 128) / 4)
  else if who < 288 then some (1024 + (who - 256))
  else if 384 ≤ who && who < 512 then some (1024 + (who - 384) / 4)
  else if 512 ≤ who && who < 544 then some (1024 + (who - 512))
  else none

/-- R177: the entry of one TLB for a page. -/
def tlbEntry (s : State) (who ctx va : Nat) : Option Leaf :=
  (s.tlb.find? fun t => t.core == who && t.ctx == ctx && t.vpn == va / 2 ^ 16).map TlbEntry.leaf

/-- R12, R177: the entry that a unit finds for a page, in its own TLB or in its cluster's. -/
def tlbHit (s : State) (who ctx va : Nat) : Option Leaf :=
  (tlbEntry s who ctx va) <|> (sharedTlb who).bind fun k => tlbEntry s k ctx va

/-- R169: the walk for an address of a context. -/
def walkFor (ctx va : Nat) (s : State) : Xlat × State :=
  walk va (((s.context ctx).map Context.ptroot).getD 0) walkLevels s

/-- The leaf that an address of a context has, whatever it permits. -/
def rawLeaf (s : State) (who ctx va : Nat) : Xlat := match tlbHit s who ctx va with
  | some l => .ok l
  | none => (walkFor ctx va s).1

/-- R169-R172: the translation of an address of a context (R20 has been checked), by a TLB or a walk. -/
def xlate (s : State) (who ctx va : Nat) (need : Need) : Xlat := match rawLeaf s who ctx va with
  | .ok l => permit s need (leafLevel l) l
  | r => r

/-- An entry in one TLB. -/
def putTlb (who ctx va : Nat) (l : Leaf) (s : State) : State := match tlbEntry s who ctx va with
  | some _ => s
  | none => { s with tlb := { core := who, ctx := ctx, vpn := va / 2 ^ 16, leaf := l } :: s.tlb }

/-- R12, R177: an entry that a unit used stands in its TLB and in its cluster's; a walk made for it has read the
tables at their homes. -/
def fillTlb (who ctx va : Nat) (l : Leaf) (s : State) : State :=
  let s := if (tlbHit s who ctx va).isSome then s else (walkFor ctx va s).2
  let s := putTlb who ctx va l s
  match sharedTlb who with
  | some k => putTlb k ctx va l s
  | none => s

/-! ## Loads and stores of a core -/

/-- R188: a core that has read bytes at their home keeps no line in which they differ, so that no later load of its
threads there returns an older write; the line counts as replaced (log entry 57). -/
def dropStale (core ctx tag : Nat) (ver : Bool) (pa n v : Nat) (s : State) : State :=
  { s with l1 := s.l1.filter fun l =>
      !(l.shows s core ctx tag ver pa && bits l.data.toNat (8 * (pa % 128)) (8 * n) != v) }

/-- R178: bytes read at their home (all in one sector), after recalls; a cached page's line is touched. -/
def readHome (core ctx tag : Nat) (leaf : Leaf) (pa n : Nat) (s : State) : Nat × State :=
  let s := recallLine pa (settle core (pa / 128) s)
  let v := viewSector s ctx tag leaf.ver pa n
  (v, dropStale core ctx tag leaf.ver pa n v (if leaf.cached then touchLine s (pa / 1024) 0 else s))

/-- R178, R180: bytes read by a load of a core (all in one sector): an L1 hit, or a read at the home that fills the L1
on a cached page unless the load bypasses it. -/
def readL1 (core ctx tag : Nat) (leaf : Leaf) (va pa n : Nat) (bypass : Bool) (s : State) : Nat × State :=
  let mine := s.updates.any fun u => u.core == core && u.pa / 128 == pa / 128
  let hit := if mine || bypass || !leaf.cached then none
    else s.l1.find? fun l => l.serves core (pa / 128) ctx tag
  match hit with
  | some l => (bits l.data.toNat (8 * (pa % 128)) (8 * n), s)
  | none =>
    let (v, s) := readHome core ctx tag leaf pa n s
    if bypass || !leaf.cached then (v, s)
    else
      let base := 128 * (pa / 128)
      let line : L1Line :=
        { core := core, num := pa / 128, vnum := va / 128, ctx := if tag == 0 then 0 else ctx, tag := tag
          data := BitVec.ofNat 1024 (viewSector s ctx tag leaf.ver base 128) }
      let s := makeRoom core { s with l1 := s.l1.filter fun l => !l.serves core (pa / 128) ctx tag }
      (v, { s with l1 := line :: s.l1 })

/-- R178, R180, R188, R189: a store is accepted by its core: an L1 line that is present is updated, also one of another
mapping of the bytes, and the write waits to be performed at its home. -/
def acceptStore (p : Pending) (s : State) : State :=
  let s := if p.feset then s else patchL1 p.core p.ctx p.tag p.ver p.pa p.n p.data s
  { s with pending := s.pending ++ [p] }

/-! ## Bindings, release and acquire (R190, R194) -/

/-- R194: the binding whose word lies at a virtual address of a context. -/
def bindingAt (s : State) (ctx va : Nat) : Option Binding := match s.context ctx with
  | some c => c.bindings.find? (·.word == va / 4 * 4)
  | none => none

/-- R190: what a release or an acquire acts on: the bound range of its word in its context, or everything. -/
structure Extent where
  range : Option (Nat × Nat) := none
  ctx : Nat := 0
  /-- The core whose TLB translates the range. -/
  core : Nat := 0

/-- The extent of a word. -/
def extentOf (s : State) (ctx va : Nat) : Extent :=
  { range := (bindingAt s ctx va).map fun b => (b.base, b.len), ctx := ctx, core := s.w.core }

/-- Whether bytes of a bound range are mapped where an access is. -/
def mappedAt (s : State) (core ctx b len pa n : Nat) : Bool :=
  (List.range (len / 2 ^ 16 + 2)).any fun k =>
    let a := if k == 0 then b else (b / 2 ^ 16 + k) * 2 ^ 16
    let e := min (b + len) ((a / 2 ^ 16 + 1) * 2 ^ 16)
    a < e && (match rawLeaf s core ctx a with
      | .ok l => pa < l.addr a + (e - a) && l.addr a < pa + n
      | _ => false)

/-- Whether bytes of an extent overlap an access, at its virtual address or through another mapping. -/
def Extent.hits (s : State) (e : Extent) (va pa n : Nat) : Bool := match e.range with
  | none => true
  | some (b, l) => (va < b + l && b < va + n) || mappedAt s e.core e.ctx b l pa n

/-- The accesses that an outstanding operation names, as virtual and physical addresses. -/
def Op.sites (o : Op) : List (Nat × Nat) :=
  (o.src.map fun e =>
      let va := e.2.headD 0
      (va, (((o.pages.find? (·.1 == e.1)).map fun p => if onScratch o.i then p.2.pa else p.2.addr va).getD va)))
    ++ o.spans.flatMap fun e => e.2.map fun p => (p.va, p.leaf.addr p.va)

/-- R190, R296: whether an outstanding operation must be performed before a release with an extent. -/
def Op.blocks (s : State) (e : Extent) (o : Op) : Bool :=
  o.perf != o.lanes && o.ctr != 2 &&
    (match e.range with
     | none => true
     | some _ => writesMem o.i && !onScratch o.i && o.sites.any (fun a => e.hits s a.1 a.2 16))

/-- R190, R206: whether every earlier access that a release of the focused wave waits for has been performed; `ops`
are the operations issued before it. -/
def releaseReady (s : State) (ops : List Op) (e : Extent) : Bool := !ops.any (Op.blocks s e)

/-- R190, R206: a release by a wave of a core: its stores reach the point for the scope, update-only lines of the core
are flushed, and every combining buffer of the core drains (R180). At WAVE and TEAM scope a store of a cached page has
been accepted, and one of an uncached page is acknowledged by its home (R189). -/
def releaseBy (core wave scope : Nat) (e : Extent) (s : State) : State :=
  let s := drain (fun p => p.core == core && (p.buf != 0 || (p.uncached && p.org.wave == wave && e.hits s p.va p.pa p.n))) s
  if scope < 2 then s
  else
    let s := drain (fun p => p.core == core && e.hits s p.va p.pa p.n) s
    flushUpdates (fun u => u.core == core && e.hits s u.va u.pa 8) s

/-- R190: a release by the focused wave. -/
def releaseNow (scope : Nat) (e : Extent) (s : State) : State := releaseBy s.w.core s.w.id scope e s

/-- R190: the acquire of a core: at COHORT scope or wider the L1 lines that hold bytes of the extent are invalidated. -/
def acquireNow (core scope : Nat) (e : Extent) (s : State) : State :=
  if scope < 2 then s
  else { s with l1 := s.l1.filter fun l => !(l.core == core && e.hits s (128 * l.vnum) (128 * l.num) 128) }

end Sys2Proof.Machine
end

