-- ==== Sys2Proof/Machine/Clause.lean ====
section
/-!
DEFINITION. How a wave issues (R30-R45, R79, R84, R145): selecting the lanes, fetching a clause, the header's checks
and waits, the checks of a word, and the end of a clause.
-/

namespace Sys2Proof.Machine

/-! ## Wait counters (R36, R37) -/

/-- R36: the counter of an instruction: 0 WLD, 1 WST, 2 WCP, 3 WTX. -/
def counterOf : Instr → Option Nat
  | .ld _ | .lds _ | .ldw _ | .ldc _ | .ldsw _ | .ldsc _ | .sld _ | .feget _ => some 0
  | .atom _ | .atomf _ | .cas _ | .atoms _ | .cass _ => some 0
  | .st _ | .sts _ | .stf _ | .stsf _ | .feset _ | .red _ | .redf _ | .vismin _ => some 1
  | .copy _ | .layout _ | .put _ => some 2
  | .tex _ | .texl _ | .texg _ | .tld _ | .tquery _ | .hgfetch _ | .hgscat _ | .rast _ | .attr _ => some 3
  | .rbox _ | .rtri _ | .rxfm _ | .rtrail _ => some 3
  | _ => none

/-- The value of a counter. -/
def Wave.count (w : Wave) (ctr : Nat) : Nat := (w.ops.filter (·.ctr == ctr)).length

/-- R37: whether a wait field is met; 7 imposes none. -/
def Wave.waitMet (w : Wave) (ctr k : Nat) : Bool := k == 7 || w.count ctr ≤ k

/-- R37: whether four wait fields are met. -/
def Wave.waitsMet (w : Wave) (ld st cp tx : Nat) : Bool :=
  w.waitMet 0 ld && w.waitMet 1 st && w.waitMet 2 cp && w.waitMet 3 tx

/-- R37: whether an instruction stalls because its counter holds 63. -/
def Wave.stalled (w : Wave) (i : Instr) : Bool := match counterOf i with
  | some c => !w.idle && 63 ≤ w.count c
  | none => false

/-! ## Selection (R84) -/

/-- R84: CAND. -/
def Wave.cand (w : Wave) : Lanes := if w.handler then w.ready &&& w.handlerLanes &&& ~~~w.tret else w.ready

/-- R84: LIVE. -/
def Wave.frontier (w : Wave) : Lanes :=
  let l := w.cand &&& ~~~w.demoted
  if l == 0 then w.cand else l

/-- The least of a list of addresses. -/
def leastPc : List Nat → Option Nat
  | [] => none
  | a :: as => match leastPc as with
    | none => some a
    | some b => some (min a b)

/-- R84: the issuing PC and set by comparison. -/
def Wave.compare (w : Wave) : Option (Nat × Lanes) :=
  (leastPc ((lanesOf w.frontier).map fun l => (w.pcOf l).toNat)).map fun f =>
    (f, laneSet fun l => w.cand.getLsbD l && (w.pcOf l).toNat == f)

/-- R84: the set that issues a header: PREV on the fast path when the header has BE = 0, else by comparison. -/
def Wave.issueSet (w : Wave) (h : Header) : Lanes :=
  if w.fast && !h.be then w.prev else ((w.compare).map Prod.snd).getD 0

/-! ## Fetch (R145, R230) -/

/-- The end of a fetch: the word, a trap, or a replayable fault at a level. -/
inductive Fetched where
  | word (w : Nat)
  | trap (c : Cause) (va : Nat)
  | hold (va level : Nat)

/-- R12: a line put into an instruction cache of 512 lines; when it is full, the line filled longest ago is replaced (log
entry 56). -/
def putICache (line : ILine) (s : State) : State :=
  let mine := s.icache.filter (·.core == line.core)
  let kept := match mine.getLast? with
    | some v => if mine.length < 512 then s.icache else s.icache.filter (· != v)
    | none => s.icache
  { s with icache := line :: kept }

/-- R230: a word read through the instruction cache of the wave's core, at a page that permits it. -/
def fetchCached (va : Nat) (leaf : Leaf) (s : State) : Fetched × State :=
  let w := s.w
  let ctx := s.ctxId
  let pa := leaf.addr va
  let own := fun (l : ILine) => l.core == w.core && l.num == pa / 128 && l.ctx == ctx && l.tag == w.version
  let s := fillTlb w.core ctx va leaf s
  match s.icache.find? own with
  | some l => (.word (bits l.data.toNat (8 * (pa % 128)) 32), s)
  | none =>
    let s := recallLine pa s
    match viewError s ctx w.version leaf.ver pa with
    | some c => (.trap c va, findEcc s pa)
    | none =>
      let base := 128 * (pa / 128)
      let line : ILine := { core := w.core, num := pa / 128, ctx := ctx, tag := w.version
                            data := BitVec.ofNat 1024 (viewSector s ctx w.version leaf.ver base 128) }
      let s := if leaf.cached then touchLine s (pa / 1024) 0 else s
      (.word (viewSector s ctx w.version leaf.ver pa 4), putICache line s)

/-- R145, R230: one word fetched by the focused wave, which keeps it. -/
def fetchWord (va : Nat) (s : State) : Fetched × State :=
  match s.w.fetched.find? (·.1 == va) with
  | some e => (.word e.2, s)
  | none =>
    if 2 ^ 52 ≤ va then (.trap .memXlate va, s)
    else match xlate s s.w.core s.ctxId va .fetch with
      | .replay level => (.hold va level, s)
      | .bad _ => (.trap .memXlate va, s)
      | .perm _ _ => (.trap .memPerm va, s)
      | .ok leaf =>
        let (r, s) := fetchCached va leaf s
        match r with
        | .word x => (.word x, { s with w := { s.w with fetched := s.w.fetched.insert va x } })
        | r => (r, s)

/-- R145: `n` words from an address; the first fault ends the fetch. -/
def fetchWords : Nat → Nat → State → List Nat × Option Fetched × State
  | 0, _, s => ([], none, s)
  | n + 1, va, s =>
    let (r, s) := fetchWord va s
    match r with
    | .word x =>
      let (xs, e, s) := fetchWords n (va + 4) s
      (x :: xs, e, s)
    | r => ([], some r, s)

/-- R173: a replayable translation fault of the focused wave: after the walk that met it the wave, unless it is gone, is
held, and a record is written when its fault queue has room. -/
def holdFault (again : Option Instr) (va kind level : Nat) (s : State) : State :=
  let on := s.w.on
  let s := (walkFor s.ctxId va s).2
  let w := s.w
  if w.on != on then s
  else
    let token := newToken s (w.core / 32)
    let s := { s with w := { w with hold := .fault again token va } }
    postFault (w.core / 32)
      { addr := va, ctx := s.ctxId, version := w.version, core := w.core, wave := w.slot, part := w.part, kind := kind
        level := level, reason := 0, replay := true } s

/-- R32, R145: a header trap, taken by the lanes at the issuing PC; it cannot be resumed. -/
def headerTrap (cause : Cause) (lanes : Lanes) (pc : DWord) (ins addr : Nat) (s : State) : State :=
  takeTrap { cause := cause, mask := lanes, pc := pc, ins := ins, addr := BitVec.ofNat 64 addr } lanes .ends s

/-- R145: what a failed fetch of a clause does. -/
def fetchFailed (r : Fetched) (lanes : Lanes) (pc : DWord) (ins : Nat) (s : State) : State := match r with
  | .trap c va => headerTrap c lanes pc ins va s
  | .hold va level => holdFault none va 3 level s
  | .word _ => s

/-! ## Words (R34, R35, R45) -/

/-- The trap of a word check (R45). -/
def checkCause : DecodeError → Cause
  | .illegalOp => .illegalOp
  | .beyond => .illegalClause
  | .rsvdField => .rsvdField
  | .maskRange => .maskRange
  | .regRange => .regRange

/-- R45, order 2: the word may not stand where it does in its clause: its class, a transfer or special form that is
not last, an extension word beyond N. -/
def misplaced (c : Clause) (word : Nat) : Bool :=
  let cls := (readHeader c.head).cls
  let size := simtSize word
  (cls != 7 && classOf (word % 256) != cls) || c.words.length < c.idx + size
    || (mustBeLast (word % 256) && c.idx + size != c.words.length)

/-- R295: an instruction whose register groups are checked after its descriptor, when it executes. -/
def lateRegs : Instr → Bool
  | .tex _ | .texl _ | .texg _ | .tld _ | .tquery _ | .hgfetch _ | .hgscat _ => true
  | _ => false

/-- R45: the checks of the word at an index of its clause, in order; the instruction when all pass. -/
def checkWord (nregs : Nat) (c : Clause) (word : Nat) : Except DecodeError Instr :=
  if opIllegal word then .error .illegalOp
  else if misplaced c word then .error .beyond
  else
    let ext := if simtSize word == 2 then c.words[c.idx + 1]? else none
    match decodeSimt word ext with
    | .error e => .error e
    | .ok i => if !lateRegs i && i.vregs.any (nregs ≤ ·) then .error .regRange else .ok i

/-! ## The choice of a wave (R79-R82) -/

/-- The word at an address as the focused wave would fetch it. -/
def peekWord (s : State) (va : Nat) : Option Nat := match (fetchWord va s).1 with
  | .word x => some x
  | _ => none

/-- R84, R145: the header that the focused wave, at a clause boundary, would issue, and its address: `none` when no lane
may issue, `some (pc, none)` when its word cannot be fetched. -/
def nextHeader (s : State) : Option (Nat × Option Nat) :=
  let byCompare := s.w.compare.map fun x => (x.1, peekWord s x.1)
  if s.w.fast then
    let pc := (s.w.pcOf (lowest s.w.prev)).toNat
    match peekWord s pc with
    | some h => if (readHeader h).be then byCompare else some (pc, some h)
    | none => some (pc, none)
  else byCompare

/-- R79: whether the focused wave is ready: it is not held, and either its next word does not stall or it stands at a
header whose waits are met. A squash and a late trap are taken at a clause boundary without a header (R371, R204), and a
header that cannot be fetched, or that fails its checks, traps without its waits. -/
def readyNow (s : State) : Bool :=
  let w := s.w
  w.on && !w.ended && w.hold == .none && (match w.clause with
    | some c => c.refetch || (match checkWord w.nregs c (c.words.getD c.idx 0) with
      | .ok i => !w.stalled i
      | .error _ => true)
    | none => w.squash || (!w.handler && !w.late.isEmpty) || (match nextHeader s with
      | none => false
      | some (_, none) => true
      | some (_, some h) =>
        let hd := readHeader h
        (headerFault h).isSome || w.waitsMet hd.wld hd.wst hd.wcp hd.wtx))

/-- R79: whether a wave is ready. -/
def waveReady (s : State) (w : Wave) : Bool := readyNow { s with w := w }

/-- R79: whether the focused wave comes before another of its partition: its last issue is older, or as old and its
wave context number lower. -/
def Wave.before (w x : Wave) : Bool := w.last < x.last || (w.last == x.last && w.slot ≤ x.slot)

/-- The other waves of the focused wave's partition. -/
def partners (s : State) : List Wave := s.waves.filter fun x => x.core == s.w.core && x.part == s.w.part

/-- R80: whether a wave of the focused wave's partition is still to issue in the slot taken last. -/
def owedReady (s : State) : Bool := (partners s).any fun x => x.owed != 0 && waveReady s x

/-- R79: whether the partition chooses the focused wave: no slot taken is still to be filled, and the wave is ready and
comes before every other ready wave. -/
def chosen (s : State) : Bool :=
  readyNow s && !owedReady s && (partners s).all fun x => s.w.before x || !waveReady s x

/-- R79, R80: whether the focused wave may issue now: in the slot taken last, or because it is chosen. -/
def mayIssue (s : State) : Bool := (s.w.owed != 0 && readyNow s) || chosen s

/-- A wave put before the first of a list that it comes before (R79). -/
def insertWave (x : Wave) : List Wave → List Wave
  | [] => [x]
  | y :: ys => if x.before y then x :: y :: ys else y :: insertWave x ys

/-- Waves in the order of R79. -/
def orderWaves (ws : List Wave) : List Wave := ws.foldr insertWave []

/-- R80: the waves of a list that fit one after the other beside those that take some of the 64 lanes. -/
def fitLanes : Nat → List Wave → List Wave
  | _, [] => []
  | n, x :: xs => if n + x.width ≤ 64 then x :: fitLanes (n + x.width) xs else fitLanes n xs

/-- R80: whether a wave of the partition may be packed beside the focused wave at the header at an address: it is of the
same team, ready, and about to issue the same header. -/
def packable (s : State) (pc : Nat) (x : Wave) : Bool :=
  x.cohort == s.w.cohort && x.rank == s.w.rank && waveReady s x && x.clause.isNone && !x.squash
    && (x.handler || x.late.isEmpty) && ((nextHeader { s with w := x }).any fun h => h.1 == pc && h.2.isSome)

/-- R80: whether a wave of the partition stays in the focused wave's packed group: it is ready, at the same word of the
same clause. -/
def staysPacked (s : State) (x : Wave) : Bool := match s.w.clause, x.clause with
  | some c, some d => s.w.pack != 0 && x.pack == s.w.pack && d.hdr == c.hdr && d.idx == c.idx && waveReady s x
  | _, _ => false

/-- An issue slot (R79, R80): its number, whether a header issues in it, whether the issue opens it, and the waves packed
beside the one that does. -/
structure Slot where
  num : Nat
  header : Bool
  opened : Bool
  group : List Nat := []

/-- R79, R80: the slot in which the focused wave issues: the one taken last, in which it is still to issue, or a new one,
in which its partition packs other waves beside it. -/
def issueSlot (header : Bool) (s : State) : Slot :=
  if s.w.owed != 0 then { num := s.w.owed, header := header, opened := false }
  else
    let group := if header then
        match nextHeader s with
        | some (pc, _) => fitLanes s.w.width (orderWaves ((partners s).filter (packable s pc)))
        | none => []
      else (partners s).filter (staysPacked s)
    { num := s.slots + 1, header := header, opened := true, group := group.map Wave.id }

/-- R80: what an issue of a wave makes of another: in a slot that it opens, the waves packed beside it are to issue too,
and one of its group that is not leaves the group. A wave that yields sees it (R153). -/
def Slot.seen (k : Slot) (me x : Wave) : Wave :=
  if !(x.core == me.core && x.part == me.part) then x
  else
    let x := match x.hold with
      | .yield ws t => { x with hold := .yield (ws.filter (· != me.id)) t }
      | _ => x
    if !k.opened then x
    else if k.group.contains x.id then { x with owed := k.num, pack := if k.header then k.num else x.pack }
    else { x with owed := 0, pack := if !k.header && x.pack == me.pack then 0 else x.pack }

/-! ## Late traps (R204) -/

/-- R204, R167: the focused wave, at a clause boundary outside handler mode, takes the first late trap it holds. Its lanes
that have not exited are the handler lanes, which TRAPMASK names; those that are parked leave the parked state and withdraw their records. -/
def takeLate (s : State) : State := match s.w.late with
  | [] => s
  | t :: ts =>
    let w := { s.w with late := ts }
    let lanes := t.mask &&& w.live
    if lanes == 0 then lateUntaken w (w.core / 4) s.ctxId [t] { s with w := w }
    else
      let stay := w.parks.filter fun p => !lanes.getLsbD p.lane
      let mem := freeCloaks stay (w.parks.filter fun p => lanes.getLsbD p.lane) s.mem
      let w := { w with
        parked := w.parked &&& ~~~lanes, fast := false, parks := stay
        waitOn := w.waitOn.filter fun e => !lanes.getLsbD e.1 }
      let addr := ((t.addrs.find? (·.1 == lowest lanes)).map fun e => BitVec.ofNat 64 e.2).getD t.addr
      takeTrap { cause := t.cause, mask := lanes, pc := t.pc, ins := t.word, dst := t.dst, addr := addr }
        lanes .perLane { s with w := w, mem := mem }

/-! ## Headers (R31-R33) -/

/-- R79, R80: an issue of the focused wave in a slot. A header and the first word of its clause issue in one slot (log
entry 49). -/
def noteIssue (k : Slot) (s : State) : State :=
  let me := s.w
  { s with
    slots := max s.slots k.num
    w := { me with last := k.num, pack := if k.header then k.num else me.pack, owed := if k.header then k.num else 0 }
    waves := s.waves.map (k.seen me) }

/-- The trap of a header check (R32). -/
def headerCause : DecodeError → Cause
  | .rsvdField => .rsvdField
  | _ => .illegalClause

/-- R33: the lanes of a set that the guard selects. -/
def Wave.guard (w : Wave) (h : Header) (lanes : Lanes) : Lanes :=
  if h.ge then lanes &&& (if h.gn then ~~~w.preds h.gp else w.preds h.gp) else lanes

/-- R33, R84: the clause begins: its lanes stand at the next header, and PREV and FASTPATH are set. -/
def beginClause (pc : DWord) (h : Nat) (words : List Nat) (issue : Lanes) (s : State) : State :=
  let w := s.w
  let c : Clause := { hdr := pc, head := h, words := words, idx := 0, at_ := 0, issue := issue
                      active := w.guard (readHeader h) issue }
  noteIssue (issueSlot true s)
    { s with w := { Wave.putPc (fun _ => c.next) (lanesOf issue) w with clause := some c, prev := issue, fast := true } }

/-- R32, R33, R37, R84, R145: the header at the issuing PC of the focused wave is issued: its checks, the fetch of its
words, its waits, its guard. A wave whose version was squashed is killed here (R371), and a late trap is taken here
(R204). -/
def issueHeader (h : Nat) (s : State) : State :=
  let w := s.w
  if !w.on || w.ended || w.clause.isSome then s
  else if w.squash then killFocused s
  else if !w.handler && !w.late.isEmpty then takeLate s
  else
    let hd := readHeader h
    let issue := w.issueSet hd
    let pc := w.pcOf (lowest issue)
    if issue == 0 then s
    else match headerFault h with
      | some e => headerTrap (headerCause e) issue pc h 0 s
      | none =>
        let (words, bad, s) := fetchWords hd.n (pc.toNat + 4) s
        match bad with
        | some r => fetchFailed r issue pc h s
        | none => if s.w.waitsMet hd.wld hd.wst hd.wcp hd.wtx then beginClause pc h words issue s else s

/-- What a turn of the focused wave does: a finished change, or an instruction to execute. -/
inductive Issue where
  | done (s : State)
  | run (i : Instr) (s : State)

/-- R37, R45: the next word of the clause in progress. -/
def wordTurn (c : Clause) (s : State) : Issue :=
  let word := c.words.getD c.idx 0
  let next := { c with at_ := c.idx, idx := c.idx + simtSize word }
  let go := noteIssue (issueSlot false s) { s with w := { s.w with clause := some next } }
  match checkWord s.w.nregs c word with
  | .error e => .done (raiseCheck (checkCause e) go)
  | .ok i => if s.w.stalled i then .done s else .run i go

/-- R145: the words still to run of a clause that TRET resumes are fetched again. -/
def refetch (c : Clause) (s : State) : State :=
  let (ws, bad, s) := fetchWords (c.words.length - c.idx) (c.hdr.toNat + 4 + 4 * c.idx) s
  match bad with
  | some r => fetchFailed r c.issue c.hdr c.head s
  | none => { s with w := { s.w with clause := some { c with words := c.words.take c.idx ++ ws, refetch := false } } }

/-- R84, R145: the header at the issuing PC is fetched. On the fast path the next header is read first; its BE decides
whether a comparison is made. When that header cannot be fetched its BE is not known: the fault is met by PREV, the set
that would issue without a comparison (log entry 55). -/
def boundaryTurn (s : State) : Issue :=
  let w := s.w
  if w.squash || (!w.handler && !w.late.isEmpty) then .run (.clauseHeader 0) s
  else
    let byCompare := fun (s : State) => match (s.w.compare) with
      | none => Issue.done s
      | some (pc, lanes) =>
        let (r, s) := fetchWord pc s
        match r with
        | .word h => .run (.clauseHeader h) s
        | r => .done (fetchFailed r lanes (BitVec.ofNat 64 pc) 0 s)
    if w.fast then
      let (r, s1) := fetchWord (w.pcOf (lowest w.prev)).toNat s
      match r with
      | .word h => if (readHeader h).be then byCompare { s1 with w := { s1.w with fast := false } } else .run (.clauseHeader h) s1
      | r => .done (fetchFailed r w.prev (w.pcOf (lowest w.prev)) 0 s1)
    else byCompare s

/-- R149: the end of a clause: when its last word has executed, the lanes that executed WAITM park. -/
def afterWord (s : State) : State := match s.w.clause with
  | none => s
  | some c =>
    if s.w.hold != .none || c.idx < c.words.length then s
    else { s with w := ({ s.w with clause := none }).parkNow }

/-- R157, R158: a wave held by BARS: it goes on, with its acquire, once the phase has completed. -/
def barrierTurn (b : Nat) (token : Word) (s : State) : State :=
  match (s.myCohort.bind fun c => c.bars[b]?) with
  | some x =>
    if x.gen == token then s
    else afterWord (acquireNow s.w.core 2 {} { s with w := { s.w with hold := .none } })
  | none => s

/-- R241, R246: the end of a CWAIT: its result, then its acquire. -/
def cwaitEnd (d : Nat) (v : Word) (s : State) : State := acquireNow s.w.core 2 {} (writeS d v s)

/-- R241: a wave held by CWAIT goes on once its condition has held at an engine step. -/
def cwaitTurn (d : Nat) (res : Option Word) (s : State) : State := match res with
  | some v => afterWord (cwaitEnd d v { s with w := { s.w with hold := .none } })
  | none => s

/-- R79, R80, R83: a turn of the focused wave; it issues only when its partition chooses it. -/
def issueTurn (s : State) : Issue :=
  let w := s.w
  if !w.on || w.ended then .done s
  else match w.hold with
    | .again i => .run i { s with w := { w with hold := .none } }
    | .barrier b t => .done (barrierTurn b t s)
    | .cwait _ _ _ d res => .done (cwaitTurn d res s)
    | .fault _ _ _ => .done s
    | .sleep _ => .run .evSleepEnd s
    | .yield _ _ => .run .evYieldEnd s
    | .none =>
      if !mayIssue s then .done s
      else match w.clause with
        | some c => if c.refetch then .done (refetch c s) else wordTurn c s
        | none => boundaryTurn s

/-! ## Fetching ahead (R30, R230) -/

/-- A word that a wave holds: fetched, or of its clause in progress. -/
def Wave.heldWord (w : Wave) (va : Nat) : Option Nat := match (w.fetched.find? (·.1 == va)).map Prod.snd with
  | some x => some x
  | none => w.clause.bind fun c =>
    let k := (va - c.hdr.toNat) / 4
    if va < c.hdr.toNat || va % 4 != 0 then none else if k == 0 then some c.head else c.words[k - 1]?

/-- The words of a clause that a wave holds, up to the first that it does not. -/
def Wave.heldWords (w : Wave) (va : Nat) : Nat → List Nat
  | 0 => []
  | n + 1 => match w.heldWord va with
    | some x => x :: w.heldWords (va + 4) n
    | none => []

/-- The last instruction of a clause's words, with its extension or immediate word. -/
def lastInstr : List Nat → Option (Nat × Option Nat)
  | [] => none
  | [w] => if simtSize w == 1 then some (w, none) else none
  | w :: e :: rest =>
    if simtSize w == 2 then (if rest.isEmpty then some (w, some e) else lastInstr rest) else lastInstr (e :: rest)

/-- The targets that a transfer of a clause may give a lane, as the registers of the wave stand (R144). -/
def transferTargets (w : Wave) (hdr : DWord) : Instr → List Nat
  | .bra f => [(hdr + 4 * (BitVec.ofNat 20 f.off).signExtend 64).toNat]
  | .call f => [(hdr + (BitVec.ofNat 32 f.imm).signExtend 64).toNat]
  | .brx f | .ret f | .callx f =>
    (lanesOf w.live).map fun l => (w.pairA f l).toNat
  | _ => []

/-- The clause headers that may follow the clause at an address whose header the wave holds (R30): the next one, and the
targets of its transfer. -/
def headsAfter (w : Wave) (va : Nat) : List Nat := match w.heldWord va with
  | none => []
  | some h =>
    if (headerFault h).isSome then []
    else
      let n := (readHeader h).n
      let ws := w.heldWords (va + 4) n
      let targets := if ws.length != n then [] else match lastInstr ws with
        | some (x, e) => match decodeSimt x e with
          | .ok i => transferTargets w (BitVec.ofNat 64 va) i
          | .error _ => []
        | none => []
      (va + 4 * (n + 1)) :: targets

/-- The clause headers reached from a list, each through headers that the wave holds; `fuel` bounds the rounds. -/
def headsFrom (w : Wave) : Nat → List Nat → List Nat
  | 0, hs => hs
  | n + 1, hs => headsFrom w n ((hs ++ hs.flatMap (headsAfter w)).eraseDups)

/-- The clause headers at which lanes of the wave stand or may stand next: their PCs, the header after its clause and
those that its transfer may name, where TRET resumes, and its trap handler. -/
def headsNow (s : State) : List Nat :=
  let w := s.w
  (lanesOf w.live).map (fun l => (w.pcOf l).toNat)
    ++ (w.clause.map fun c => headsAfter w c.hdr.toNat).getD []
    ++ (match w.resume with
        | .next pc => [pc.toNat]
        | .clause c => [c.next.toNat]
        | .perLane => w.resumePc.map fun e => e.2.toNat
        | _ => [])
    ++ ((s.myLaunch.bind fun l => l.kernel.traph).map BitVec.toNat).toList

/-- R30, R230: whether an address is that of a clause header, or of a word that its N covers, on a path that lanes of the
focused wave may take (log entry 71). -/
def aheadOk (s : State) (va : Nat) : Bool :=
  let heads := headsFrom s.w (s.w.fetched.length + 1) (headsNow s)
  heads.contains va || heads.any fun h => match s.w.heldWord h with
    | some x => (headerFault x).isNone && h < va && va ≤ h + 4 * (readHeader x).n && (va - h) % 4 == 0
    | none => false

/-- CLAUSE_HEADER (R31-R33): the header at the issuing PC is issued. -/
def execClauseHeader (h : Nat) (s : State) : Out := .next (issueHeader h s)

end Sys2Proof.Machine
end

