-- ==== Sys2Proof/Config.lean ====
section
/-!
DEFINITION. What the spec leaves open about values: each constant here has no body, so nothing can be proved of the
value it gives. A counter of the state (`State.fresh`), or the place a value is read from, is its argument.
-/

namespace Sys2Proof.Config

/-- R18: what a byte of scratch or column holds at its placement, by owner tag and offset (log entry 3). -/
opaque freeScratch : Nat → Nat → BitVec 8

/-- R214, R18: the full/empty bit of a scratch word at its placement, by owner tag and word (log entry 4). -/
opaque freeScratchFull : Nat → Nat → Bool

/-- R70: the low bits that an approximate chunk step leaves, by a counter (log entry 5). -/
opaque freePerturb : Nat → BitVec 32

/-- Readings of sensors and meters that come from outside the model, by sensor and a counter (log entry 15). -/
opaque freeSensor : Nat → Nat → Nat

/-- R440: a 32-bit field of an event record that the spec leaves open, by a counter (log entry 41). -/
opaque freeWord : Nat → BitVec 32

/-- R434: the public key of the device identity derived at a boot (log entry 15). -/
opaque publicKey : Nat → Nat

/-- R434: the signature over the digests of the images that run, under the identity of a boot (log entry 15). -/
opaque signature : Nat → List (Nat × BitVec 8) → Nat

/-- R432: the version that an image carries; the spec does not say where (log entry 43). -/
opaque imageVersion : List (Nat × BitVec 8) → Nat

end Sys2Proof.Config
end

