-- ==== Sys2Proof/Machine/Access.lean ====
section
/-!
DEFINITION. Memory operations of a wave: addresses (R42), the checks at issue (R203), scratch (R20-R22), the counted
operation as it is performed lane by lane and lands its results (R36-R38, R189, R202-R206), and the log of a
speculative version (R362).
-/

namespace Sys2Proof

/-- R42, R202: the bytes of an access of format M. -/
def MF.bytes (f : MF) : Nat := match f.w with
  | 0 => 4
  | 1 => 8
  | 2 => 16
  | _ => 2

/-- R42: the offset of an M word whose OFF7 counts units, as a 64-bit value. -/
def MF.offset (f : MF) (unit : Nat) : DWord := match f.mx with
  | none => BitVec.ofNat 64 (f.off * unit)
  | some x => (BitVec.ofNat 24 x.off24).signExtend 64

/-- R202: the unit of OFF7 of an access of n bytes. -/
def offUnit (n : Nat) : Nat := if n == 2 then 4 else n

/-- R42: the offset of an AM word. -/
def AM.offset (f : AM) : DWord := (BitVec.ofNat 22 f.ax.off22).signExtend 64

namespace Machine

/-! ## Addresses (R42) -/

/-- A global address of a lane. -/
def globalAddr (w : Wave) (a : Nat) (off : DWord) (l : Nat) : Nat := (w.vpair l a + off).toNat
/-- A scratch offset of a lane; it wraps at 32 bits. -/
def scratchOff (w : Wave) (a : Nat) (off : DWord) (l : Nat) : Nat := (w.vreg l a + off.setWidth 32).toNat

/-- The data of n bytes in the registers of a lane from r upwards (R202). -/
def regData (w : Wave) (l r : Nat) : Nat → Nat
  | 0 => 0
  | k + 1 => regData w l r k + (w.vreg l (r + k)).toNat * 2 ^ (32 * k)

/-- The data of an access of n bytes. -/
def storeData (w : Wave) (l r n : Nat) : Nat := regData w l r ((n + 3) / 4) % 2 ^ (8 * n)

/-! ## Scratch (R18-R22) -/

/-- R21, R22: the cell address (owner tag × 2^28 + offset) of an access of n bytes at a scratch offset, for the team of
a rank whose cohort has these owner tags and declared these sizes; or none. -/
def cellAt (tags : List Nat) (rank scratch column off n : Nat) : Option Nat :=
  let at_ := fun (rank o limit base : Nat) =>
    if o + n ≤ limit then (tags[rank]?).map fun t => t * 2 ^ 28 + base + o else none
  if off < 0x50000 then at_ rank off scratch 0
  else if 0x100000 ≤ off && off < 0x500000 then
    if off % 0x100000 < 0x50000 then at_ (off / 0x100000 - 1) (off % 0x100000) scratch 0 else none
  else if 0x1000000 ≤ off && off < 0x3000000 then at_ rank (off - 0x1000000) column 0x1000000
  else none

/-- The cell of an access of the focused wave. -/
def scratchCell (s : State) (off n : Nat) : Option Nat :=
  match s.myCohort, s.myLaunch with
  | some c, some l => cellAt c.tags s.w.rank l.kernel.scratch l.kernel.column off n
  | _, _ => none

/-- A byte of scratch or column; a byte not written since placement holds a free value (R18). -/
def scratchByte (m : List Host.Cell) (a : Nat) : BitVec 8 := match m.find? (·.1 == a) with
  | some e => e.2
  | none => Config.freeScratch (a / 2 ^ 28) (a % 2 ^ 28)

/-- n bytes of scratch as a number. -/
def readScratch (m : List Host.Cell) (a : Nat) : Nat → Nat
  | 0 => 0
  | n + 1 => (scratchByte m a).toNat + 256 * readScratch m (a + 1) n

/-- n bytes of scratch written; every byte written is listed, whatever its value. -/
def writeScratch (m : List Host.Cell) (a : Nat) : Nat → Nat → List Host.Cell
  | 0, _ => m
  | n + 1, v => writeScratch ((SMap.erase m a).insert a (BitVec.ofNat 8 v)) (a + 1) n (v / 256)

/-- R186: the full/empty bit of a scratch word; free until it is first written (R214). -/
def scratchFull (s : State) (a : Nat) : Bool := match s.scratchFe.find? (·.1 == a) with
  | some e => e.2
  | none => Config.freeScratchFull (a / 2 ^ 28) (a % 2 ^ 28)

/-- R216, R218: a write to scratch words whose block has its waiters bit set frees their records; the bit is cleared when
no record of the block is left. -/
def wakeScratch (a n : Nat) (s : State) : State :=
  let inRange := fun (b : Nat) => a / 128 ≤ b && b * 128 < a + n
  if !s.scratchWait.any inRange then s
  else
    let hit := fun (p : Park) => p.scratch && p.level != 0 && a < p.pa + 4 && p.pa < a + n
    let s := mapWaves
      (fun w => { w with parks := w.parks.map fun p => if hit p then { p with woken := true, level := 0 } else p }) s
    { s with scratchWait := s.scratchWait.filter fun b => !inRange b
        || (allWaves s).any fun w => w.parks.any fun p => p.scratch && p.level != 0 && p.pa / 128 == b }

/-- R200: bytes written at their scratch bank. -/
def storeScratch (a n v : Nat) (s : State) : State :=
  wakeScratch a n { s with scratch := writeScratch s.scratch a n v }

/-- R214: the full/empty bit of a scratch word written. -/
def setScratchFe (a : Nat) (full : Bool) (s : State) : State :=
  wakeScratch a 4 { s with scratchFe := (SMap.erase s.scratchFe a).insert a full }

/-! ## Checks at issue (R203) -/

/-- What an instruction asks of each lane's global access (R172, R203). `write` is refused under a speculative version
with a LIVE child (R361); `spec` names the operations that a speculative version may not make on an unversioned page
(R362). -/
structure Ask where
  need : Need
  fe : Bool := false
  write : Bool := false
  spec : Bool := false
  deriving DecidableEq, Repr

/-- The outcome of the checks of one lane. -/
inductive Check where
  | ok (leaf : Leaf)
  | trap (c : Cause)
  | replay (level : Nat)
  deriving DecidableEq, Repr

/-- R203: the checks of one global access of n bytes by a unit under a tag, in order. -/
def checkAt (s : State) (who ctx tag : Nat) (ask : Ask) (n va : Nat) : Check :=
  if va % n != 0 then .trap .memAlign
  else if 2 ^ 52 ≤ va then .trap .memXlate
  else match xlate s who ctx va ask.need with
    | .replay level => .replay level
    | .bad _ => .trap .memXlate
    | .perm _ _ => .trap .memPerm
    | .ok leaf =>
      if ask.fe && !leaf.fe then .trap .fePage
      else if tag != 0 && leaf.ver && ask.write && !(children s ctx tag).isEmpty then .trap .version
      else if tag != 0 && !leaf.ver && ask.spec then .trap .specExt
      else .ok leaf

/-- R203: the checks of one access of the focused wave. A refused translation fault is MEM_XLATE (R173). -/
def checkGlobal (s : State) (ask : Ask) (n va : Nat) : Check :=
  if s.w.refused == some va then .trap .memXlate
  else match checkAt s s.w.core s.ctxId s.w.version ask n va with
    | .replay level => if s.w.refused.isSome then .trap .memXlate else .replay level
    | r => r

/-- R203: the failure of the lowest-numbered lane that fails. -/
def firstFail (c : Nat → Check) : List Nat → Option (Nat × Check)
  | [] => none
  | l :: ls => match c l with
    | .ok _ => firstFail c ls
    | r => some (l, r)

/-- R203: what failing checks do: the trap of the lowest failing lane's cause, for every lane that fails with it, or a
replay (R173). `again` is executed again on RESUME. -/
def failChecks (c : Nat → Check) (va : Nat → Nat) (lanes : List Nat) (dst kind : Nat) (again : Instr) (l : Nat)
    (r : Check) (s : State) : State := match r with
  | .trap cause =>
    raise cause (laneSet fun k => lanes.contains k && c k == .trap cause) dst (BitVec.ofNat 64 (va l)) s
  | .replay level => holdFault (some again) (va l) kind level s
  | .ok _ => s

/-- The pages that the checks of a list of lanes found, and the TLB filled with them. -/
def pagesOf (c : Nat → Check) : List Nat → List (Nat × Leaf)
  | [] => []
  | l :: ls => match c l with
    | .ok leaf => (l, leaf) :: pagesOf c ls
    | _ => pagesOf c ls

/-- R177: the pages used stand in the TLB of the wave's core. -/
def fillPages (va : Nat → Nat) (ps : List (Nat × Leaf)) (s : State) : State :=
  ps.foldl (fun s p => fillTlb s.w.core s.ctxId (va p.1) p.2 s) s

/-- R203: an access of the focused wave's lanes, checked; `go` continues with the pages found. -/
def checked (ask : Ask) (n : Nat) (va : Nat → Nat) (lanes : List Nat) (dst kind : Nat) (again : Instr)
    (go : List (Nat × Leaf) → State → State) (s : State) : State :=
  let c := fun l => checkGlobal s ask n (va l)
  match firstFail c lanes with
  | some (l, r) => failChecks c va lanes dst kind again l r s
  | none => go (pagesOf c lanes) (fillPages va (pagesOf c lanes) s)

/-- R203: scratch offsets of lanes, checked for alignment and range. -/
def checkScratch (s : State) (n off : Nat) : Check :=
  if off % n != 0 then .trap .memAlign
  else match scratchCell s off n with
    | none => .trap .memXlate
    | some a => .ok { pa := a, bits := 28, r := true, w := true, x := false, cache := 0, rm := false, fe := true
                      ver := false, key := 0, node := 0 }

/-- R203: a scratch access of the focused wave's lanes, checked. The page of a lane is its cell. -/
def checkedScratch (n : Nat) (off : Nat → Nat) (lanes : List Nat) (dst : Nat) (again : Instr)
    (go : List (Nat × Leaf) → State → State) (s : State) : State :=
  let c := fun l => checkScratch s n (off l)
  match firstFail c lanes with
  | some (l, r) => failChecks c off lanes dst 0 again l r s
  | none => go (pagesOf c lanes) s

/-! ## Instructions that make several accesses (R297) -/

/-- The order of R203 at which an access fails. -/
def checkRank (va : Nat) : Check → Nat
  | .trap .memXlate => if 2 ^ 52 ≤ va then 0 else 2
  | .replay _ => 1
  | .trap .memPerm => 2
  | .trap .fePage => 3
  | _ => 4

/-- The first failure of a list of accesses (address, bytes) of a lane, in the order of R203. -/
def spansFail (s : State) (ask : Ask) (ps : List (Nat × Nat)) : Option (Nat × Check) :=
  let bad := (ps.map fun p => (p.1, checkGlobal s ask p.2 p.1)).filter fun x => match x.2 with
    | .ok _ => false
    | _ => true
  (List.range 5).foldl (fun (r : Option (Nat × Check)) k => match r with
    | some _ => r
    | none => bad.find? fun x => checkRank x.1 x.2 == k) none

/-- The checked accesses of a lane with their pages. -/
def spansOf (s : State) (ask : Ask) (ps : List (Nat × Nat)) : List Span :=
  ps.filterMap fun p => match checkGlobal s ask p.2 p.1 with
    | .ok leaf => some { va := p.1, n := p.2, leaf := leaf }
    | _ => none

/-- R297: every access of every lane checked before any is made; `go` continues with them. -/
def checkedSpans (ask : Ask) (kind dst : Nat) (again : Instr) (ps : Nat → List (Nat × Nat)) (lanes : List Nat)
    (go : SMap (List Span) → State → State) (s : State) : State :=
  let fails := lanes.filterMap fun l => (spansFail s ask (ps l)).map fun r => (l, r)
  match fails with
  | [] =>
    let sp := lanes.map fun l => (l, spansOf s ask (ps l))
    go sp ((sp.flatMap Prod.snd).foldl (fun s p => fillTlb s.w.core s.ctxId p.va p.leaf s) s)
  | (_, va, .replay level) :: _ => holdFault (some again) va kind level s
  | (_, va, c) :: _ =>
    match c with
    | .trap cause =>
      raise cause (laneSet fun k => fails.any fun f => f.1 == k && f.2.2 == .trap cause) dst (BitVec.ofNat 64 va) s
    | _ => s

/-! ## Counted operations -/

/-- R36, R202: an operation issued: it joins its counter with its operands as read now. -/
def pushOp (i : Instr) (ctr : Nat) (lanes : List Nat) (src : Nat → List Nat) (pages : List (Nat × Leaf)) (s : State) :
    State :=
  let w := s.w
  let o : Op := { ctr := ctr, i := i, pc := w.wordPc, word := w.word, lanes := laneSet fun l => lanes.contains l
                  src := lanes.map fun l => (l, src l), pages := pages, act := w.active
                  version := w.version, num := s.nextId }
  { s with w := { w with ops := w.ops ++ [o] }, nextId := s.nextId + 1 }

/-- R36: an operation of an engine issued with the accesses of its lanes; `aux` is a descriptor. -/
def pushEngine (i : Instr) (lanes : List Nat) (src : Nat → List Nat) (aux : List Nat) (spans : SMap (List Span))
    (s : State) : State :=
  let w := s.w
  let o : Op := { ctr := 3, i := i, pc := w.wordPc, word := w.word, lanes := laneSet fun l => lanes.contains l
                  src := lanes.map fun l => (l, src l), aux := aux, spans := spans, act := w.active
                  version := w.version, num := s.nextId }
  { s with w := { w with ops := w.ops ++ [o] }, nextId := s.nextId + 1 }

/-- The operands of a lane of an operation. -/
def Op.args (o : Op) (l : Nat) : List Nat := SMap.get [] o.src l
/-- The page of a lane of an operation. -/
def Op.page (o : Op) (l : Nat) : Option Leaf := (o.pages.find? (·.1 == l)).map Prod.snd
/-- Where the access of a lane lies: a physical address, or a scratch cell. -/
def Op.place (o : Op) (l : Nat) : Nat := match o.page l with
  | some leaf => if onScratch o.i then leaf.pa else leaf.addr ((o.args l).headD 0)
  | none => (o.args l).headD 0

/-- R204: who makes the access of a lane of an operation of the focused wave. -/
def Op.origin (o : Op) (s : State) (l : Nat) : Origin :=
  { wave := s.w.id, core := s.w.core, slot := s.w.slot, part := s.w.part, cohort := s.w.cohort, ctx := s.ctxId
    cver := s.w.cver, lane := l, pc := o.pc, word := o.word, dst := destReg o.i, va := (o.args l).headD 0 }

/-- R190: the ORDER and SCOPE that an instruction carries. -/
def orderOf : Instr → Nat × Nat
  | .ld f | .st f | .lds f | .sts f | .sld f | .feset f | .feget f => (f.m.order, f.m.scope)
  | .atom f | .atomf f | .cas f | .atoms f | .cass f => (f.ax.order, f.ax.scope)
  | .ldw f | .ldc f | .ldsw f | .ldsc f => (1, f.m.scope)
  | .stf f | .stsf f => (2, f.m.scope)
  | .red f | .redf f | .vismin f => (0, f.ax.scope)
  | _ => (0, 0)

/-- Whether an ORDER holds an acquire. -/
def acquires (o : Nat) : Bool := o == 1 || o == 3
/-- Whether an ORDER holds a release. -/
def releases (o : Nat) : Bool := o == 2 || o == 3

/-- The bytes of an access of an instruction. -/
def accessBytes : Instr → Nat
  | .ld f | .st f | .lds f | .sts f | .sld f => f.bytes
  | .atom f => rmwBytes (.atom f)
  | .red f => rmwBytes (.red f)
  | .atoms f => rmwBytes (.atoms f)
  | .cas f => rmwBytes (.cas f)
  | .cass f => rmwBytes (.cass f)
  | .vismin f => rmwBytes (.vismin f)
  | _ => 4

/-- The results of an n-byte value in the registers of a lane from d upwards. -/
def landV (l d v : Nat) : Nat → List Land
  | 0 => []
  | k + 1 => landV l d v k ++ [{ kind := 1, lane := l, reg := d + k, slot := k, val := BitVec.ofNat 32 (v / 2 ^ (32 * k)) }]

/-- What the performance of one lane gives: its results, the errors found with their addresses (R204), and the numbers of
its stores. -/
structure Done where
  res : List Land := []
  errs : List (Cause × Nat) := []
  homes : List Nat := []

/-- The loaded value's registers. -/
def landLoad (i : Instr) (l v : Nat) : List Land := match i with
  | .ld f => landV l f.d v ((f.bytes + 3) / 4)
  | .lds f => landV l f.d v ((f.bytes + 3) / 4)
  | .sld f => (landV l f.d v (f.bytes / 4)).map fun x => { x with kind := 2 }
  | .feget f => landV l f.d v 1
  | .atom f => landV l f.d v (rmwBytes (.atom f) / 4)
  | .atoms f => landV l f.d v (rmwBytes (.atoms f) / 4)
  | .atomf f => landV l f.d v 1
  | .cas f => landV l f.d v (rmwBytes (.cas f) / 4)
  | .cass f => landV l f.d v (rmwBytes (.cass f) / 4)
  | _ => []

/-- R225: the predicate of a compare-and-swap. -/
def landSwap (i : Instr) (l old b : Nat) : List Land := match i with
  | .cas f => [{ kind := 3, lane := l, reg := f.ax.aop % 8, slot := 2
                 val := if old == b % 2 ^ (8 * rmwBytes (.cas f)) then 1 else 0 }]
  | .cass f => [{ kind := 3, lane := l, reg := f.ax.aop % 8, slot := 2
                  val := if old == b % 2 ^ (8 * rmwBytes (.cass f)) then 1 else 0 }]
  | _ => []

/-- R225: whether an atomic writes its location: a compare-and-swap does on success only. -/
def rmwWrites (i : Instr) (old b : Nat) : Bool := match i with
  | .cas f => old == b % 2 ^ (8 * rmwBytes (.cas f))
  | .cass f => old == b % 2 ^ (8 * rmwBytes (.cass f))
  | _ => true

/-- R200: one lane of a scratch operation performed at its bank. -/
def performScratch (o : Op) (l a : Nat) (s : State) : Done × State :=
  let n := accessBytes o.i
  let b := (o.args l).getD 1 0
  let old := readScratch s.scratch a n
  match o.i with
  | .lds _ => ({ res := landLoad o.i l old }, s)
  | .sts _ => ({}, storeScratch a n b s)
  | .feset _ => ({}, setScratchFe a (b % 2 == 1) s)
  | .feget _ => ({ res := landLoad o.i l (if scratchFull s a then 1 else 0) }, s)
  | .vismin _ => ({}, storeScratch a n (rmwNew o.i old b) s)
  | _ => ({ res := landLoad o.i l old ++ landSwap o.i l old b },
      if rmwWrites o.i old b then storeScratch a n (rmwNew o.i old b) s else s)

/-- R362: the operations that a speculative version logs on an unversioned page. -/
def loggable : Instr → Bool
  | .st _ | .feset _ | .red _ | .redf _ | .vismin _ | .hgscat _ => true
  | _ => false

/-- R362, R313: whether the performance of a lane makes a log entry. -/
def Op.logs (o : Op) (l : Nat) : Bool :=
  o.version != 0 && loggable o.i && !onScratch o.i &&
    (if o.ctr == 3 then (SMap.get [] o.spans l).any fun p => !p.leaf.ver else (o.page l).any fun p => !p.ver)

/-- R263, R363: whether a PUT that a lane of a wave issued before operation `num` is still to be logged. -/
def putPending (s : State) (wave l num : Nat) : Bool :=
  s.cmds.any fun c => c.kind == 2 && c.tag != 0 && c.wave == wave && c.lane == l && c.id < num

/-- R363: whether the focused wave has log entries of a lane, of operations before `num`, still to make. -/
def logsPending (s : State) (l num : Nat) : Bool :=
  (s.w.ops.any fun o => o.num < num && (o.lanes &&& ~~~o.perf).getLsbD l && o.logs l) || putPending s s.w.id l num

/-- R363: an entry of the log for one lane of an operation on an unversioned page. -/
def logLane (o : Op) (l : Nat) (s : State) : State :=
  logEntry { ctx := s.ctxId, tag := o.version, i := o.i, va := (o.args l).headD 0, data := [(o.args l).getD 1 0]
             core := s.w.core, wave := s.w.slot, part := s.w.part, recs := 1, late := false, wid := s.w.id
             num := o.num } s

/-- R180: the write-combining buffer for a block of a core: the one that holds it, else a free one, else the oldest,
which drains first (DESIGN CHOICE, log entry 74). Buffers are numbered from 1. -/
def wcBuffer (core block : Nat) (s : State) : Nat × State :=
  let mine := s.pending.filter fun p => p.core == core && p.buf != 0
  match mine.find? fun p => p.pa / 128 == block with
  | some p => (p.buf, s)
  | none =>
    match [1, 2, 3, 4].find? fun b => !mine.any (·.buf == b) with
    | some b => (b, s)
    | none =>
      let b := ((mine.head?).map Pending.buf).getD 1
      (b, drain (fun p => p.core == core && p.buf == b) s)

/-- R180: the bytes of its block that a combining buffer holds. -/
def bufferBytes (s : State) (core b : Nat) : Lanes × Lanes :=
  (s.pending.filter fun p => p.core == core && p.buf == b).foldl
    (fun (m : Lanes × Lanes) p =>
      let put := fun (half : Nat) (acc : Lanes) =>
        acc ||| laneSet fun i => p.pa % 128 ≤ 64 * half + i && 64 * half + i < p.pa % 128 + p.n
      (put 0 m.1, put 1 m.2)) (0, 0)

/-- R180: a buffer that is full drains. -/
def drainFull (core b : Nat) (s : State) : State :=
  let m := bufferBytes s core b
  if m.1 == BitVec.allOnes 64 && m.2 == BitVec.allOnes 64 then drain (fun p => p.core == core && p.buf == b) s else s

/-- R180, R205: the buffers of a core that an instruction has filled drain once all its lanes have stored. -/
def drainBuffers (core : Nat) (s : State) : State :=
  if s.pending.any fun p => p.core == core && p.buf != 0 then [1, 2, 3, 4].foldl (fun s b => drainFull core b s) s else s

/-- A store of a lane as its core accepts it: n bytes of data, or a full/empty bit. -/
def Op.store (o : Op) (l : Nat) (leaf : Leaf) (s : State) (n data : Nat) : Pending :=
  let va := (o.args l).headD 0
  { id := s.nextId, core := s.w.core, ctx := s.ctxId, tag := o.version, va := va, pa := leaf.addr va, n := n, data := data
    feset := false, ver := leaf.ver, rm := leaf.rm, uncached := !leaf.cached, buf := 0, op := o.num
    org := o.origin s l }

/-- R178, R180, R362: one lane's store or FESET: logged, or accepted by the core. -/
def performStore (o : Op) (l : Nat) (leaf : Leaf) (feset : Bool) (s : State) : Done × State :=
  let w := s.w
  if o.version != 0 && !leaf.ver then ({}, logLane o l s)
  else
    let pa := leaf.addr ((o.args l).headD 0)
    let (buf, s) := if leaf.cache == 2 && !feset then wcBuffer w.core (pa / 128) s else (0, s)
    let p := { o.store l leaf s (if feset then 4 else accessBytes o.i) ((o.args l).getD 1 0) with
               feset := feset, buf := buf }
    let s := acceptStore p { s with nextId := s.nextId + 1 }
    let acked := 2 ≤ (orderOf o.i).2 || !leaf.cached
    ({ homes := if acked then [p.id] else [] }, s)

/-- R197, R359: whether an atomic may execute in the L1 of the wave's core. -/
def mayL1 (s : State) (o : Op) (leaf : Leaf) : Bool :=
  let scope := (orderOf o.i).2
  o.version == 0 && leaf.cached
    && (scope ≤ 1 || (scope == 2 && ((s.myLaunch.map fun l => l.kernel.teams).getD 0) == 1))

/-- R197: an atomic at the home meets the write-through of atomics executed in other cores' L1 on its location. -/
def meetAtomics (pa n : Nat) (s : State) : State :=
  { s with pending := s.pending.map fun p =>
      if p.atom && p.pa < pa + n && pa < p.pa + p.n then { p with raced := true } else p }

/-- R197, R223-R225: one lane's atomic, in the L1 (written through as a store) or at its home. -/
def performAtomic (o : Op) (l : Nat) (leaf : Leaf) (inL1 : Bool) (s : State) : Done × State :=
  let w := s.w
  let ctx := s.ctxId
  let va := (o.args l).headD 0
  let b := (o.args l).getD 1 0
  let pa := leaf.addr va
  let n := rmwBytes o.i
  if inL1 && mayL1 s o leaf then
    let (old, s) := readL1 w.core ctx o.version leaf va pa n false s
    let p := { o.store l leaf s n (rmwNew o.i old b) with atom := true }
    ({ res := landLoad o.i l old ++ landSwap o.i l old b },
      if rmwWrites o.i old b then acceptStore p { s with nextId := s.nextId + 1 } else s)
  else
    let (old, s) := readHome w.core ctx o.version leaf pa n s
    let new := rmwNew o.i old b
    ({ res := landLoad o.i l old ++ landSwap o.i l old b },
      if rmwWrites o.i old b then
        patchL1 w.core ctx o.version leaf.ver pa n new
          (viewWrite ctx o.version leaf.ver leaf.cached pa n new (meetAtomics pa n s))
      else s)

/-- R198, R362: one lane's reduction: logged, merged in the L1 on a cached page, or performed at its home. Earlier stores
of the core to its sector go before it (R188). -/
def performReduction (o : Op) (l : Nat) (leaf : Leaf) (s : State) : Done × State :=
  let va := (o.args l).headD 0
  let u : Update :=
    { core := s.w.core, va := va, pa := leaf.addr va, cached := leaf.cached, ctx := s.ctxId, tag := o.version
      ver := leaf.ver, i := o.i, data := (o.args l).getD 1 0, orgs := [o.origin s l] }
  if o.version != 0 && !leaf.ver then ({}, logLane o l s)
  else
    let s := settle s.w.core (u.pa / 128) s
    if leaf.cached then
      let s := if (updateLines s s.w.core).contains (u.pa / 128) then s else makeRoom s.w.core s
      ({}, { s with updates := s.updates ++ [u] })
    else ({}, applyUpdate u s)

/-- R178: whether a load hits its core's L1. -/
def loadHits (s : State) (o : Op) (leaf : Leaf) (pa : Nat) (bypass : Bool) : Bool :=
  leaf.cached && !bypass && s.l1.any (fun x => x.serves s.w.core (pa / 128) s.ctxId o.version)
    && !s.updates.any (fun u => u.core == s.w.core && u.pa / 128 == pa / 128)

/-- R185: the error that a load meets: a hit in the L1 finds no new error, but a sector that is poisoned raises
MEM_POISON in every access. -/
def loadError (s : State) (o : Op) (leaf : Leaf) (pa : Nat) (bypass : Bool) : Option Cause :=
  if loadHits s o leaf pa bypass then
    if committedView s s.ctxId o.version leaf.ver pa && s.poison.contains (pa / 128) then some .memPoison else none
  else viewError s s.ctxId o.version leaf.ver pa

/-- R296: n bytes at an offset of an access of an engine, read through the L1 as a load of the lane: the value, or the
error it meets. -/
def readPart (o : Op) (p : Span) (off n : Nat) (s : State) : Except (Cause × Nat) Nat × State :=
  let pa := p.leaf.addr p.va + off
  match loadError s o p.leaf pa false with
  | some c => (.error (c, p.va), findEcc s pa)
  | none =>
    let (v, s) := readL1 s.w.core s.ctxId o.version p.leaf (p.va + off) pa n false s
    (.ok v, s)

/-- R315, R340: the single accesses that an access of an engine is made of: features of 2 bytes, or the aligned 16 bytes
of a record; another access is a single one. -/
def pieceBytes (i : Instr) (p : Span) : Nat := match i with
  | .hgfetch _ => 2
  | .rbox _ | .rtri _ | .rxfm _ => 16
  | _ => p.n

/-- The pieces of n bytes of an access from an offset, each as it was read ahead or as it reads now. -/
def readRest (o : Op) (p : Span) (n : Nat) : Nat → Nat → State → Except (Cause × Nat) Nat × State
  | 0, _, s => (.ok 0, s)
  | k + 1, off, s =>
    let read := match p.got.find? (·.1 == off) with
      | some e => (Except.ok e.2, s)
      | none => readPart o p off n s
    match read with
    | (.error e, s) => (.error e, s)
    | (.ok v, s) => match readRest o p n k (off + n) s with
      | (.error e, s) => (.error e, s)
      | (.ok u, s) => (.ok (v + 2 ^ (8 * n) * u), s)

/-- R296: one access of an engine read: its value, or the error it meets. -/
def readSpan (o : Op) (p : Span) (s : State) : Except (Cause × Nat) Nat × State :=
  if p.got.isEmpty then readPart o p 0 p.n s
  else
    let n := pieceBytes o.i p
    readRest o p n (p.n / n) 0 s

/-- Accesses read in order, as (address, value) pairs; the first error ends them. -/
def readSpans (o : Op) : List Span → State → Except (Cause × Nat) (List (Nat × Nat)) × State
  | [], s => (.ok [], s)
  | p :: ps, s => match readSpan o p s with
    | (.error e, s) => (.error e, s)
    | (.ok v, s) => match readSpans o ps s with
      | (.error e, s) => (.error e, s)
      | (.ok vs, s) => (.ok ((p.va, v) :: vs), s)

/-- The value read at an address. -/
def valueAt (vs : List (Nat × Nat)) (va : Nat) : Nat := SMap.get 0 vs va

/-- R185, R189: one lane of a global operation performed. The error of a store is met where it is performed (R189), and
a write under a tag that is no longer LIVE is dropped (R371). -/
def performGlobal (o : Op) (l : Nat) (leaf : Leaf) (inL1 : Bool) (s : State) : Done × State :=
  let ctx := s.ctxId
  let va := (o.args l).headD 0
  let pa := leaf.addr va
  let guarded := fun (err : Option Cause) (go : Unit → Done × State) => match err with
    | some c => ({ errs := [(c, va)] }, findEcc s pa)
    | none => go ()
  let load := fun (bypass : Bool) => guarded (loadError s o leaf pa bypass) fun _ =>
    let (v, s) := readL1 s.w.core ctx o.version leaf va pa (accessBytes o.i) bypass s
    ({ res := landLoad o.i l v }, s)
  match o.i with
  | .ld f | .sld f => load (f.m.cache == 2)
  | .feget _ => guarded (viewError s ctx o.version leaf.ver pa) fun _ =>
    let (_, s) := readHome s.w.core ctx o.version leaf pa 4 s
    ({ res := landLoad o.i l (if viewFe s ctx o.version leaf.ver pa then 1 else 0) }, s)
  | .st _ => performStore o l leaf false s
  | .feset _ => performStore o l leaf true s
  | .red _ | .redf _ | .vismin _ => performReduction o l leaf s
  | _ =>
    if dropped s ctx o.version leaf.ver then ({}, s)
    else guarded (viewError s ctx o.version leaf.ver pa) fun _ => performAtomic o l leaf inL1 s

/-- One lane of a memory operation performed. -/
def performLane (o : Op) (inL1 : Bool) (l : Nat) (s : State) : Done × State := match o.page l with
  | none => ({}, s)
  | some leaf => if onScratch o.i then performScratch o l leaf.pa s else performGlobal o l leaf inL1 s

/-- R204: the late trap of the lanes of an operation that met one error; `addr` is the address of the lowest. -/
def lateOne (o : Op) (addr : Nat) (c : Cause) (ls : List (Nat × Cause × Nat)) : LateTrap :=
  { cause := c, mask := laneSet fun j => ls.any (·.1 == j), pc := o.pc, word := o.word, dst := destReg o.i
    addr := BitVec.ofNat 64 addr, addrs := ls.map fun e => (e.1, e.2.2) }

/-- R204: errors of lanes of one operation found at once become late traps, one for each cause, in the order found. -/
def lateOf (o : Op) (errs : List (Nat × Cause × Nat)) : List LateTrap :=
  (errs.map fun e => e.2.1).eraseDups.map fun c =>
    let mine := errs.filter fun e => e.2.1 == c
    lateOne o (((mine.find? fun e => e.1 == lowest (laneSet fun j => mine.any (·.1 == j))).map fun e => e.2.2).getD 0) c mine

/-- Lanes performed in ascending order, each by `one`: results, errors and store numbers gathered. -/
def performLanes (one : Nat → State → Done × State) :
    List Nat → State → List Land × List (Nat × Cause × Nat) × List Nat × State
  | [], s => ([], [], [], s)
  | l :: ls, s =>
    let (d, s) := one l s
    let (rs, es, hs, s) := performLanes one ls s
    (d.res ++ rs, d.errs.map (fun e => (l, e)) ++ es, d.homes ++ hs, s)

/-! ## Order between the operations of a wave (R188, R190, R206) -/

/-- The accesses of a lane of an operation as places and lengths. -/
def Op.laneSpans (o : Op) (l : Nat) : List (Nat × Nat) :=
  if o.ctr == 3 then (SMap.get [] o.spans l).map fun p => (p.leaf.addr p.va, p.n)
  else [(o.place l, accessBytes o.i)]

/-- R188: whether an access of a lane overlaps an unperformed access of the lane in an earlier operation. -/
def laneBlocked (earlier : List Op) (o : Op) (l : Nat) : Bool :=
  earlier.any fun e =>
    (e.lanes &&& ~~~e.perf).getLsbD l && e.ctr != 2 && onScratch e.i == onScratch o.i &&
      (o.laneSpans l).any fun a => (e.laneSpans l).any fun b => a.1 < b.1 + b.2 && b.1 < a.1 + a.2

/-- R206: an earlier acquire of the wave that has not been performed holds every later access. -/
def acquirePending (earlier : List Op) : Bool :=
  earlier.any fun e => (e.ctr == 0 || e.ctr == 1) && acquires (orderOf e.i).1 && e.perf != e.lanes

/-- R205: the lanes performed together with those chosen: all that name a location that one of them names. -/
def closure (o : Op) (lanes : Lanes) : Lanes :=
  laneSet fun l => o.lanes.getLsbD l && (lanesOf lanes).any fun k => o.place k == o.place l

/-- R205: lanes in the order in which they are performed: those of one location together, ascending; `fuel` bounds the
locations. -/
def byPlace (o : Op) : Nat → List Nat → List Nat
  | 0, ls => ls
  | _, [] => []
  | n + 1, l :: ls =>
    l :: (ls.filter fun k => o.place k == o.place l) ++ byPlace o n (ls.filter fun k => o.place k != o.place l)

/-- The extent that a release or acquire access of a lane acts on (R190). -/
def laneExtent (s : State) (o : Op) (l : Nat) : Extent :=
  if onScratch o.i then {} else extentOf s s.ctxId ((o.args l).headD 0)

/-- R363: whether a log entry of a lane must wait: for one of the lane in an earlier operation, or for one of a lower lane
of the operation. -/
def logBlocked (s : State) (earlier : List Op) (o : Op) (lanes : List Nat) (l : Nat) : Bool :=
  o.logs l && (earlier.any (fun e => (e.lanes &&& ~~~e.perf).getLsbD l && e.logs l) || putPending s s.w.id l o.num
    || (lanesOf (o.lanes &&& ~~~o.perf)).any fun k => k < l && o.logs k && !lanes.contains k)

/-- Whether lanes of an operation can be performed now, after the operations issued before it. -/
def canPerform (s : State) (earlier : List Op) (o : Op) (lanes : List Nat) : Bool :=
  !acquirePending earlier && !lanes.any (laneBlocked earlier o) && !lanes.any (logBlocked s earlier o lanes)
    && (!releases (orderOf o.i).1 || lanes.all fun l => releaseReady s earlier (laneExtent s o l))

/-- R190: the releases or acquires of the lanes. -/
def orderLanes (act : Extent → State → State) (o : Op) : List Nat → State → State
  | [], s => s
  | l :: ls, s => orderLanes act o ls (act (laneExtent s o l) s)

/-- The lanes of an operation of the focused wave performed, with the release before and the acquire after that its
ORDER asks (R190). -/
def performOp (one : Nat → State → Done × State) (o : Op) (lanes : List Nat) (s : State) :
    Op × List LateTrap × State :=
  let (order, scope) := orderOf o.i
  let s := if releases order then orderLanes (releaseNow scope) o lanes s else s
  let (rs, es, hs, s) := performLanes one (if o.ctr == 3 then lanes else byPlace o 64 lanes) s
  let s := drainBuffers s.w.core s
  let s := if acquires order then orderLanes (acquireNow s.w.core scope) o lanes s else s
  ({ o with perf := o.perf ||| laneSet fun l => lanes.contains l
            res := o.res ++ rs, homes := o.homes ++ hs }, lateOf o es, s)

/-! ## Landing (R38, R146) -/

/-- One result written to its register; an exited lane's result is discarded (R146), and a scalar once the wave has
ended. A scalar counts for the lanes ACTIVE at issue (R86). -/
def landOne (act : Lanes) (r : Land) (w : Wave) : Wave :=
  if (if r.kind == 2 then w.ended else w.exited.getLsbD r.lane) then w
  else match r.kind with
    | 1 => w.setV r.lane r.reg r.val
    | 2 => { w.mark act (w.sreg r.reg != r.val) with s := SMap.set 0 w.s r.reg r.val }
    | _ => w.setP r.reg r.lane (r.val == 1)

/-- Results written in order. -/
def landAll (act : Lanes) : List Land → Wave → Wave
  | [], w => w
  | r :: rs, w => landAll act rs (landOne act r w)

/-- The k-th operation of a counter: those before it in issue order, itself, and those after. -/
def splitOps (ctr : Nat) : Nat → List Op → Option (List Op × Op × List Op)
  | _, [] => none
  | k, o :: os =>
    if o.ctr == ctr then
      match k with
      | 0 => some ([], o, os)
      | k + 1 => (splitOps ctr k os).map fun x => (o :: x.1, x.2)
    else (splitOps ctr k os).map fun x => (o :: x.1, x.2)

/-- R27, R315, R340: a lane of the k-th operation of a counter of the focused wave that could be performed now reads one
piece of one of its accesses; the rest follows when the lane is performed. -/
def readAhead (ctr k lane va off : Nat) (s : State) : State := match splitOps ctr k s.w.ops with
  | none => s
  | some (pre, o, post) =>
    let ps := SMap.get [] o.spans lane
    if writesMem o.i || !(o.lanes &&& ~~~o.perf).getLsbD lane || !canPerform s pre o [lane] then s
    else match ps.find? (·.va == va) with
      | none => s
      | some p =>
        let n := pieceBytes o.i p
        if n == 0 || off % n != 0 || p.n < off + n || p.got.any (·.1 == off) then s
        else match readPart o p off n s with
          | (.error _, _) => s
          | (.ok v, s) =>
            let ps := updFirst (·.va == va) (fun (p : Span) => { p with got := p.got.insert off v }) ps
            { s with w := { s.w with ops := pre ++ { o with spans := SMap.set [] o.spans lane ps } :: post } }

end Machine

end Sys2Proof
end

