-- ==== Sys2Proof/Machine/Power.lean ====
section
/-!
DEFINITION. The power manager's requests on cluster islands (R413-R419, R437).
-/

namespace Sys2Proof.Machine

/-- R415: the entries in the inbound FIFOs of an island's cores. -/
def inflight (s : State) (cluster : Nat) : Nat :=
  ((coresOf cluster).map fun c => (s.fifo (inbound c)).entries.length).foldl (· + ·) 0

/-- R415: the status word of an island with a RESULT. -/
def islandStatus (s : State) (cluster result : Nat) : Nat :=
  let i := s.island cluster
  result + i.state * 2 ^ 4 + islandLevel i * 2 ^ 6 + (if i.approx then 2 ^ 9 else 0)
    + (if throttled s (cluster / 8) then 2 ^ 10 else 0) + inflight s cluster % 128 * 2 ^ 11
    + min 63 (s.cohorts.filter (·.cluster == cluster)).length * 2 ^ 18

/-- R414, R415: a request word that is BADREQ. -/
def badRequest (r : Nat) : Bool :=
  let op := r % 4
  2 ^ 7 ≤ r || (op != 1 && flag r 2) || (op != 3 && (flag r 3 || bits r 4 3 != 0)) || 5 < bits r 4 3

/-- The pairs with a core in a cluster. -/
def clusterPairs (cluster : Nat) : List Nat := (coresOf cluster).map pairOf
/-- Both FIFOs of every pair with a core in a cluster. -/
def clusterFifos (cluster : Nat) : List Nat := (clusterPairs cluster).flatMap fun p => [2 * p, 2 * p + 1]

/-- R418: every cohort resident on an island is discarded with cause KILLED. -/
def killIsland (cluster : Nat) (s : State) : State :=
  ((s.cohorts.filter (·.cluster == cluster)).map Cohort.id).foldl
    (fun s id => discardCohort id Cause.killed.code 0 0 none s) s

/-- R418: a forced gate, one step; the island is then CLOSING until conditions 3 and 4 of R417 hold. -/
def forceGate (cluster : Nat) (s : State) : State :=
  let s := killIsland cluster s
  let s := forFifos (dropEntries fun _ => true) (clusterFifos cluster) s
  let s := forFifos (fun k => updFifo k fun f => { f with down := true }) (clusterFifos cluster) s
  updIsland cluster (fun i =>
    { i with state := 1, drained := true, gate := if i.state == 1 then max i.gate 1 else 2, approx := false
             wantApprox := false }) s

/-- R419: an island is ON: every FIFO between islands that are ON, and dies that have power, becomes UP and starts
empty. -/
def raiseFifos (cluster : Nat) (s : State) : State :=
  forFifos (fun k s =>
    let (lo, hi) := pairClusters (k / 2)
    let stack := k / 32
    let dead := s.plat.deadDies.any fun d => d == 7 * stack || d == 7 * stack + 1 || d == 7 * stack + 2
    if (s.fifo k).down && (s.island lo).state == 0 && (s.island hi).state == 0 && !dead then
      updFifo k (fun f => { f with down := false }) (dropEntries (fun _ => true) k s)
    else s) (clusterFifos cluster) s

/-- R416: a plain gate begins. -/
def beginGate (cluster : Nat) (s : State) : State :=
  drainIsland cluster (updIsland cluster
    (fun i => { i with state := 1, drained := false, gate := 1, approx := false, wantApprox := false }) s)

/-- R416, R437: a level request. -/
def requestLevel (cluster r : Nat) (s : State) : Nat × State :=
  let i := s.island cluster
  let lvl := bits r 4 3
  if flag r 3 then
    if lvl == 0 && s.plat.config.approxOk / 2 ^ cluster % 2 == 1 && !throttled s (cluster / 8) then
      (0, updIsland cluster (fun i => { i with want := 0, wantApprox := true }) s)
    else (3, s)
  else (0, updIsland cluster (fun _ => { i with want := lvl, wantApprox := false, approx := false }) s)

/-- R416: a request on a cluster island: its RESULT and the state after it. `foreign` says that a forced gate is denied
(R418). -/
def islandRequest (cluster r : Nat) (foreign : Bool) (s : State) : Nat × State :=
  let i := s.island cluster
  match r % 4 with
  | 0 => (0, s)
  | 1 =>
    if i.state == 2 then (0, s)
    else if i.state == 3 then
      (4, updIsland cluster (fun i => { i with gate := if flag r 2 then 2 else max i.gate 1 }) s)
    else if flag r 2 then if foreign then (3, s) else (0, forceGate cluster s)
    else if i.state == 1 then
      (4, updIsland cluster (fun i => { i with gate := 1, approx := false, wantApprox := false }) s)
    else (4, beginGate cluster s)
  | 2 =>
    if i.state == 2 then (4, updIsland cluster (fun i => { i with state := 3, gate := 0, since := s.now }) s)
    else if i.state == 3 then (4, updIsland cluster (fun i => { i with gate := 0 }) s)
    else if i.state == 1 then
      (0, raiseFifos cluster (updIsland cluster (fun i => { i with state := 0, gate := 0, drained := false }) s))
    else (0, s)
  | _ => requestLevel cluster r s

/-- R413-R416: a request for an island number and its status word. -/
def powerRequest (island r : Nat) (foreign : Nat → Bool) (s : State) : Nat × State :=
  if 32 ≤ island then (2, s)
  else if badRequest r then (islandStatus s island 1, s)
  else
    let (res, s1) := islandRequest island r (foreign island) s
    (islandStatus s1 island res, s1)

end Sys2Proof.Machine
end

