-- ==== Sys2Proof/Machine/Control.lean ====
section
/-!
DEFINITION. Meanings of the control, mask, barrier and system instructions (R142-R168).
-/

namespace Sys2Proof.Machine

/-! ## Branches, calls and exit (R142-R146) -/

/-- R142: NEXT of the clause in progress. -/
def Wave.next (w : Wave) : DWord := match w.clause with
  | some c => c.next
  | none => 0

/-- A signed field of n bits, times 4, as a byte offset. -/
def offset4 (n v : Nat) : DWord := (BitVec.ofNat n v).signExtend 64 * 4

/-- R144: whether a target traps, and with which cause. -/
def targetCause (next t : DWord) : Option Cause :=
  if t == next then none
  else if t.toNat / 2 ^ 52 != 0 then some .memXlate
  else if t.toNat % 4 != 0 then some .memAlign
  else none

/-- R86, R87: the spin detector at a BRA or BRX: taken lanes that go back, and untaken lanes at their LOOPPC. -/
def spinBranch (hdr addr : DWord) (taken : Nat → Bool) (tgt : Nat → DWord) : List Nat → Wave → Wave
  | [], w => w
  | l :: ls, w =>
    let w :=
      if taken l then if (tgt l).toNat ≤ hdr.toNat then w.backBranch addr l else w
      else if SMap.get 0 w.loopPc l == addr.toNat + 1 then w.restore (laneBit l) else w
    spinBranch hdr addr taken tgt ls w

/-- R144: the ACTIVE lanes go to their targets; a call writes its return pair. `spin` says that the instruction is BRA
or BRX. -/
def transfer (taken : Nat → Bool) (tgt : Nat → DWord) (ret : Option Nat) (spin : Bool) (s : State) : State :=
  let w := s.w
  let next := w.next
  let bad := w.lanes.filter fun l => taken l && (targetCause next (tgt l)).isSome
  match bad.head? with
  | some l =>
    let cause := (targetCause next (tgt l)).getD .memAlign
    raise cause (laneSet fun k => bad.contains k && targetCause next (tgt k) == some cause)
      ((ret.map (dstOf 1)).getD 0) (tgt l) s
  | none =>
    let go := w.lanes.filter taken
    let w1 := match ret with
      | some d => Wave.putVPair d (fun _ => next) go w
      | none => w
    let w2 := Wave.putPc tgt go (if spin then spinBranch w.hdr w.wordPc taken tgt w.lanes w1 else w1)
    { s with w := if go.isEmpty then w2 else { w2 with fast := false } }

/-- BRA (R143, R144). -/
def execBra (f : BF) (s : State) : Out :=
  .next (transfer (fun l => xor (s.w.pred f.p l) (f.pn == 1)) (fun _ => s.w.hdr + offset4 20 f.off) none true s)

/-- BRX (R143, R144). -/
def execBrx (f : V3) (s : State) : Out := .next (transfer (fun _ => true) (fun l => s.w.pairA f l) none true s)

/-- CALL (R143, R144). -/
def execCall (f : RL) (s : State) : Out :=
  .next (transfer (fun _ => true) (fun _ => s.w.hdr + (BitVec.ofNat 32 f.imm).signExtend 64) (some f.d) false s)

/-- CALLX (R143, R144). -/
def execCallx (f : V3) (s : State) : Out :=
  .next (transfer (fun _ => true) (fun l => s.w.pairA f l) (some f.d) false s)

/-- RET (R143, R144). -/
def execRet (f : V3) (s : State) : Out := .next (transfer (fun _ => true) (fun l => s.w.pairA f l) none false s)

/-- EXIT (R146): the ACTIVE lanes that its predicate selects exit. -/
def execExit (f : BF) (s : State) : Out :=
  let e := s.w.active &&& (if f.pn == 1 then ~~~s.w.preds f.p else s.w.preds f.p)
  .next (if e == 0 then s else exitLanes e s)

/-! ## Mask instructions (R147-R151) -/

/-- R147: a mask register written once per issue, and only when ACTIVE is not empty. -/
def writeM (m : Nat) (x : Lanes) (s : State) : State :=
  { s with w := if s.w.idle then s.w else s.w.setM m x }

/-- JOIN (R148). -/
def execJoin (f : KF) (s : State) : Out := .next (writeM f.md (s.w.mreg f.md ||| s.w.active) s)

/-- LEAVE (R148). -/
def execLeave (f : KF) (s : State) : Out := .next (writeM f.md (s.w.mreg f.md &&& ~~~s.w.active) s)

/-- WAITM (R149): the ACTIVE lanes will park at the end of the clause. DESIGN CHOICE (log entry 75): a lane that executes two
WAITMs in a clause parks on the mask register of the later one. -/
def execWaitm (f : KF) (s : State) : Out :=
  let bad := s.w.selfOmitted (s.w.mreg f.md)
  .next (if bad != 0 then raise .maskSelf bad 0 0 s
    else { s with w := { s.w with
      parkAtEnd := s.w.lanes.foldl (fun m l => SMap.set 0 m l (f.md + 1)) s.w.parkAtEnd } })

/-- R150: the value MSET writes. -/
def msetValue (w : Wave) (f : KF) : Lanes := match f.imm with
  | 0 => w.mreg f.ma
  | 1 => w.mreg f.ma &&& w.mreg f.mb
  | 2 => w.mreg f.ma ||| w.mreg f.mb
  | 3 => w.mreg f.ma &&& ~~~w.mreg f.mb
  | 4 => w.mreg f.ma ^^^ w.mreg f.mb
  | 5 => 0
  | 6 => w.live
  | 7 => w.active
  | _ => w.spair f.s

/-- MSET (R150). -/
def execMset (f : KF) (s : State) : Out := .next (writeM f.md (msetValue s.w f) s)

/-- R151: the condition MTEST finds in a lane. -/
def mtestValue (w : Wave) (f : KF) (l : Nat) : Bool := match f.imm with
  | 0 => (w.mreg f.ma).getLsbD l
  | 1 => w.mreg f.ma == 0
  | 2 => w.mreg f.ma == w.mreg f.mb
  | 3 => w.mreg f.ma &&& ~~~w.mreg f.mb == 0
  | _ => w.mreg f.ma &&& w.mreg f.mb != 0

/-- MTEST (R151). -/
def execMtest (f : KF) (s : State) : Out :=
  .next (if f.imm == 5 then writeSPair f.s (s.w.mreg f.ma) s
    else writeP (f.md % 8) (fun l => mtestValue s.w f l) s)

/-! ## Waiting, yielding and sleeping (R152-R154) -/

/-- WAIT (R152): the wave is held until its fields are met, whether or not ACTIVE is empty. -/
def execWait (f : WF) (s : State) : Out :=
  .next (if s.w.waitsMet f.wld f.wst f.wcp f.wtx then s else holdAgain (.wait f) s)

/-- NOP (R152). -/
def execNop (s : State) : Out := .next s

/-- YIELD (R153): the ACTIVE lanes are demoted, and the wave is held until the other waves of its partition that are
ready have issued once, or 64 clocks have passed. -/
def execYield (s : State) : Out :=
  let w := s.w
  .next (if w.idle then s
    else { s with w := { w with
      demoted := w.demoted ||| w.active, fast := false
      hold := .yield (((partners s).filter (waveReady s)).map Wave.id) 64000 } })

/-- R153, R13: a number of nanoseconds pass for a wave that yields: its clocks run at the frequency of its cluster. -/
def Wave.passYield (ns mhz : Nat) (w : Wave) : Wave := match w.hold with
  | .yield ws left => { w with hold := .yield ws (left - ns * mhz) }
  | _ => w

/-- YIELD_END (R153): the focused wave ends its yield. -/
def execEvYieldEnd (s : State) : Out :=
  .next (match s.w.hold with
    | .yield ws left =>
      if ws.isEmpty || left == 0 then afterWord { s with w := { s.w with hold := .none } } else s
    | _ => s)

/-- SLEEP (R154): the wave is held until the reference count has advanced. -/
def execSleep (f : RI) (s : State) : Out :=
  .next (if s.w.idle then s else { s with w := { s.w with hold := .sleep (s.now + 32 * (f.imm + 1)) } })

/-- SLEEP_END (R154): the focused wave ends its sleep once the reference count has advanced enough. -/
def execEvSleepEnd (s : State) : Out :=
  .next (match s.w.hold with
    | .sleep t => if t ≤ s.now then afterWord { s with w := { s.w with hold := .none } } else s
    | _ => s)

/-! ## Named barriers (R155-R160) -/

/-- A barrier of the focused wave's cohort. -/
def State.barrier (s : State) (b : Nat) : Option Barrier := s.myCohort.bind fun c => c.bars[b]?
/-- A barrier of a cohort set. -/
def setBarrier (cohort b : Nat) (x : Barrier) (s : State) : State :=
  updCohort cohort (fun c => { c with bars := c.bars.set b x }) s

/-- R157: k arrivals at a barrier. -/
def Barrier.arrive (x : Barrier) (k : Nat) : Barrier := ({ x with arrived := x.arrived + k }).check

/-- R157: an arrival of the ACTIVE lanes: it traps, waits for its release, or goes on with the token. -/
def arrival (i : Instr) (b : Nat) (done : Word → State → State) (s : State) : State :=
  match s.barrier b with
  | none => s
  | some x =>
    let k := laneCount s.w.active
    if s.w.idle then s
    else if x.expected < x.arrived + k then raise .barrier s.w.active (destReg i) 0 s
    else if !releaseReady s s.w.ops {} then holdAgain i s
    else done x.gen (setBarrier s.w.cohort b (x.arrive k) (releaseNow 2 {} s))

/-- BARA (R157): an arrival that writes its token. -/
def execBara (f : SF) (s : State) : Out :=
  .next (arrival (.bara f) (f.imm % 8) (fun t s => { s with w := s.w.setS f.sd t }) s)

/-- BARS (R157): an arrival that holds the wave until its phase completes. -/
def execBars (f : SF) (s : State) : Out :=
  .next (arrival (.bars f) (f.imm % 8) (fun t s =>
    match s.barrier (f.imm % 8) with
    | some x =>
      if x.gen == t then { s with w := { s.w with hold := .barrier (f.imm % 8) t } }
      else acquireNow s.w.core 2 {} s
    | none => s) s)

/-- BARW (R158): the wave is held until GEN differs from a token; then an acquire. -/
def execBarw (f : SF) (s : State) : Out :=
  .next (match s.barrier (f.imm % 8) with
    | some x => if x.gen == s.w.sreg f.sa then holdAgain (.barw f) s else acquireNow s.w.core 2 {} s
    | none => s)

/-- The threads of a cohort that have not exited (R159). -/
def liveThreads (s : State) (cohort : Nat) : Nat :=
  (((allWaves s).filter (fun w => w.cohort == cohort)).map fun w => laneCount w.live).foldl (· + ·) 0

/-- R159: BARM's new barrier, or none where it raises BARRIER. -/
def barmResult (x : Barrier) (n threads : Nat) : Option Barrier :=
  let y : Option Barrier :=
    if n == 0 then some { x with count := false, expected := threads }
    else if n ≤ 1048575 then some { x with count := true, expected := n }
    else none
  y.bind fun y => if y.expected < y.arrived then none else some y.check

/-- BARM (R159). -/
def execBarm (f : SF) (s : State) : Out :=
  .next (if s.w.idle then s
    else match s.barrier (f.imm % 8) with
      | some x =>
        match barmResult x (s.w.sreg f.sa).toNat (liveThreads s s.w.cohort) with
        | some y => setBarrier s.w.cohort (f.imm % 8) y s
        | none => raise .barrier s.w.active 0 0 s
      | none => s)

/-! ## Growing the grid (R94, R161) -/

/-- R161: GROW's results: the predicate in every ACTIVE lane, and the old count. -/
def growResult (f : SF) (ok : Bool) (old : Nat) (s : State) : State :=
  let s := writeP (f.sd % 8) (fun _ => ok) s
  if f.imm % 2 == 1 then writeS f.sb (BitVec.ofNat 32 old) s else s

/-- GROW (R94, R161). -/
def execGrow (f : SF) (s : State) : Out :=
  .next (match s.myLaunch with
    | none => s
    | some l =>
      let n := (s.w.sreg f.sa).toNat
      if s.w.idle then s
      else if s.w.version != 0 then raise .specExt s.w.active (destReg (.grow f)) 0 s
      else if l.pool || 2 ^ 32 - 1 < l.count + n then growResult f false l.count s
      else if !releaseReady s s.w.ops {} then holdAgain (.grow f) s
      else growResult f true l.count (updLaunch l.id (fun l => { l with count := l.count + n }) (releaseNow 4 {} s)))

/-! ## System instructions (R162-R166) -/

/-- RSTLBL (R103, R162). -/
def execRstlbl (f : BF) (s : State) : Out :=
  .next (if s.w.idle then s
    else updCohort s.w.cohort (fun c => { c with label := s.w.hdr + offset4 20 f.off }) s)

/-- An event record that carries the count of an earlier moment. -/
def postEventAt (t kind ctx version core wave code payload : Nat) (s : State) : State :=
  let now := s.now
  { postEvent kind ctx version core wave code payload { s with now := t } with now := now }

/-- EVENT (R163): a USER record, logged under a speculative version. -/
def execEvent (f : SF) (s : State) : Out :=
  let w := s.w
  let a := (w.sreg f.sa).toNat
  let b := (w.sreg f.sb).toNat
  .next (if w.idle then s
    else if w.version == 0 then postEvent 1 s.ctxId w.version w.core w.index a b s
    else logEntry { ctx := s.ctxId, tag := w.version, i := .event f, va := 0
                    data := [a, b, s.now, w.index, w.version], core := w.core, wave := w.slot, part := w.part, recs := 1
                    late := false, wid := w.id, num := s.nextId } { s with nextId := s.nextId + 1 })

/-- R418: whether an island holds a cohort of another context. -/
def holdsForeign (s : State) (ctx cluster : Nat) : Bool := s.cohorts.any fun c => c.cluster == cluster && c.ctx != ctx

/-- PGREQ (R164, R413-R418). -/
def execPgreq (f : SF) (s : State) : Out :=
  let w := s.w
  let pwr := ((s.context s.ctxId).map Context.pwr).getD false
  .next (if w.idle then s
    else if !pwr then raise .priv w.active (dstOf 2 f.sd) 0 s
    else if w.version != 0 then raise .specExt w.active (dstOf 2 f.sd) 0 s
    else
      let (word, s1) := powerRequest (w.sreg f.sa).toNat (w.sreg f.sb).toNat (holdsForeign s s.ctxId) s
      if s1.w.on && s1.w.id == w.id then { s1 with w := s1.w.setS f.sd (BitVec.ofNat 32 word) } else s1)

/-- TRET (R99, R165): the ACTIVE lanes leave the handler; outside handler mode ILLEGAL_OP. -/
def execTret (s : State) : Out :=
  let w := s.w
  .next (if w.idle then s
    else if !w.handler then raise .illegalOp w.active 0 0 s
    else
      let w1 := { w with tret := w.tret ||| w.active, fast := false }
      let gone := tretEnds w1
      if gone != 0 then exitLanes gone { s with w := w1 } else { s with w := endHandler w1 })

/-- TRAP (R166). -/
def execTrap (_ : RI) (s : State) : Out := .next (if s.w.idle then s else raise .user s.w.active 0 0 s)

/-- BKPT (R166). -/
def execBkpt (s : State) : Out := .next (if s.w.idle then s else raise .break_ s.w.active 0 0 s)

/-- LATE_TRAP (R204): the focused wave, at a clause boundary outside handler mode, takes the first late trap it
holds. -/
def execEvLateTrap (s : State) : Out :=
  .next (if s.w.on && !s.w.ended && s.w.clause.isNone && !s.w.handler then takeLate s else s)

end Sys2Proof.Machine
end

