-- ==== Sys2Proof/Machine/Copy.lean ====
section
/-!
DEFINITION. The copy engine (R232-R249): tensor records, boxes and chunks, copy barriers, batches, and the moves of a
chunk, which the layout engine shares.
-/

namespace Sys2Proof.Machine

/-! ## Tensor records (R232-R234) -/

/-- NDIM. -/
def recNdim (r : List Nat) : Nat := field r 8 1 % 8
/-- FMT. -/
def recFmt (r : List Nat) : Nat := field r 8 1 / 16
/-- MODE. -/
def recMode (r : List Nat) : Nat := field r 9 1 % 4
/-- FEPOL. -/
def recFe (r : List Nat) : Nat := field r 9 1 / 4 % 4
/-- FILL. -/
def recFill (r : List Nat) : Nat := field r 12 4
/-- STRIDE of a dimension. -/
def recStride (r : List Nat) (d : Nat) : Int := (BitVec.ofNat 48 (field r (20 + 16 * d) 6)).toInt

/-- R232: the size in bytes of an element of a format; E2M1 elements are copied in pairs. -/
def elemSize (fmt : Nat) : Nat :=
  if fmt == 0 || fmt == 0xB || fmt == 0xC then 4
  else if fmt == 1 || fmt == 2 || fmt == 9 || fmt == 0xA then 2
  else 1

/-- ES of a record. -/
def recEs (r : List Nat) : Nat := elemSize (recFmt r)
/-- R232: E2M1 counts along dimension 0 are halved. -/
def recHalf (r : List Nat) (d : Nat) : Nat := if recFmt r == 5 && d == 0 then 2 else 1
/-- EXTENT of a dimension, in copied elements. -/
def recExtent (r : List Nat) (d : Nat) : Nat := field r (16 + 16 * d) 4 / recHalf r d
/-- BOX of a dimension, in copied elements. -/
def recBox (r : List Nat) (d : Nat) : Nat := field r (26 + 16 * d) 2 / recHalf r d
/-- The dimensions of a record. -/
def recDims (r : List Nat) : List Nat := List.range (recNdim r)
/-- The elements of the box. -/
def recElems (r : List Nat) : Nat := (recDims r).foldl (fun n d => n * recBox r d) 1
/-- BYTES. -/
def recBytes (r : List Nat) : Nat := recEs r * recElems r

/-- R233, order 3. -/
def recBad (r : List Nat) : Bool :=
  let n := recNdim r
  field r 8 1 / 8 % 2 != 0 || field r 9 1 / 16 != 0 || field r 10 2 != 0
    || (List.range 5).any (fun d => field r (28 + 16 * d) 4 != 0) || field r 96 32 != 0
    || n == 0 || 5 < n || 0xD ≤ recFmt r
    || (List.range n).any (fun d => field r (16 + 16 * d) 4 == 0 || field r (26 + 16 * d) 2 == 0)
    || (List.range 5).any (fun d => n ≤ d && field r (16 + 16 * d) 16 != 0)
    || 0x20000 < recBytes r || ((recFe r == 1 || recFe r == 3) && recEs r != 4)

/-- R233, order 4 and R256, order 5: a base or a used stride that is not a multiple of the element size. -/
def recMisaligned (r : List Nat) : Bool :=
  field r 0 8 % recEs r != 0 || (recDims r).any fun d => recStride r d % (recEs r : Int) != 0

/-- R234: the index tuple of an element of the box by its packed number. -/
def boxIndex (r : List Nat) : List Nat → Nat → List Nat
  | [], _ => []
  | d :: ds, lin => lin % recBox r d :: boxIndex r ds (lin / recBox r d)

/-- A coordinate as a signed number of copied elements. -/
def coordOf (r : List Nat) (cs : List Nat) (d : Nat) : Int :=
  (BitVec.ofNat 32 (cs.getD d 0)).toInt / (recHalf r d : Int)

/-- R234: the position c + i of an element in the tensor. -/
def tensorPos (r cs : List Nat) (i : List Nat) : List Int :=
  (recDims r).map fun d => coordOf r cs d + (i.getD d 0 : Int)

/-- R234: whether a position lies outside the tensor. -/
def outside (r : List Nat) (p : List Int) : Bool :=
  (recDims r).any fun d => p.getD d 0 < 0 || (recExtent r d : Int) ≤ p.getD d 0

/-- R234: the address ga of a position. -/
def tensorAddr (r : List Nat) (p : List Int) : Nat :=
  (((field r 0 8 : Nat) + (recDims r).foldl (fun a d => a + p.getD d 0 * recStride r d) 0) % (2 ^ 64 : Int)).toNat

/-! ## Moves -/

/-- Where an element is read or written. -/
inductive Place where
  | none
  | glob (va : Nat)
  | cell (a : Nat)
  deriving DecidableEq, Repr

/-- One element of a chunk: its source (none: the fill value), its destination (none: skipped), and its packed
offset. -/
structure Move where
  src : Place
  dst : Place
  n : Nat
  fill : Nat
  off : Nat
  deriving DecidableEq, Repr

/-- The elements of chunk k of a command of `bytes` bytes, as packed element numbers. -/
def chunkElems (bytes es k : Nat) : List Nat :=
  (List.range (min 512 (bytes - 512 * k) / es)).map fun j => 512 * k / es + j

/-- R234: the move of an element of a COPY. -/
def copyMove (c : Cmd) (lin : Nat) : Move :=
  let r := c.record
  let n := recEs r
  let p := tensorPos r (c.nums.drop 2) (boxIndex r (recDims r) lin)
  let out := outside r p
  let tensor := Place.glob (tensorAddr r p)
  let other := if recMode r < 2 then Place.cell (c.nums.getD 1 0 + lin * n)
    else Place.glob ((c.nums.getD 1 0 + lin * n) % 2 ^ 64)
  if recMode r % 2 == 0 then
    { src := if out then .none else tensor, dst := other, n := n, fill := recFill r % 2 ^ (8 * n), off := lin * n }
  else { src := if out then .none else other, dst := if out then .none else tensor, n := n, fill := 0, off := lin * n }

/-! ## The layout engine's mapping (R253, R254) -/

/-- R254: a value of every source dimension split into its logical parts. -/
def splitDims (map : Nat) (f : Nat → Nat) (inner : Nat → Nat → Nat) : List Nat → List Nat
  | [] => []
  | d :: ds =>
    let k := bits map (4 * d) 4
    if k == 0 then f d :: splitDims map f inner ds
    else inner (f d) k :: f d / 2 ^ k :: splitDims map f inner ds

/-- R254: the logical extents. -/
def logicalExtents (map : Nat) (r : List Nat) : List Nat :=
  splitDims map (recBox r) (fun _ k => 2 ^ k) (recDims r)
/-- R254: the logical indices of an element. -/
def logicalIndex (map : Nat) (r i : List Nat) : List Nat :=
  splitDims map (fun d => i.getD d 0) (fun x k => x % 2 ^ k) (recDims r)

/-- R254: positions permuted and merged into runs, each with its index and extent. -/
def mergeRuns (map last : Nat) (ext x : List Nat) : List Nat → Nat → Nat → List (Nat × Nat)
  | [], _, _ => []
  | j :: js, e, w =>
    let l := bits map (32 + 3 * j) 3
    let e := e + x.getD l 0 * w
    let w := w * ext.getD l 0
    if j == last then [(e, w)]
    else if flag map (56 + j) then mergeRuns map last ext x js e w
    else (e, w) :: mergeRuns map last ext x js 0 1

/-- R254: the destination index of a source element. -/
def mapIndex (map : Nat) (r i : List Nat) : List (Nat × Nat) :=
  let ext := logicalExtents map r
  mergeRuns map (ext.length - 1) ext (logicalIndex map r i) (List.range ext.length) 0 1

/-- R234: the packed element number of an index of a box. -/
def packed (r : List Nat) : List Nat → List Nat → Nat
  | d :: ds, i :: is => i + recBox r d * packed r ds is
  | _, _ => 0

/-- R255: the move of a source element of a LAYOUT. -/
def layoutMove (c : Cmd) (lin : Nat) : Move :=
  let rs := c.record.take 128
  let rd := c.record.drop 128
  let n := recEs rs
  let i := boxIndex rs (recDims rs) lin
  let e := (mapIndex (c.nums.getD 2 0) rs i).map Prod.fst
  let ps := tensorPos rs (c.nums.drop 3) i
  let pd := tensorPos rd (c.nums.drop 8) e
  { src := if outside rs ps || outside rd pd then .none else .glob (tensorAddr rs ps)
    dst := if outside rd pd then .none else .glob (tensorAddr rd pd)
    n := n, fill := recFill rs % 2 ^ (8 * n), off := packed rd (recDims rd) e * n }

/-- The moves of chunk k of a command. -/
def Cmd.moves (c : Cmd) (k : Nat) : List Move :=
  if c.kind == 1 then
    let r := c.record.take 128
    ((List.range (recElems r)).map (layoutMove c)).filter fun m => m.off / 512 == k
  else (chunkElems (recBytes c.record) (recEs c.record) k).map (copyMove c)

/-- R242, R257: the full/empty policy of a command. -/
def Cmd.policy (c : Cmd) : Nat :=
  if c.kind == 1 then (if flag (c.nums.getD 2 0) 63 then 1 else 2) else recFe c.record

/-- The unit that translates for a command: the core's copy engine (128 + core) or the cluster's layout engine
(256 + cluster). -/
def Cmd.unit (c : Cmd) : Nat := if c.kind == 0 || c.kind == 3 then 128 + c.core else 256 + c.core / 4

/-! ## Errors (R233, R243) -/

/-- An error that poisons a command: its code, the address, LEVEL and REASON of a fault record when one is written, and
the sector whose uncorrectable error was found. -/
structure Bad where
  code : Nat
  va : Nat := 0
  rec_ : Option (Nat × Nat) := none
  ecc : Option Nat := none

/-- R243: the error of one access of a command. DESIGN CHOICE (log entry 40): an address at or above 2^52 gives error 0x21
with no fault record. -/
def accessBad (s : State) (who ctx tag : Nat) (ask : Ask) (va : Nat) : Option Bad :=
  if 2 ^ 52 ≤ va then some { code := 0x21, va := va }
  else match xlate s who ctx va ask.need with
    | .replay l => some { code := 0x21, va := va, rec_ := some (l, 0) }
    | .bad l => some { code := 0x21, va := va, rec_ := some (l, 2) }
    | .perm l r => some { code := 0x22, va := va, rec_ := some (l, r) }
    | .ok leaf =>
      if ask.fe && !leaf.fe then some { code := 0x29, va := va }
      else if tag != 0 && leaf.ver && ask.write && !(children s ctx tag).isEmpty then some { code := 0x41, va := va }
      else if tag != 0 && !leaf.ver && ask.spec then some { code := 0x40, va := va }
      else none

/-- R185: the error that a read at a physical address meets. -/
def readBad (s : State) (ctx tag : Nat) (ver : Bool) (va pa : Nat) : Option Bad :=
  match viewError s ctx tag ver pa with
  | some .memEcc => some { code := 0x23, va := va, ecc := some pa }
  | some c => some { code := c.code, va := va }
  | none => none

/-- The leaf of an address that passed its checks. -/
def leafOf (s : State) (who ctx va : Nat) (need : Need) : Option Leaf := match xlate s who ctx va need with
  | .ok l => some l
  | _ => none

/-- R233, order 2: a read of n bytes of a record by a command. -/
def readRecord (s : State) (who core ctx tag va n : Nat) : Except Bad (List Nat × State) :=
  match accessBad s who ctx tag { need := .load } va with
  | some b => .error b
  | none => match leafOf s who ctx va .load with
    | none => .error { code := 0x21, va := va }
    | some leaf =>
      match readBad s ctx tag leaf.ver va (leaf.addr va) with
      | some b => .error b
      | none =>
        let (v, s) := readHome core ctx tag leaf (leaf.addr va) n s
        .ok (toBytes n v, fillTlb who ctx va leaf s)

/-- R242, R243: the error of one move. Reads of the source come first. -/
def moveBad (s : State) (c : Cmd) (covered : List Nat) (m : Move) : Option Bad :=
  let pol := c.policy
  let src := match m.src with
    | .glob va =>
      match accessBad s c.unit c.ctx c.tag { need := .load, fe := pol == 1 || pol == 3 } va with
      | some b => some b
      | none => (leafOf s c.unit c.ctx va .load).bind fun l => readBad s c.ctx c.tag l.ver va (l.addr va)
    | _ => none
  let dst := match m.dst with
    | .glob va =>
      match accessBad s c.unit c.ctx c.tag { need := .store, fe := pol ≤ 1, write := true, spec := true } va with
      | some b => some b
      | none => (leafOf s c.unit c.ctx va .store).bind fun l =>
          if s.ecc.contains (l.addr va / 128) && committedView s c.ctx c.tag l.ver (l.addr va)
              && !covered.contains (l.addr va / 128) then
            some { code := 0x23, va := va, ecc := some (l.addr va) }
          else none
    | _ => none
  match src with
  | some b => some b
  | none => dst

/-- The first error of a list of moves. -/
def firstBad (s : State) (c : Cmd) (covered : List Nat) : List Move → Option Bad
  | [] => none
  | m :: ms => match moveBad s c covered m with
    | some b => some b
    | none => firstBad s c covered ms

/-- The physical address a move writes. -/
def destPa (s : State) (c : Cmd) (m : Move) : Option Nat := match m.dst with
  | .glob va => (leafOf s c.unit c.ctx va .store).map fun l => l.addr va
  | _ => none

/-- R185: the sectors all of whose 128 bytes a list of moves writes. -/
def coveredSectors (s : State) (c : Cmd) (ms : List Move) : List Nat :=
  let ds := ms.filterMap fun m => (destPa s c m).map fun a => (a, m.n)
  ((ds.map fun d => d.1 / 128).eraseDups).filter fun k =>
    (ds.filter (fun d => d.1 / 128 == k)).eraseDups.foldl (fun n d => n + d.2) 0 == 128

/-! ## Performing a move -/

/-- Whether a scratch cell's bank still carries its owner tag (R248). -/
def resident (s : State) (a : Nat) : Bool := s.cohorts.any (·.tags.contains (scratchTag a))

/-- R249: DROPS of a core rises, holding at its greatest value. -/
def countDrop (core : Nat) (s : State) : State :=
  let v := SMap.get 0 s.cpdiag core
  { s with cpdiag := SMap.set 0 s.cpdiag core (if v % 2 ^ 24 == 0xFFFFFF then v else v + 1) }

/-- R249: LASTERR of a core. -/
def setLastErr (core code : Nat) (s : State) : State :=
  { s with cpdiag := SMap.set 0 s.cpdiag core (SMap.get 0 s.cpdiag core % 2 ^ 24 + code % 256 * 2 ^ 24) }

/-- R234, R242: the value and full/empty bit that a move reads. -/
def moveRead (c : Cmd) (m : Move) (s : State) : Nat × Bool × State := match m.src with
  | .none => (m.fill, true, s)
  | .cell a => (readScratch s.scratch a m.n, scratchFull s (a / 4 * 4), s)
  | .glob va => match leafOf s c.unit c.ctx va .load with
    | none => (0, false, s)
    | some leaf =>
      let pa := leaf.addr va
      let (v, s) := readHome c.core c.ctx c.tag leaf pa m.n (fillTlb c.unit c.ctx va leaf s)
      (v, viewFe s c.ctx c.tag leaf.ver pa, s)

/-- R234, R242: a value written where a move writes. -/
def moveWrite (c : Cmd) (m : Move) (v : Nat) (fe : Option Bool) (s : State) : State := match m.dst with
  | .none => s
  | .cell a =>
    if !resident s a then s
    else
      let s := storeScratch a m.n v s
      match fe with
      | some b => setScratchFe (a / 4 * 4) b s
      | none => s
  | .glob va => match leafOf s c.unit c.ctx va .store with
    | none => s
    | some leaf =>
      let pa := leaf.addr va
      let s := viewWrite c.ctx c.tag leaf.ver leaf.cached pa m.n v (recallLine pa (fillTlb c.unit c.ctx va leaf s))
      match fe with
      | some b => viewSetFe c.ctx c.tag leaf.ver leaf.cached (pa / 4 * 4) b s
      | none => s

/-- One move performed. -/
def doMove (c : Cmd) (m : Move) (s : State) : State :=
  let (v, full, s) := moveRead c m s
  moveWrite c m v (if c.policy == 1 then some full else none) s

/-- R242: the full/empty bit of a destination word set by FEPOL 0. -/
def fillWord (c : Cmd) (p : Place) (s : State) : State := match p with
  | .none => s
  | .cell a => if resident s a then setScratchFe a true s else s
  | .glob va => match leafOf s c.unit c.ctx va .store with
    | some leaf => viewSetFe c.ctx c.tag leaf.ver leaf.cached (leaf.addr va) true s
    | none => s

/-- The word that a place lies in. -/
def Place.word : Place → Place
  | .none => .none
  | .glob va => .glob (va / 4 * 4)
  | .cell a => .cell (a / 4 * 4)

/-- R242: with FEPOL 0, the words whose last byte some moves have written become full; `later` are the moves of the
command that are still to come. -/
def fillWords (c : Cmd) (ms later : List Move) (s : State) : State :=
  if c.policy != 0 || c.kind == 1 then s
  else
    let rest := later.map fun m => m.dst.word
    ((ms.map fun m => m.dst.word).eraseDups.filter fun p => !rest.contains p).foldl (fun s p => fillWord c p s) s

/-- Moves performed, with the full/empty bits of the words that they finish. -/
def doMoves (c : Cmd) (ms later : List Move) (s : State) : State :=
  fillWords c ms later (ms.foldl (fun s m => doMove c m s) s)

/-- R242: whether a move waits, under FEPOL 3, for its source word to become full. -/
def moveWaits (s : State) (c : Cmd) (m : Move) : Bool :=
  c.policy == 3 && c.kind != 1 && (match m.src with
    | .none => false
    | .cell a => !scratchFull s (a / 4 * 4)
    | .glob va => match leafOf s c.unit c.ctx va .load with
      | some l => !viewFe s c.ctx c.tag l.ver (l.addr va / 4 * 4)
      | none => false)

/-- R185, R371: the sectors of a list that moves of a command have written as committed data. -/
def committedSectors (s : State) (c : Cmd) (ms : List Move) (ks : List Nat) : List Nat :=
  ks.filter fun k => ms.any fun m => match m.dst with
    | .glob va => (leafOf s c.unit c.ctx va .store).any fun l => l.addr va / 128 == k && (!l.ver || c.tag == 0)
    | _ => false

/-- R185: sectors that a chunk has written whole are poisoned no longer. -/
def clearPoison (ks : List Nat) (s : State) : State :=
  { s with poison := s.poison.filter fun x => !ks.contains x, ecc := s.ecc.filter fun x => !ks.contains x }

/-- R248: whether some of the moves reach a scratch bank that has changed owner. -/
def movesDropped (s : State) (ms : List Move) : Bool := ms.any fun m => match m.dst with
  | .cell a => !resident s a
  | _ => false

/-! ## Copy barriers (R238-R240) -/

/-- The offset of the cell of a command's barrier, or none where its bank has changed owner (R248). -/
def Cmd.barrier (c : Cmd) (s : State) : Option Nat := if resident s c.bar then some c.bar else none

/-- R241: whether a CWAIT is over, for the barrier at a cell. -/
def cwaitOver (s : State) (a t : Nat) (mask : Lanes) : Bool :=
  let expect := readScratch s.scratch a 2
  flag (readScratch s.scratch (a + 8) 1) 0 ||
    (lanesOf mask).all fun i =>
      let k := 64 * t + i
      expect ≤ k || flag (readScratch s.scratch (a + 16 + 4 * (k / 32)) 4) (k % 32)

/-- R241: the result of a CWAIT that is over: the barrier's error above 1 when it is poisoned. -/
def cwaitStatus (s : State) (a : Nat) : Word :=
  let st := readScratch s.scratch (a + 8) 2
  BitVec.ofNat 32 (if flag st 0 then st / 256 * 256 + 1 else 0)

/-- R241: the waits on a barrier are tested at an engine step on it. -/
def testWaits (a : Nat) (s : State) : State :=
  mapWaves (fun w => match w.hold with
    | .cwait cell t mask d none =>
      if cell == a && cwaitOver s a t mask then { w with hold := .cwait cell t mask d (some (cwaitStatus s a)) } else w
    | _ => w) s

/-- R239: chunk slot `slot` set; DONE rises, and PHASE with it when the phase completes. -/
def setSlot (a slot : Nat) (s : State) : State :=
  let v := readScratch s.scratch a 8
  let done := (bits v 32 16 + 1) % 2 ^ 16
  let poison := flag (readScratch s.scratch (a + 8) 1) 0
  let phase := if done == bits v 0 16 && !poison then (bits v 48 16 + 1) % 2 ^ 16 else bits v 48 16
  let w := a + 16 + 4 * (slot / 32)
  let map := (BitVec.ofNat 32 (readScratch s.scratch w 4) ||| BitVec.twoPow 32 (slot % 32)).toNat
  testWaits a (storeScratch w 4 map (storeScratch a 8 (bits v 0 32 + done * 2 ^ 32 + phase * 2 ^ 48) s))

/-- R239: one chunk's slot set by a command, or its step dropped (R248). -/
def landSlot (c : Cmd) (k : Nat) (s : State) : State :=
  if c.kind == 3 || c.kind == 4 then s
  else match c.barrier s with
    | some a => setSlot a (c.base + k) s
    | none => countDrop c.core s

/-- R240: the barrier of a command is poisoned; LASTERR takes the errors of the core's copy engine (R249). -/
def poisonBarrier (c : Cmd) (code : Nat) (s : State) : State :=
  let s := if c.kind == 0 || c.kind == 3 then setLastErr c.core code s else s
  if c.kind == 3 || c.kind == 4 then s
  else match c.barrier s with
    | none => countDrop c.core s
    | some a =>
      let e := readScratch s.scratch (a + 9) 1
      testWaits a
        (storeScratch (a + 8) 2 (readScratch s.scratch (a + 8) 1 / 2 * 2 + 1 + (if e == 0 then code else e) * 2 ^ 8) s)

/-! ## Batches (R244) -/

/-- R244: one command of a batch slot is complete. -/
def Batch.finish (err : Nat) (b : Batch) : Batch :=
  { b with incomplete := b.incomplete - 1, err := if b.err == 0 then err else b.err }

/-- A command is complete (R244, R382): its batch records it; a copy packet completes. -/
def finishCmd (c : Cmd) (err : Nat) (s : State) : State :=
  let s := { s with cmds := s.cmds.filter (·.id != c.id) }
  match c.packet with
  | some p => complete p (if err == 0 then 0 else 2) err c.tag s
  | none =>
    mapWaves (fun w =>
      if w.id == c.wave && !w.ended && c.kind != 4 && (SMap.get {} w.batches c.batch).state != 0 then
        { w with batches := SMap.set {} w.batches c.batch ((SMap.get {} w.batches c.batch).finish err) }
      else w) s

/-- The engine has read every register of a command (R36): it leaves its counter. -/
def leaveWcp (id : Nat) (s : State) : State :=
  let mark := fun (o : Op) =>
    if o.ctr == 2 && o.src.any (fun e => e.2.headD 0 == id) then { o with perf := o.lanes } else o
  retire (mapWaves (fun w => { w with ops := w.ops.map mark }) s)

/-- R175: whether an error that writes a fault record can be recorded now. -/
def badReady (s : State) (c : Cmd) (b : Bad) : Bool := b.rec_.isNone || (ringRoom s (c.core / 32)).isSome

/-- R243, R258: the fault record of an error. -/
def recordBad (c : Cmd) (b : Bad) (s : State) : State := match b.rec_ with
  | none => s
  | some (level, reason) =>
    postFault (c.core / 32)
      { addr := b.va, ctx := c.ctx, version := c.tag, core := c.core, wave := c.slot, part := c.part
        kind := if c.kind == 0 || c.kind == 3 then 5 else 6, level := level, reason := reason } s

/-- R240, R243: a command is poisoned by its first error and is complete. A full fault ring delays this (R175). -/
def poisonCmd (c : Cmd) (b : Bad) (after : State → State) (s : State) : State :=
  if !badReady s c b then s
  else
    let s := match b.ecc with
      | some pa => findEcc s pa
      | none => s
    finishCmd c b.code (after (poisonBarrier c b.code (recordBad c b s)))

/-! ## Acceptance (R237, R239, R250) -/

/-- R7, R238: whether a barrier has a reserved bit set. -/
def barReserved (s : State) (a : Nat) : Bool :=
  let v := readScratch s.scratch (a + 8) 8
  bits v 1 7 != 0 || bits v 16 48 != 0

/-- R239: the outcome of a reservation of n slots on a barrier: the new status word and the base, or an error code. A
barrier with a reserved bit set is refused with the code that R233 gives a record, and an overrun is found before a bitmap
outside its region: DEDUCED and DESIGN CHOICE (log entry 73). -/
def reserve (c : Cmd) (a n : Nat) (s : State) : Except Nat (Nat × State) :=
  let v := readScratch s.scratch a 8
  let expect := bits v 0 16
  let next := bits v 16 16
  if barReserved s a then .error 0x02
  else if 256 < expect || expect < next + n then .error 0x39
  else
    let inRange := (c.tags.map fun t => t * 2 ^ 28).any fun base =>
      base ≤ a && a + 16 + 4 * ((expect + 31) / 32) ≤ base + c.scratch
    if !inRange then .error 0x21
    else .ok (next, testWaits a (storeScratch a 8 (expect + (next + n) % 2 ^ 16 * 2 ^ 16 + bits v 32 32 * 2 ^ 32) s))

/-- R237, R242: the words of a scratch range set empty. DESIGN CHOICE (log entry 73): a word so emptied wakes its waiters, as
any write of a full/empty bit does (R218). -/
def emptyWords (a n : Nat) (s : State) : State :=
  if !resident s a then s
  else (List.range ((a + n + 3) / 4 - a / 4)).foldl (fun s k => setScratchFe (4 * (a / 4 + k)) false s) s

/-- R239: an accepted command that passed its checks reserves n slots; `prep` is what acceptance does besides. -/
def reserveCmd (c : Cmd) (n : Nat) (prep : State → State) (s : State) : State :=
  let keep := fun (base : Nat) (s : State) =>
    let c := { c with accepted := true, base := base, todo := List.range n }
    leaveWcp c.id (prep { s with cmds := s.cmds.filter (·.id != c.id) ++ [c] })
  if c.kind == 3 then keep 0 s
  else match c.barrier s with
    | none => keep 0 (countDrop c.core s)
    | some a => match reserve c a n s with
      | .error code => leaveWcp c.id (poisonCmd c { code := code } id s)
      | .ok (base, s) => keep base s

/-- R233, orders 3 to 5, for a COPY or a copy packet; the command with its scratch cell when all pass. -/
def checkCopy (c : Cmd) : Except Nat Cmd :=
  let r := c.record
  let tile := c.nums.getD 1 0
  let addr := if recMode r < 2 then tile % 2 ^ 32 else tile
  if recBad r || (c.kind == 3 && recMode r < 2) then .error 0x02
  else if recMisaligned r || addr % recEs r != 0
      || (recFmt r == 5 && (field r 16 4 % 2 != 0 || field r 26 2 % 2 != 0 || c.nums.getD 2 0 % 2 != 0)) then .error 0x20
  else if recMode r < 2 then
    match cellAt c.tags c.rank c.scratch c.column addr (recBytes r) with
    | none => .error 0x21
    | some a => .ok { c with nums := c.nums.set 1 a }
  else .ok c

/-- R256, orders 3 to 5. -/
def checkLayout (c : Cmd) : Option Nat :=
  let rs := c.record.take 128
  let rd := c.record.drop 128
  let map := c.nums.getD 2 0
  let dims := recDims rs
  let ext := logicalExtents map rs
  let L := ext.length
  let runs := mergeRuns map (L - 1) ext [] (List.range L) 0 1
  if recBad rs || recBad rd || recMode rs != 0 || recMode rd != 0 || recFe rs != 0 || recFe rd != 0
      || recFmt rs != recFmt rd || recFmt rs == 5 then some 0x02
  else if (List.range 8).any (fun d => recNdim rs ≤ d && bits map (4 * d) 4 != 0)
      || dims.any (fun d => recBox rs d % 2 ^ bits map (4 * d) 4 != 0) || 8 < L
      || (List.range L).any (fun l => !(List.range L).any fun j => bits map (32 + 3 * j) 3 == l)
      || (List.range 8).any (fun j => L ≤ j && bits map (32 + 3 * j) 3 != 0)
      || (List.range 7).any (fun i => L ≤ i + 1 && flag map (56 + i))
      || runs.length != recNdim rd || runs.map Prod.snd != (recDims rd).map (recBox rd)
      || (flag map 63 && recEs rs != 4) then some 0x02
  else if recMisaligned rs || recMisaligned rd then some 0x20
  else none

/-- R233, R256: the records of a command read at acceptance. -/
def readRecords (c : Cmd) (s : State) : Except Bad (List Nat × State) :=
  let one := fun (va : Nat) (s : State) => readRecord s c.unit c.core c.ctx c.tag va 128
  if c.kind == 1 then
    let a := c.nums.getD 0 0
    let b := c.nums.getD 1 0
    if a % 128 != 0 || b % 128 != 0 then .error { code := 0x20 }
    else match one a s with
      | .error e => .error e
      | .ok (r, s) => match one b s with
        | .error e => .error e
        | .ok (q, s) => .ok (r ++ q, s)
  else if c.nums.getD 0 0 % 128 != 0 then .error { code := 0x20 }
  else one (c.nums.getD 0 0) s

/-- R250: whether the engine may accept a command now: in issue order of its core, and, for a layout engine, in
round-robin order over the cores of its cluster (`rr` holds the last core taken, plus one). -/
def mayAccept (s : State) (c : Cmd) : Bool :=
  let lay := fun (x : Cmd) => x.kind == 1 || x.kind == 2
  let waiting := s.cmds.filter fun x => !x.accepted && lay x == lay c && x.kind != 4
  let mine := waiting.filter (·.core == c.core)
  let last := SMap.get 0 s.rr (1024 + c.core / 4)
  let turn := fun (core : Nat) => (core % 4 + 4 - last % 4) % 4
  let sooner := waiting.any fun x => x.core / 4 == c.core / 4 && turn x.core < turn c.core
  (mine.head?).any (·.id == c.id) && (!lay c || !sooner)

/-- R250: the round-robin turn of a layout engine passes on. -/
def noteAccept (c : Cmd) (s : State) : State :=
  if c.kind == 1 || c.kind == 2 then { s with rr := SMap.set 0 s.rr (1024 + c.core / 4) (c.core % 4 + 1) } else s

/-- COPY_ACCEPT (R237, R239, R250): an engine accepts the issued command id: its records are read and checked, and its
slots reserved. -/
def acceptCmd (c : Cmd) (s : State) : State :=
  let s := noteAccept c s
  if c.kind == 2 then reserveCmd c 1 (fun s => s) s
  else match readRecords c s with
    | .error b => if badReady s c b then leaveWcp c.id (poisonCmd c b (fun s => s) s) else s
    | .ok (r, s) =>
      let c := { c with record := r }
      if c.kind == 1 then
        match checkLayout c with
        | some code => leaveWcp c.id (poisonCmd c { code := code } (fun s => s) s)
        | none => reserveCmd c ((recBytes (r.take 128) + 511) / 512) (fun s => s) s
      else match checkCopy c with
        | .error code => leaveWcp c.id (poisonCmd c { code := code } (fun s => s) s)
        | .ok c =>
          let empty := recMode r == 0 && recFe r == 0
          reserveCmd c ((recBytes r + 511) / 512)
            (if empty then emptyWords (c.nums.getD 1 0) (recBytes r) else fun s => s) s

/-! ## Chunks (R239, R240, R243) -/

/-- R240: the pieces of 16 packed bytes named by the bits of `part` were copied before a command was poisoned at chunk
`bad`; of the chunks `ks` still to come, one all of whose pieces were copied completes and sets its slot. The words of a
chunk that does not keep their full/empty bits under FEPOL 0 (R242); a sector that the pieces of a chunk wrote whole is
poisoned no longer (R243). -/
def partialChunks (c : Cmd) (part : Nat) (bad : Nat) : List Nat → State → State
  | [], s => s
  | k :: ks, s =>
    let ms := c.moves k
    let covered := coveredSectors s c ms
    let go := ms.filter fun m => flag part (m.off / 16) && (moveBad s c covered m).isNone && !moveWaits s c m
    let whole := k != bad && go.length == ms.length
    let rest := ms.filter (fun m => !go.contains m) ++ ks.flatMap c.moves
    let t := if whole then doMoves c go rest s else go.foldl (fun s m => doMove c m s) s
    let t := clearPoison (committedSectors s c go (coveredSectors s c go)) t
    partialChunks c part bad ks
      (if !whole then t else if movesDropped s ms then countDrop c.core t else landSlot c k t)

/-- R239, R246: a chunk lands: its moves are performed, then its slot is set. -/
def landChunk (c : Cmd) (k : Nat) (ms : List Move) (covered : List Nat) (s : State) : State :=
  let rest := c.todo.filter (· != k)
  let t := clearPoison (committedSectors s c ms covered) (doMoves c ms (rest.flatMap c.moves) s)
  let t := if movesDropped s ms then countDrop c.core t else landSlot c k t
  if rest.isEmpty then finishCmd { c with todo := [] } 0 t
  else { t with cmds := updFirst (·.id == c.id) (fun x => { x with todo := rest }) t.cmds }

/-- R242: a chunk that waits for a full word is given up when the command's context has ended. -/
def abandonChunk (c : Cmd) (k : Nat) (s : State) : State :=
  let rest := c.todo.filter (· != k)
  if rest.isEmpty then finishCmd { c with todo := [] } 0 s
  else { s with cmds := updFirst (·.id == c.id) (fun x => { x with todo := rest }) s.cmds }

/-- R242: the chunks of a command that wait for full words. -/
def Cmd.waitingChunks (c : Cmd) (s : State) : List Nat :=
  if c.accepted && c.policy == 3 && c.kind != 1 then c.todo.filter fun k => (c.moves k).any (moveWaits s c) else []

/-- R242: the waits for full words of the commands of a context are abandoned. -/
def abandonWaits (ctx : Nat) (s : State) : State :=
  (s.cmds.filter (·.ctx == ctx)).foldl (fun s c =>
    (c.waitingChunks s).foldl (fun s k => match s.cmds.find? (·.id == c.id) with
      | some c => abandonChunk c k s
      | none => s) s) s

/-- CHUNK_COMPLETE (R239, R243): one chunk of an accepted command lands, or poisons it. -/
def completeChunk (c : Cmd) (k part : Nat) (s : State) : State :=
  let ms := c.moves k
  let covered := coveredSectors s c ms
  match firstBad s c covered ms with
  | some b => poisonCmd c b (partialChunks c part k c.todo) s
  | none =>
    if !ms.any (moveWaits s c) then landChunk c k ms covered s
    else if 4096 ≤ c.ctx then abandonChunk c k s
    else s

/-- COPY_ACCEPT (R239). -/
def execEvCopyAccept (id : Nat) (s : State) : Out :=
  .next (match s.cmds.find? (·.id == id) with
    | some c => if !c.accepted && c.kind != 4 && mayAccept s c then acceptCmd c s else s
    | none => s)

/-- CHUNK_COMPLETE (R239, R243). -/
def execEvChunkComplete (id chunk part : Nat) (s : State) : Out :=
  .next (match s.cmds.find? (·.id == id) with
    | some c =>
      if c.accepted && c.todo.contains chunk && (c.kind == 0 || c.kind == 3 || (c.kind == 1 && c.started)) then
        completeChunk c chunk part s
      else s
    | none => s)

/-! ## Issue (R236, R241, R245) -/

/-- R236: the leader lanes of a command. -/
def leaders (w : Wave) (f : CF) : Lanes := w.active &&& (if f.pn == 1 then ~~~w.preds f.p else w.preds f.p)

/-- R244: whether a command stalls on its batch slot. -/
def batchStalls (b : Batch) : Bool := (b.state == 2 && b.incomplete != 0) || 63 ≤ b.incomplete
/-- R244: a batch slot that a command joins. -/
def Batch.join (b : Batch) : Batch :=
  if b.state == 1 then { b with incomplete := b.incomplete + 1 } else { state := 1, incomplete := 1, err := 0 }

/-- R21, R236: the cell of a barrier, which the column does not hold. -/
def barrierCheck (s : State) (bar : Nat) : Check :=
  if bar % 16 == 0 && 0x1000000 ≤ bar then .trap .memXlate else checkScratch s 16 bar

/-- R236, R252: a command issued by its leader lane. `nums` are the operands read from it; `room` is the engine's room
for it (R250). -/
def issueCmd (i : Instr) (f : CF) (kind : Nat) (nums : Nat → List Nat) (room : Bool) (s : State) : State :=
  let w := s.w
  let ls := leaders w f
  if ls == 0 then s
  else
    let lead := lowest ls
    match barrierCheck s f.bar with
    | .trap c => raise c (laneBit lead) 0 (BitVec.ofNat 64 f.bar) s
    | .replay _ => s
    | .ok cell =>
      let b := SMap.get {} w.batches f.batch
      if batchStalls b || !room then holdAgain i s
      else
        let id := s.nextId
        let tags := (s.myCohort.map Cohort.tags).getD []
        let k := s.myLaunch.map Launch.kernel
        let c : Cmd :=
          { id := id, kind := kind, core := w.core, wave := w.id, batch := f.batch, cohort := w.cohort, ctx := s.ctxId
            tag := w.version, owner := tags.getD w.rank 0, bar := cell.pa, nums := nums lead, tags := tags
            rank := w.rank, scratch := (k.map Kernel.scratch).getD 0, column := (k.map Kernel.column).getD 0
            slot := w.slot, part := w.part, lane := lead }
        let s := pushOp i 2 [lead] (fun _ => [id]) [] s
        let w := { s.w with batches := SMap.set {} s.w.batches f.batch b.join }
        { s with nextId := id + 1, cmds := s.cmds ++ [c], w := w.markStored (laneBit lead) }

/-- Five coordinate registers of a lane. -/
def coords (w : Wave) (l r : Nat) : List Nat := (List.range 5).map fun d => (w.vreg l (r + d)).toNat

/-- COPY (R236). -/
def execCopy (f : CF) (s : State) : Out :=
  .next (issueCmd (.copy f) f 0
    (fun l => [(s.w.spair f.sa).toNat, (s.w.vpair l f.vb).toNat] ++ coords s.w l f.va) true s)

/-- R250: whether a cluster's layout engine has room for a command: fewer than 16 not started. -/
def layoutRoom (s : State) : Bool :=
  (s.cmds.filter fun c => (c.kind == 1 || c.kind == 2) && c.core / 4 == s.w.core / 4 && !c.started).length < 16

/-- LAYOUT (R252). -/
def execLayout (f : CF) (s : State) : Out :=
  .next (issueCmd (.layout f) f 1
    (fun l => [(s.w.spair f.sa).toNat, (s.w.spair (f.sa + 2)).toNat, (s.w.spair (f.sa + 4)).toNat]
      ++ coords s.w l f.va ++ coords s.w l f.vb) (layoutRoom s) s)

/-- PUT (R259); the operands are source, destination, counter, byte count and increment. -/
def execPut (f : CF) (s : State) : Out :=
  .next (issueCmd (.put f) f 2
    (fun l => [(s.w.spair f.sa).toNat, (s.w.spair (f.sa + 2)).toNat, (s.w.spair (f.sa + 4)).toNat
               , (s.w.vreg l f.va).toNat, (s.w.vreg l f.vb).toNat]) (layoutRoom s) s)

/-- CWAIT (R241). -/
def execCwait (f : V3) (s : State) : Out :=
  let w := s.w
  let bar := (w.sreg f.a).toNat
  .next (if w.idle then s
    else match checkScratch s 16 bar with
      | .trap c => raise c w.active (dstOf 2 f.d) (BitVec.ofNat 64 bar) s
      | .replay _ => s
      | .ok cell =>
        if cwaitOver s cell.pa f.t (w.spair f.b) then cwaitEnd f.d (cwaitStatus s cell.pa) s
        else { s with w := { w with hold := .cwait cell.pa f.t (w.spair f.b) f.d none } })

/-- R245: a batch slot sealed. -/
def sealBatch (b : Nat) (w : Wave) : Wave :=
  { w with batches := SMap.set {} w.batches b { SMap.get {} w.batches b with state := 2 } }

/-- CSEAL (R245). -/
def execCseal (f : SF) (s : State) : Out :=
  .next (if s.w.idle then s else { s with w := sealBatch f.imm s.w })

/-- CBWAIT (R245). The lines of the core's L1 are dropped, so that later accesses of the leaders meet the commands'
writes (R199). -/
def execCbwait (f : SF) (s : State) : Out :=
  .next (if s.w.idle then s
    else
      let s1 := { s with w := sealBatch f.imm s.w }
      let b := SMap.get {} s1.w.batches f.imm
      if b.incomplete != 0 then holdAgain (.cbwait f) s1
      else
        let v := if b.err == 0 then 0 else b.err * 256 + 1
        let s2 := writeS f.sd (BitVec.ofNat 32 v) { s1 with w := { s1.w with batches := SMap.set {} s1.w.batches f.imm {} } }
        acquireNow s2.w.core 2 {} s2)

end Sys2Proof.Machine
end

