-- ==== Sys2Proof/Machine/FpArith.lean ====
section
/-!
DEFINITION. Meanings of the floating-point instructions, opcodes 0x00 to 0x15 (R111-R120).
-/

namespace Sys2Proof.Machine

/-- FADD (R113): a + b. -/
def execFadd (f : V3) (s : State) : Out := .next (fpV3 f (arith s.w.fpmode f 2 opAdd) s)

/-- FSUB (R113): a − b. -/
def execFsub (f : V3) (s : State) : Out := .next (fpV3 f (arith s.w.fpmode f 2 opSub) s)

/-- FMUL (R113): a × b. -/
def execFmul (f : V3) (s : State) : Out := .next (fpV3 f (arith s.w.fpmode f 2 opMul) s)

/-- FFMA (R113): a × b + c, rounded once. -/
def execFfma (f : V3) (s : State) : Out := .next (fpV3 f (arith s.w.fpmode f 3 opFma) s)

/-- FMIN (R114): minimumNumber. -/
def execFmin (f : V3) (s : State) : Out := .next (fpV3 f (fun a b _ => minmax s.w.fpmode f false false a b) s)

/-- FMAX (R114): maximumNumber. -/
def execFmax (f : V3) (s : State) : Out := .next (fpV3 f (fun a b _ => minmax s.w.fpmode f true false a b) s)

/-- FMINP (R114): minimum. -/
def execFminp (f : V3) (s : State) : Out := .next (fpV3 f (fun a b _ => minmax s.w.fpmode f false true a b) s)

/-- FMAXP (R114): maximum. -/
def execFmaxp (f : V3) (s : State) : Out := .next (fpV3 f (fun a b _ => minmax s.w.fpmode f true true a b) s)

/-- FRCP (R113): 1/a. -/
def execFrcp (f : V3) (s : State) : Out := .next (fpV3 f (arith s.w.fpmode f 1 opRcp) s)

/-- FRSQ (R113): 1/√a. -/
def execFrsq (f : V3) (s : State) : Out := .next (fpV3 f (arith s.w.fpmode f 1 opRsq) s)

/-- FSQRT (R113): √a. -/
def execFsqrt (f : V3) (s : State) : Out := .next (fpV3 f (arith s.w.fpmode f 1 opSqrt) s)

/-- FDIV (R113): a / b. -/
def execFdiv (f : V3) (s : State) : Out := .next (fpV3 f (arith s.w.fpmode f 2 opDiv) s)

/-- FEXP2 (R115): 2^a. -/
def execFexp2 (f : V3) (s : State) : Out := .next (fpV3 f (fun a _ _ => func s.w.fpmode f true fExp2 a) s)

/-- FLOG2 (R115): log2(a). -/
def execFlog2 (f : V3) (s : State) : Out := .next (fpV3 f (fun a _ _ => func s.w.fpmode f false fLog2 a) s)

/-- FSIN (R115): sin(2πa). -/
def execFsin (f : V3) (s : State) : Out := .next (fpV3 f (fun a _ _ => func s.w.fpmode f false fSin a) s)

/-- FCOS (R115): cos(2πa). -/
def execFcos (f : V3) (s : State) : Out := .next (fpV3 f (fun a _ _ => func s.w.fpmode f false fCos a) s)

/-- FRINT (R116): a rounded to an integral value. -/
def execFrint (f : V3) (s : State) : Out := .next (fpV3 f (fun a _ _ => rint s.w.fpmode f a) s)

/-- FFRAC (R116): the fraction of a. -/
def execFfrac (f : V3) (s : State) : Out := .next (fpV3 f (fun a _ _ => frac s.w.fpmode f a) s)

/-- FDOT2 (R117): the exact sum of two products and the old F32 destination, rounded once. -/
def execFdot2 (f : V3) (s : State) : Out :=
  .next (fpResult f.d (fun l => dot2 s.w.fpmode f (s.w.srcA f l) (s.w.srcB f l) (s.w.vreg l f.d)) s)

/-- FCLASS (R118): the class mask of a; no exception. -/
def execFclass (f : V3) (s : State) : Out := .next (writeV f.d (fun l => fclassOp s.w.fpmode f (s.w.srcA f l)) s)

/-- FSCALE (R119): a × 2^n. -/
def execFscale (f : V3) (s : State) : Out := .next (fpV3 f (fun a b _ => scale s.w.fpmode f a b) s)

/-- FCMP (R120): a condition on a and b into a predicate; TRAPDST kind 3 names it. -/
def execFcmp (f : V3) (s : State) : Out :=
  let r := fun l => fcmpOp s.w.fpmode f (s.w.srcA f l) (s.w.srcB f l)
  .next (completeFp (fun l => (r l).2) (dstOf 3 (f.d % 8)) (writeP (f.d % 8) (fun l => (r l).1) s))

end Sys2Proof.Machine
end

