-- ==== Sys2Proof/Machine/FullEmpty.lean ====
section
/-!
DEFINITION. The full/empty special forms and WAITA: attempts, parking, waking and re-evaluation (R211-R221).
-/

namespace Sys2Proof.Machine

/-- The kinds of waits (R217): 1 wait for full, 2 consume, 3 fill, 4 value wait. -/
def waitKind : Instr → Nat
  | .ldw _ | .ldsw _ => 1
  | .ldc _ | .ldsc _ => 2
  | .stf _ | .stsf _ => 3
  | _ => 4

/-- R172: what a special form needs of its page. -/
def waitAsk : Instr → Ask
  | .ldw _ => { need := .load, fe := true }
  | .ldc _ => { need := .rmw, fe := true, write := true, spec := true }
  | .stf _ => { need := .rmw, fe := true, write := true, spec := true }
  | _ => { need := .load }

/-- R211, R221: whether a wait of a kind is satisfied; `t` is the T field of WAITA. -/
def satisfied (kind t value data : Nat) (full : Bool) : Bool := match kind with
  | 1 | 2 => full
  | 3 => !full
  | _ => if t == 0 then value != data else value == data

/-- The T field of WAITA. -/
def waitT : Instr → Nat
  | .waita f => f.t
  | _ => 0

/-- The outcome of an attempt (R211). -/
inductive Attempt where
  | done (value : Nat)
  | park
  | err (c : Cause)
  deriving DecidableEq, Repr

/-- R211, R221: one attempt at a global word, at its home, with the release of a fill before and the acquire of a load
after (R196). -/
def attemptGlobal (i : Instr) (va data : Nat) (leaf : Leaf) (tag : Nat) (s : State) : Attempt × State :=
  let ctx := s.ctxId
  let pa := leaf.addr va
  let kind := waitKind i
  match viewError s ctx tag leaf.ver pa with
  | some c => (.err c, findEcc s pa)
  | none =>
    let (v, s) := readHome s.w.core ctx tag leaf pa 4 s
    if !satisfied kind (waitT i) v data (viewFe s ctx tag leaf.ver pa) then (.park, s)
    else
      let e := extentOf s ctx va
      let scope := (orderOf i).2
      match kind with
      | 1 => (.done v, acquireNow s.w.core scope e s)
      | 2 => (.done v, acquireNow s.w.core scope e (viewSetFe ctx tag leaf.ver leaf.cached pa false s))
      | 3 =>
        let s := viewWrite ctx tag leaf.ver leaf.cached pa 4 data (releaseNow scope e s)
        (.done v, viewSetFe ctx tag leaf.ver leaf.cached pa true (patchL1 s.w.core ctx tag leaf.ver pa 4 data s))
      | _ => (.done v, s)

/-- R211: one attempt at a scratch word, at its bank. -/
def attemptScratch (i : Instr) (cell data : Nat) (s : State) : Attempt × State :=
  let v := readScratch s.scratch cell 4
  let kind := waitKind i
  if !satisfied kind 0 v data (scratchFull s cell) then (.park, s)
  else
    let scope := (orderOf i).2
    match kind with
    | 1 => (.done v, acquireNow s.w.core scope {} s)
    | 2 => (.done v, acquireNow s.w.core scope {} (setScratchFe cell false s))
    | _ => (.done v, setScratchFe cell true (storeScratch cell 4 data (releaseNow scope {} s)))

/-! ## Placing a record (R216, R217) -/

/-- R216: how many records satisfy a test; the slots of one record share its number. -/
def recordsAt (s : State) (p : Wave → Park → Bool) : Nat :=
  (((allWaves s).flatMap fun w => (w.parks.filter fun x => p w x).map Park.recd).eraseDups).length

/-- R216: room in the park table of a core for a record. -/
def parkTableRoom (s : State) : Bool :=
  let core := s.w.core
  recordsAt s (fun w x => w.core == core && x.level == 1) < 64

/-- R216: the home slice and bank of a word. -/
def bankOf (pa : Nat) : Nat × Nat := (sliceOf pa, bits pa 15 6)

/-- R216: room in the waiter table of a word's bank. -/
def waiterTableRoom (s : State) (pa : Nat) : Bool :=
  recordsAt s (fun _ x => !x.scratch && x.level == 2 && bankOf x.pa == bankOf pa) < 16

/-- R186: whether a word's line can be held: it is pinned or held already, or its set has fewer than 11 pinned or held
ways, and a way is left free of pins and holds (R182). -/
def canHold (s : State) (pa : Nat) : Bool :=
  let kept := (setLines s (pa / 1024)).filter fun l => !l.pins.isEmpty || l.held
  let alive := ((List.range 12).filter fun w => !dieDead s (dieOf (pa / 1024) w)).length
  kept.any (·.num == pa / 1024) || kept.length < min 11 (alive - 1)

/-- R217: the address of a word's cloakroom bucket. -/
def bucketOf (c : Context) (va : Nat) : Nat :=
  let h := ihashOp (BitVec.ofNat 32 va) (BitVec.ofNat 32 (bits va 32 20))
  c.cloakPa + 256 * (h.toNat % 2 ^ c.cloakLog2)

/-- R217: the bytes of a cloakroom record. -/
def cloakRecord (s : State) (va ctx tag kind : Nat) (lanes : Lanes) : Nat :=
  let w := s.w
  va + (ctx + tag * 2 ^ 12 + w.core * 2 ^ 16 + w.slot % 32 * 2 ^ 23 + w.part * 2 ^ 28 + kind * 2 ^ 32) * 2 ^ 64
    + lanes.toNat * 2 ^ 128

/-- R217: a free record of a bucket. -/
def freeRecord (s : State) (bucket : Nat) : Option Nat :=
  ((List.range 8).map fun k => bucket + 32 * k).find? fun a => readMem s.mem (a + 12) 1 % 8 == 0

/-- R216: the level and cloakroom address for a group's record; none when no level has room. A word whose line cannot
be held has its record in the cloakroom (R186). -/
def placeRecord (s : State) (scratch hold : Bool) (va pa : Nat) : Option (Nat × Nat) :=
  if hold && parkTableRoom s then some (1, 0)
  else if scratch then none
  else if hold && waiterTableRoom s pa then some (2, 0)
  else match s.context s.ctxId with
    | none => none
    | some c => (freeRecord s (bucketOf c va)).map fun a => (3, a + 1)

/-- R186, R216: the waiters bit of a word's sector, or of its scratch block, is set in the step of the failed attempt; the
line of a cached word is held where it can be. -/
def noteWaiter (p : Park) (s : State) : State :=
  if p.scratch then { s with scratchWait := addOnce (p.pa / 128) s.scratchWait }
  else
    let s := setWaiters p.pa s
    if p.cached && canHold s p.pa then holdLine p.pa s else s

/-- R215, R216: failing lanes of one word park; without room each takes FE_PARKFULL (R204). -/
def parkGroup (slots : List Park) (s : State) : State := match slots with
  | [] => s
  | p :: _ =>
    let set := laneSet fun l => slots.any (·.lane == l)
    let w := s.w
    let hold := p.scratch || !p.cached || canHold s p.pa
    let s := noteWaiter p { s with w := { w with parked := w.parked ||| set, fast := false } }
    match placeRecord s p.scratch hold p.va p.pa with
    | none =>
      let t : LateTrap := { cause := .feParkfull, mask := set, pc := p.pc, word := p.word, dst := p.dst
                            addr := BitVec.ofNat 64 p.va }
      { s with w := ({ s.w with parks := s.w.parks ++ slots }).addLate t }
    | some (level, cloak) =>
      let put := slots.map fun q => { q with level := level, cloak := cloak, recd := s.nextId }
      let mem := if cloak == 0 then s.mem
        else writeMem s.mem (cloak - 1) 32 (cloakRecord s p.va s.ctxId p.version p.kind set)
      { s with w := { s.w with parks := s.w.parks ++ put }, mem := mem, nextId := s.nextId + 1 }

/-- R216: the failing lanes grouped by word, lowest lane first; `fuel` bounds the groups. -/
def parkLanes : Nat → List Park → State → State
  | 0, _, s => s
  | _, [], s => s
  | n + 1, p :: ps, s =>
    parkLanes n (ps.filter (·.pa != p.pa)) (parkGroup (p :: ps.filter (·.pa == p.pa)) s)

/-! ## Issue (R211-R213, R221) -/

/-- What the attempts of an instruction's lanes gave. -/
structure Tried where
  res : List Land := []
  parks : List Park := []
  errs : List (Nat × Cause) := []
  stored : Lanes := 0

/-- The destination register of a waiting load. -/
def waitDst : Instr → Option Nat
  | .ldw f | .ldc f | .ldsw f | .ldsc f => some f.d
  | .waita f => some f.d
  | _ => none

/-- The attempts of the lanes at issue, in ascending order. -/
def tryLanes (i : Instr) (scratch : Bool) (va data : Nat → Nat) (page : Nat → Option Leaf) :
    List Nat → State → Tried × State
  | [], s => ({}, s)
  | l :: ls, s =>
    match page l with
    | none => tryLanes i scratch va data page ls s
    | some leaf =>
      let w := s.w
      let (a, s) := if scratch then attemptScratch i leaf.pa (data l) s
        else attemptGlobal i (va l) (data l) leaf w.version s
      let (t, s) := tryLanes i scratch va data page ls s
      match a with
      | .done v =>
        let res := match waitDst i with
          | some d => landV l d v 1
          | none => []
        ({ t with res := res ++ t.res, stored := t.stored ||| laneBit l }, s)
      | .park =>
        let p : Park := { lane := l, i := i, pc := w.wordPc, word := w.word, va := va l, scratch := scratch
                          kind := waitKind i, data := data l, dst := destReg i, budget := w.waitBudget.toNat
                          version := w.version, level := 0, woken := false
                          pa := if scratch then leaf.pa else leaf.addr (va l), cached := leaf.cached }
        ({ t with parks := p :: t.parks }, s)
      | .err c => ({ t with errs := (l, c) :: t.errs }, s)

/-- R36, R213: a special form joins its counter with its results; the lanes that park count as complete. With no result
to land it leaves as soon as every earlier operation of the counter has left (R37). -/
def pushDone (i : Instr) (ctr : Nat) (lanes : List Nat) (res : List Land) (s : State) : State :=
  let w := s.w
  let set := laneSet fun l => lanes.contains l
  let o : Op := { ctr := ctr, i := i, pc := w.wordPc, word := w.word, lanes := set, perf := set, src := [], res := res
                  version := w.version, num := s.nextId }
  retire { s with nextId := s.nextId + 1, w := { w with ops := w.ops ++ [o] } }

/-- R204: errors of an instruction that attempted at issue. -/
def errsLate (i : Instr) (va : Nat → Nat) (errs : List (Nat × Cause)) (s : State) : State :=
  let w := s.w
  let o : Op := { ctr := 0, i := i, pc := w.wordPc, word := w.word, lanes := 0, version := w.version, src := [] }
  { s with w := { w with late := w.late ++ lateOf o (errs.map fun e => (e.1, e.2, va e.1)) } }

/-- R211, R212, R216: the attempts of an instruction at issue and what follows: results, parks, late traps. WAITA is not
counted; its values are written at once (R221). -/
def attemptAll (i : Instr) (scratch : Bool) (va data : Nat → Nat) (lanes : List Nat) (pages : List (Nat × Leaf))
    (s : State) : State :=
  let page := fun l => (pages.find? (·.1 == l)).map Prod.snd
  let (t, s) := tryLanes i scratch va data page lanes s
  let s := match i with
    | .waita _ => { s with w := landAll 0 t.res s.w }
    | _ => pushDone i (if waitKind i == 3 then 1 else 0) lanes t.res { s with w := if t.stored == 0 then s.w else s.w.markStored t.stored }
  errsLate i va t.errs (parkLanes 64 t.parks s)

/-- Whether an instruction that attempts at issue must wait for earlier accesses of its wave: an acquire not yet
performed (R206), an earlier access of a lane to the same word (R188), or, for a fill, what its release waits for. -/
def attemptWaits (i : Instr) (va : Nat → Nat) (lanes : List Nat) (pages : List (Nat × Leaf)) (s : State) : Bool :=
  let o : Op := { ctr := 0, i := i, pc := 0, word := 0, lanes := 0, version := 0, src := lanes.map fun l => (l, [va l])
                  pages := pages }
  acquirePending s.w.ops || lanes.any (laneBlocked s.w.ops o)
    || (waitKind i == 3 && !lanes.all fun l => releaseReady s s.w.ops (laneExtent s o l))

/-- R206, R213: the lanes of a special form whose access something earlier holds back wait parked, each for its first
attempt, while the wave goes on; they count as complete (log entry 72). -/
def awaitFirst (i : Instr) (scratch : Bool) (va data : Nat → Nat) (lanes : List Nat) (pages : List (Nat × Leaf))
    (s : State) : State :=
  let w := s.w
  let num := s.nextId
  let slot := fun (l : Nat) => ((pages.find? (·.1 == l)).map Prod.snd).map fun leaf =>
    ({ lane := l, i := i, pc := w.wordPc, word := w.word, va := va l, scratch := scratch, kind := waitKind i
       data := data l, dst := destReg i, budget := w.waitBudget.toNat, version := w.version, level := 0, woken := true
       pa := if scratch then leaf.pa else leaf.addr (va l), cached := leaf.cached, first := num } : Park)
  let slots := lanes.filterMap slot
  let s := pushDone i (if waitKind i == 3 then 1 else 0) lanes [] s
  { s with w := { s.w with parks := s.w.parks ++ slots, fast := false
                           parked := s.w.parked ||| laneSet fun l => lanes.contains l } }

/-- The attempts of an instruction whose checks have passed: at once when nothing holds them back. WAITA holds the wave
until then (R221). -/
def attemptOrWait (i : Instr) (scratch : Bool) (va data : Nat → Nat) (lanes : List Nat) (pages : List (Nat × Leaf))
    (s : State) : State :=
  if attemptWaits i va lanes pages s then
    if waitKind i == 4 then holdAgain i s else awaitFirst i scratch va data lanes pages s
  else attemptAll i scratch va data lanes pages s

/-- A special form or WAITA on global memory. -/
def waitGlobal (i : Instr) (va data : Nat → Nat) (s : State) : State :=
  let lanes := s.w.lanes
  if lanes.isEmpty then s
  else checked (waitAsk i) 4 va lanes (destReg i) (if waitKind i == 4 then 0 else 4) i
    (fun pages s => attemptOrWait i false va data lanes pages s) s

/-- A special form on scratch. -/
def waitScratch (i : Instr) (off data : Nat → Nat) (s : State) : State :=
  let lanes := s.w.lanes
  if lanes.isEmpty then s
  else checkedScratch 4 off lanes (destReg i) i (fun pages s => attemptOrWait i true off data lanes pages s) s

/-- LDW (R211). -/
def execLdw (f : MF) (s : State) : Out :=
  .next (waitGlobal (.ldw f) (globalAddr s.w f.a (f.offset 4)) (fun _ => 0) s)

/-- LDC (R211). -/
def execLdc (f : MF) (s : State) : Out :=
  .next (waitGlobal (.ldc f) (globalAddr s.w f.a (f.offset 4)) (fun _ => 0) s)

/-- STF (R211). -/
def execStf (f : MF) (s : State) : Out :=
  .next (waitGlobal (.stf f) (globalAddr s.w f.a (f.offset 4)) (fun l => (s.w.vreg l f.d).toNat) s)

/-- LDSW (R211). -/
def execLdsw (f : MF) (s : State) : Out :=
  .next (waitScratch (.ldsw f) (scratchOff s.w f.a (f.offset 4)) (fun _ => 0) s)

/-- LDSC (R211). -/
def execLdsc (f : MF) (s : State) : Out :=
  .next (waitScratch (.ldsc f) (scratchOff s.w f.a (f.offset 4)) (fun _ => 0) s)

/-- STSF (R211). -/
def execStsf (f : MF) (s : State) : Out :=
  .next (waitScratch (.stsf f) (scratchOff s.w f.a (f.offset 4)) (fun l => (s.w.vreg l f.d).toNat) s)

/-- WAITA (R221). -/
def execWaita (f : V3) (s : State) : Out :=
  .next (waitGlobal (.waita f) (globalAddr s.w f.a 0) (fun l => (s.w.srcB f l).toNat) s)

/-! ## Re-evaluation (R219) -/

/-- A lane that leaves the parked state with its result. -/
def unpark (p : Park) (v : Nat) (s : State) : State :=
  let w := s.w
  let w := { w with parked := w.parked &&& ~~~laneBit p.lane, fast := false
                    parks := w.parks.filter fun q => q.lane != p.lane }
  let w := match waitDst p.i with
    | some d => landAll 0 (landV p.lane d v 1) w
    | none => w
  { s with w := if p.kind == 4 then w else w.markStored (laneBit p.lane) }

/-- A parked lane's late trap (R204); it stays parked until the trap is taken. -/
def parkTrap (p : Park) (c : Cause) (s : State) : State :=
  let slots := s.w.parks.map fun q => if q.lane == p.lane then { q with woken := false, level := 0 } else q
  let t : LateTrap := { cause := c, mask := laneBit p.lane, pc := p.pc, word := p.word, dst := p.dst
                        addr := BitVec.ofNat 64 p.va }
  { s with w := ({ s.w with parks := slots }).addLate t }

/-- R219: a failed re-evaluation lowers the budget and parks the lane again, or exhausts the budget. -/
def parkAgain (p : Park) (s : State) : State :=
  if p.budget == 1 then parkTrap p .feBudget s
  else
    let s := { s with w := { s.w with parks := s.w.parks.filter fun q => q.lane != p.lane } }
    parkGroup [{ p with budget := p.budget - 1, woken := false }] s

/-- What an attempt of a parked lane came to: as R211 gives it, or a translation fault at a level (R187). -/
inductive Retried where
  | done (value : Nat)
  | park (p : Park)
  | err (c : Cause)
  | hold (level : Nat)
  deriving DecidableEq, Repr

/-- R187, R211, R219: one attempt of a parked lane, from its slot; its page is translated anew. -/
def retry (p : Park) (s : State) : Retried × State :=
  if p.scratch then
    match attemptScratch p.i p.pa p.data s with
    | (.done v, s) => (.done v, s)
    | (.park, s) => (.park p, s)
    | (.err c, s) => (.err c, s)
  else match checkAt s s.w.core s.ctxId p.version (waitAsk p.i) 4 p.va with
    | .replay level => (.hold level, s)
    | .trap c => (.err c, s)
    | .ok leaf =>
      let q := { p with pa := leaf.addr p.va, cached := leaf.cached }
      match attemptGlobal p.i p.va p.data leaf p.version s with
      | (.done v, s) => (.done v, s)
      | (.park, s) => (.park q, s)
      | (.err c, s) => (.err c, s)

/-- R187, R173: a page fault of a parked lane's attempt holds the wave, unless it is held already: then the lane attempts
once it is not. -/
def retryFault (p : Park) (level : Nat) (s : State) : State :=
  if s.w.hold == .none then holdFault (some (.evReevaluation p.lane)) p.va (if p.kind == 4 then 0 else 4) level s else s

/-- R219, R220: a woken lane attempts again. -/
def reevaluate (p : Park) (s : State) : State := match retry p s with
  | (.done v, s) => unpark p v s
  | (.park q, s) => parkAgain q s
  | (.err c, s) => parkTrap p c s
  | (.hold level, s) => retryFault p level s

/-- R216: the lanes whose first attempts failed are placed by word. -/
def placeFailed (failed : List Park) (s : State) : State :=
  let stay := s.w.parks.filter fun q => !failed.any (·.lane == q.lane)
  parkLanes 64 (failed.map fun q => { q with woken := false, first := 0 }) { s with w := { s.w with parks := stay } }

/-- R205: the first attempts of lanes that waited parked, in ascending order; a translation fault ends them. -/
def firstAttempts : List Park → List Park → State → State
  | [], failed, s => placeFailed failed s
  | p :: ps, failed, s => match retry p s with
    | (.done v, s) => firstAttempts ps failed (unpark p v s)
    | (.park q, s) => firstAttempts ps (failed ++ [q]) s
    | (.err c, s) => firstAttempts ps failed (parkTrap p c s)
    | (.hold level, s) => placeFailed failed (retryFault p level s)

/-- A parked lane's word as a page of its own, for the tests of order between accesses. -/
def Park.leaf (p : Park) : Leaf :=
  { pa := p.pa, bits := 0, r := true, w := true, x := false, cache := 0, rm := false, fe := true, ver := false, key := 0
    node := 0 }

/-- Whether the first attempts of a special form still wait for earlier operations of the wave. -/
def firstWaits (ps : List Park) (s : State) : Bool := match ps with
  | [] => false
  | p :: _ =>
    let earlier := s.w.ops.filter (·.num < p.first)
    let o : Op := { ctr := 0, i := p.i, pc := 0, word := 0, lanes := 0, version := 0, src := ps.map fun q => (q.lane, [q.va])
                    pages := ps.map fun q => (q.lane, q.leaf) }
    acquirePending earlier || ps.any (fun q => laneBlocked earlier o q.lane)
      || (p.kind == 3 && !ps.all fun q => releaseReady s earlier (laneExtent s o q.lane))

/-- REEVALUATION (R218, R219): a woken lane of the focused wave attempts again, whatever the wave waits for; one that has
not attempted yet does so with the lanes of its instruction, once the wave's earlier accesses allow it. -/
def execEvReevaluation (lane : Nat) (s : State) : Out :=
  .next (match s.w.parks.find? (fun p => p.lane == lane && p.woken) with
    | some p =>
      if p.first == 0 then reevaluate p s
      else
        let ps := s.w.parks.filter (·.first == p.first)
        if firstWaits ps s then s else firstAttempts ps [] s
    | none => s)

end Sys2Proof.Machine
end

