-- ==== Sys2Proof/Machine/Commit.lean ====
section
/-!
DEFINITION. The commit point of a version (R368): its sectors, children, tags and log move into its parent in one step.
-/

namespace Sys2Proof.Machine

/-- R368: a sector of a version merged into tag 0. -/
def mergeCommitted (x : Sector) (s : State) : State :=
  let s := { s with mem := writeMem s.mem (0x1F00000000 + 4 * x.num) 4 x.fe.toNat }
  homeWrite true (128 * x.num) 128 x.data.toNat s

/-- R368: a wave, its outstanding operations and park slots retagged. -/
def Wave.retag (t u : Nat) (w : Wave) : Wave :=
  { w with
    version := if w.version == t then u else w.version
    cver := if w.cver == t then u else w.cver
    ops := w.ops.map fun o => if o.version == t then { o with version := u } else o
    parks := w.parks.map fun p => if p.version == t then { p with version := u } else p }

/-- R368: every wave, command, stream, launch and L1 line tagged t is retagged u; then no L1 keeps a line tagged u that
holds a byte of a merged sector. Of another sector for which one L1 holds a line of each tag, neither stays: both are
replaced, so that the next load of the core reads the home. -/
def retag (ctx t u : Nat) (merged : List Nat) (s : State) : State :=
  let cc := fun (cid : Nat) => (s.cohort cid).any (·.ctx == ctx)
  let rw := fun (w : Wave) => if w.ctx == ctx then w.retag t u else w
  let rs := fun (x : Stream) => if x.on && x.version == t && cc x.cohort then { x with version := u } else x
  let own := fun (c g : Nat) => c == ctx && g == t
  let owner := if u == 0 then 0 else ctx
  let kept := s.l1.filter fun l => !(((l.tag == u && l.ctx == owner) || own l.ctx l.tag) && merged.contains l.num)
  let both := fun (l : L1Line) => kept.any (fun k => k.core == l.core && k.num == l.num && own k.ctx k.tag)
    && kept.any fun k => k.core == l.core && k.num == l.num && k.tag == u && k.ctx == owner
  let l1 := (kept.filter fun l => !both l).map fun l => if own l.ctx l.tag then { l with tag := u, ctx := owner } else l
  { s with
    w := if s.w.on then rw s.w else s.w
    waves := s.waves.map rw
    st := rs s.st
    streams := s.streams.map rs
    cmds := s.cmds.map fun c => if own c.ctx c.tag then { c with tag := u } else c
    pending := s.pending.map fun p => if own p.ctx p.tag then { p with tag := u } else p
    engine := s.engine.map fun e => if own e.ctx e.tag then { e with tag := u } else e
    updates := s.updates.map fun x => if own x.ctx x.tag then { x with tag := u } else x
    launches := s.launches.map fun l =>
      { l with version := if own l.ctx l.version then u else l.version
               waiting := l.waiting.map fun x => if own l.ctx x.version then { x with version := u } else x }
    cohorts := s.cohorts.map fun c => if own c.ctx c.version then { c with version := u } else c
    ready := s.ready.map (Packet.retag ctx t u)
    armed := s.armed.map fun a => { a with packet := a.packet.retag ctx t u }
    completions := s.completions.map fun c =>
      if own c.packet.ctx c.version then { c with version := u } else c
    l1 := l1
    icache := s.icache.filter fun l => !own l.ctx l.tag }

/-- R368: the deadline of a parent after a commit. -/
def joinDeadline (g h : Tag) : Tag :=
  if !h.dset then g
  else if !g.dset || h.deadline < g.deadline then { g with dset := true, deadline := h.deadline, expired := false }
  else g

/-- R368: CommitPoint(v), one step in the version order. -/
def commitPoint (ctx v : Nat) (s : State) : State :=
  let p := (tagOf s ctx v).parent
  let gv := tagOf s ctx v
  let s := ((children s ctx p).filter (· != v)).foldl (fun s k => squashTree ctx k 2 s) s
  let s := (s.sectors.filter fun x => x.ctx == ctx && x.tag == v).foldl (fun s x => recallLine (128 * x.num) s) s
  let mine := s.sectors.filter fun x => x.ctx == ctx && x.tag == v
  let rest := s.sectors.filter fun x => !(x.ctx == ctx && x.tag == v)
  let nums := mine.map Sector.num
  let s :=
    if p == 0 then mine.foldl (fun s x => mergeCommitted x s) { s with sectors := rest }
    else
      let rest := rest.filter fun x => !(x.ctx == ctx && x.tag == p && nums.contains x.num)
      nums.foldl (fun s n => wake (128 * n) 128 s)
        { s with sectors := mine.map (fun x => { x with tag := p }) ++ rest }
  let s := (children s ctx v).foldl
    (fun s k => updTag ctx k (fun g => { g with parent := p, depth := g.depth - 1 }) s) s
  let s := retag ctx v p nums s
  let log := s.logs.filter fun e => e.ctx == ctx && e.tag == v
  let others := s.logs.filter fun e => !(e.ctx == ctx && e.tag == v)
  let s :=
    if p == 0 then
      { s with logs := others, replay := s.replay ++ log.map fun e => { e with late := gv.dmiss } }
    else { s with logs := others ++ log.map fun e => { e with tag := p } }
  let s := if p == 0 then s else updTag ctx p (fun g => joinDeadline g gv) s
  updTag ctx v (fun g => { g with state := 3, into := p }) s

end Sys2Proof.Machine
end

