-- ==== Sys2Proof/Machine/Put.lean ====
section
/-!
DEFINITION. The layout engine's start of a command (R250) and PUT over the fabric (R259-R263, R421-R423).
-/

namespace Sys2Proof.Machine

/-! ## Routes (R421, R422) -/

/-- R421: whether an optical port has a fibre that is up. -/
def portUp (s : State) (p : Nat) : Bool := (List.range 4).any fun k => !s.plat.fibresDown.contains (4 * p + k)

/-- R422: whether a node has a port that is up. -/
def routeUp (s : State) (node : Nat) : Bool :=
  (List.range 16).any fun p => s.plat.config.peers.getD p 0 == node && portUp s p

/-- A message sent to a node (R423). Kinds: 1 EVENT notice, 2 PUT, 3 FRAME, 4 ZCP reply, 5 PUTACK, 6 FRAMEACK. -/
def send (kind dest : Nat) (data : List Nat) (s : State) : State :=
  { s with out := s.out ++ [{ kind := kind, dest := dest, data := data }] }

/-- R422: a message for a node that has no port up is held. -/
def holdMessage (kind id : Nat) (s : State) : State :=
  { s with plat := { s.plat with held := s.plat.held ++ [{ kind := kind, id := id, since := s.now }] } }

/-! ## Checks of a PUT (R260) -/

/-- The first address of each page that a range of n bytes touches. -/
def pageStarts (a n : Nat) : List Nat :=
  (List.range ((a + n - 1) / 65536 - a / 65536 + 1)).map fun k => max a ((a / 65536 + k) * 65536)

/-- R260, order 3. -/
def pageFault (s : State) (who ctx va : Nat) : Option Bad :=
  if 2 ^ 52 ≤ va then some { code := 0x21, va := va }
  else match rawLeaf s who ctx va with
    | .replay l => some { code := 0x21, va := va, rec_ := some (l, 0) }
    | .bad l => some { code := 0x21, va := va, rec_ := some (l, 2) }
    | _ => none

/-- The leaf of an address that has one. -/
def rawLeafD (s : State) (who ctx va : Nat) : Option Leaf := match rawLeaf s who ctx va with
  | .ok l => some l
  | _ => none

/-- The first of a list of optional errors. -/
def firstSome {α β : Type} (f : α → Option β) : List α → Option β
  | [] => none
  | a :: as => match f a with
    | some b => some b
    | none => firstSome f as

/-- R260, order 4, on the source pages. -/
def putSourceOk (s : State) (c : Cmd) (va : Nat) : Bool := match xlate s c.unit c.ctx va .load with
  | .ok _ => true
  | _ => false

/-- R260, order 4, on the destination and counter pages. -/
def putDestOk (s : State) (c : Cmd) (node va : Nat) : Bool := match rawLeafD s c.unit c.ctx va with
  | some l => l.w && l.node != s.plat.config.node && l.node == node
      && flag (((s.context c.ctx).map Context.fabric).getD 0) node
  | none => false

/-- R260: the node that a PUT goes to. -/
def putNode (s : State) (c : Cmd) : Nat := ((rawLeafD s c.unit c.ctx (c.nums.getD 1 0)).map Leaf.node).getD 0

/-- R260, orders 1 to 4 for a PUT; `source` is false for one replayed with its data (R369). -/
def putBad (s : State) (c : Cmd) (source : Bool) : Option Bad :=
  let src := c.nums.getD 0 0
  let dst := c.nums.getD 1 0
  let ctr := c.nums.getD 2 0
  let n := c.nums.getD 3 0
  if n % 4 != 0 || n < 4 || 0x1000000 < n then some { code := 0x02 }
  else if src % 4 != 0 || dst % 4 != 0 || ctr % 4 != 0 then some { code := 0x20 }
  else
    let srcPages := if source then pageStarts src n else []
    let dstPages := pageStarts dst n ++ [ctr]
    match firstSome (pageFault s c.unit c.ctx) (srcPages ++ dstPages) with
    | some b => some b
    | none =>
      if srcPages.all (putSourceOk s c) && dstPages.all (putDestOk s c (putNode s c)) then none
      else some { code := 0x22 }

/-- The source of a PUT read word by word at its homes, or its first error (R260, order 5). -/
def putRead (c : Cmd) : Nat → Nat → State → Except Bad (List Nat × State)
  | 0, _, s => .ok ([], s)
  | n + 1, va, s => match leafOf s c.unit c.ctx va .load with
    | none => .error { code := 0x21, va := va }
    | some leaf => match readBad s c.ctx c.tag leaf.ver va (leaf.addr va) with
      | some b => .error b
      | none =>
        let (v, s) := readHome c.core c.ctx c.tag leaf (leaf.addr va) 4 s
        match putRead c n (va + 4) s with
        | .ok (bs, s) => .ok (toBytes 4 v ++ bs, s)
        | .error b => .error b

/-- The pieces (physical address, length) of the destination of a PUT. -/
def putPieces (s : State) (c : Cmd) : List Nat :=
  let dst := c.nums.getD 1 0
  let n := c.nums.getD 3 0
  (pageStarts dst n).flatMap fun a =>
    [((rawLeafD s c.unit c.ctx a).map fun l => l.addr a).getD 0, min (dst + n) ((a / 65536 + 1) * 65536) - a]

/-- R423: the PUT message of a checked command: sender, command, context, counter address, increment, length, the
pieces of the destination, the data. -/
def putMessage (s : State) (c : Cmd) : List Nat :=
  let ctr := c.nums.getD 2 0
  let ps := putPieces s c
  [s.plat.config.node, c.id, c.ctx, ((rawLeafD s c.unit c.ctx ctr).map fun l => l.addr ctr).getD 0
   , c.nums.getD 4 0, c.nums.getD 3 0, ps.length / 2] ++ ps ++ c.data

/-- R261, R422: a checked PUT is sent, or held for a route. -/
def sendPut (c : Cmd) (s : State) : State :=
  let node := putNode s c
  let s := { s with cmds := updFirst (·.id == c.id) (fun _ => { c with started := true }) s.cmds }
  if routeUp s node then send 2 node (putMessage s c) s else holdMessage 0 c.id s

/-- R263: a PUT of a speculative version is logged with its data; its slot is set when the entry is made. -/
def logPut (c : Cmd) (s : State) : State :=
  let e : LogEntry :=
    { ctx := c.ctx, tag := c.tag, i := .put ⟨0, 0, 0, 0, 0, 0, 0⟩, va := c.nums.getD 1 0, data := c.nums ++ c.data
      core := c.core, wave := c.slot, part := c.part, recs := 1 + (c.data.length + 63) / 64, late := false
      wid := c.wave, num := c.id }
  finishCmd c 0 (landSlot c 0 (logEntry e s))

/-- R363: whether a PUT to be logged must wait for entries that its lane is still to make. -/
def putWaits (s : State) (c : Cmd) : Bool :=
  c.tag != 0 && (putPending s c.wave c.lane c.id || (allWaves s).any fun w => w.id == c.wave &&
    w.ops.any fun o => o.num < c.id && (o.lanes &&& ~~~o.perf).getLsbD c.lane && o.logs c.lane)

/-- R260: the layout engine checks a PUT, reads its source and sends it. -/
def startPut (c : Cmd) (s : State) : State := match putBad s c true with
  | some b => poisonCmd c b (fun s => s) s
  | none => match putRead c (c.nums.getD 3 0 / 4) (c.nums.getD 0 0) s with
    | .error b => poisonCmd c b (fun s => s) s
    | .ok (bs, s) =>
      let c := { c with data := bs }
      if c.tag == 0 then sendPut c s else logPut c s

/-- LAYOUT_START (R250): the layout engine of a cluster starts its next accepted command, once the last source read of
the one before it has been made. -/
def execEvLayoutStart (cluster : Nat) (s : State) : Out :=
  let mine := s.cmds.filter fun c => (c.kind == 1 || c.kind == 2) && c.core / 4 == cluster && c.accepted
  let busy := mine.any fun c => c.kind == 1 && c.started && !c.todo.isEmpty
  .next (match mine.find? fun c => !c.started with
    | none => s
    | some c =>
      if busy || (c.kind == 2 && putWaits s c) then s
      else if c.kind == 2 then startPut c s
      else { s with cmds := updFirst (·.id == c.id) (fun x => { x with started := true }) s.cmds })

/-! ## Receiving (R261) -/

/-- R261, R422: whether a PUT from a node is accepted: some started context has the node in its fabric job, and every
address is mappable. -/
def putAccepted (s : State) (m : PutMsg) : Bool :=
  s.contexts.any (fun c => c.id < 4096 && flag c.fabric m.src) && m.pieces.all (fun p => p.1 + p.2 ≤ homeEnd)
    && m.counter + 4 ≤ homeEnd

/-- R261: committed bytes written word by word at their homes. -/
def putWrite : Nat → List Nat → State → State
  | a, b0 :: b1 :: b2 :: b3 :: bs, s => putWrite (a + 4) bs (homeWrite true a 4 (ofBytes [b0, b1, b2, b3]) (recallLine a s))
  | _, _, s => s

/-- R261: the data of a PUT written over the ranges of its destination. -/
def putPiecesWrite : List (Nat × Nat) → List Nat → State → State
  | [], _, s => s
  | (a, n) :: ps, bs, s => putPiecesWrite ps (bs.drop n) (putWrite a (bs.take n) s)

/-- PUT_MESSAGE (R261): this module receives a PUT and performs it, or refuses it. -/
def execEvPutMessage (m : PutMsg) (s : State) : Out :=
  .next (if putAccepted s m then
      let s1 := recallLine m.counter (putPiecesWrite m.pieces m.data s)
      let s2 := homeWrite true m.counter 4 ((readMem s1.mem m.counter 4 + m.increment) % 2 ^ 32) s1
      send 5 m.src [m.id, 0] s2
    else send 5 m.src [m.id, 0x22] s)

/-- PUTACK (R261): the acknowledgement of a PUT that was sent arrives. -/
def execEvPutack (id err : Nat) (s : State) : Out :=
  .next (match s.cmds.find? (fun c => c.id == id && (c.kind == 2 || c.kind == 4) && c.started) with
    | none => s
    | some c =>
      if s.plat.held.any fun h => h.kind == 0 && h.id == id then s
      else if err == 0 then finishCmd c 0 (landSlot c 0 s)
      else poisonCmd c { code := 0x22 } (fun s => s) s)

/-- R369: the first address of a page of a PUT's destination or counter that does not permit it, and its level. -/
def putFault (s : State) (c : Cmd) : Nat :=
  ((pageStarts (c.nums.getD 1 0) (c.nums.getD 3 0) ++ [c.nums.getD 2 0]).find? fun a =>
    !putDestOk s c (putNode s c) a).getD 0

/-- R174: the level of the leaf of that page. -/
def putLevel (s : State) (c : Cmd) : Nat := ((rawLeafD s c.unit c.ctx (putFault s c)).map leafLevel).getD 0

/-- R369: a PUT of a log replayed: sent under R260 and R261, or dropped with the error that is its answer. -/
def replayPut (e : LogEntry) (s : State) : Option Bad × State :=
  let c : Cmd :=
    { id := s.nextId, kind := 4, core := e.core, wave := 0, batch := 0, cohort := 0, ctx := e.ctx, tag := 0, owner := 0
      bar := 0, nums := e.data.take 5, data := e.data.drop 5, accepted := true, slot := e.wave, part := e.part }
  match putBad s c false with
  | some b => (some (if b.code == 0x22 then { b with rec_ := some (putLevel s c, 1), va := putFault s c } else b), s)
  | none => (none, sendPut c { s with nextId := s.nextId + 1, cmds := s.cmds ++ [c] })

/-- FIBRE_DOWN (R421): a fibre is marked down. -/
def execEvFibreDown (port fibre : Nat) (s : State) : Out :=
  .next (if port < 16 && fibre < 4 then
      { s with plat := { s.plat with fibresDown := addOnce (4 * port + fibre) s.plat.fibresDown } }
    else s)

end Sys2Proof.Machine
end

