-- ==== Sys2Proof/Machine/MatrixMath.lean ====
section
/-!
DEFINITION. The arithmetic of the matrix engine: scaled products, chunk sums and accumulation (R67-R70), and the element
functions of MSTORE, MSCALE and MACT (R281, R282, R285).
-/

namespace Sys2Proof.Machine

/-- R265: K per row of a format code. -/
def rowK (tag : Nat) : Nat :=
  if tag == 0 then 64 else if tag == 1 || tag == 2 then 128 else if tag == 5 then 512 else 256
/-- R68, R69: CH of a format code. -/
def chunkLen (tag : Nat) : Nat := if tag ≤ 2 then 32 else if tag == 5 then 128 else 64
/-- R265: element k of a row whose bytes are read by `byte`. -/
def rowElem (tag : Nat) (byte : Nat → Nat) (k : Nat) : Nat :=
  if tag == 0 then byte (4 * k) + 256 * byte (4 * k + 1) + 65536 * byte (4 * k + 2) + 16777216 * byte (4 * k + 3)
  else if tag == 1 || tag == 2 then byte (2 * k) + 256 * byte (2 * k + 1)
  else if tag == 5 then byte (k / 2) / 16 ^ (k % 2) % 16
  else byte k

/-- An element of a floating-point operand as a value. -/
def elemValue (tag raw : Nat) : FV := match ffmtOf tag with
  | some k => k.read raw
  | none => .fin false 0 0

/-- R67: a value times 2^(scale − 127); 0xFF makes it a NaN. -/
def scaled (scale : Nat) : FV → FV
  | .fin s m e => if scale == 255 then .nan 0 else .fin s m (e + ((scale : Int) - 127))
  | .inf s => if scale == 255 then .nan 0 else .inf s
  | .nan r => .nan r

/-- The product of two scaled elements as a value; an invalid product is a NaN. -/
def product (a b : FV) : FV := match fMul a b with
  | .num x => .fin x.neg x.m x.e
  | .inf s _ => .inf s
  | _ => .nan 0

/-- R68: the parts of a chunk sum: a NaN, +∞, −∞, the finite sum, and whether every product is −0. -/
structure ChunkSum where
  nan : Bool := false
  pinf : Bool := false
  ninf : Bool := false
  sum : Int × Int := (0, 0)
  negZero : Bool := true

/-- One product added to a chunk sum. -/
def ChunkSum.add (c : ChunkSum) : FV → ChunkSum
  | .nan _ => { c with nan := true, negZero := false }
  | .inf s => { c with pinf := c.pinf || !s, ninf := c.ninf || s, negZero := false }
  | .fin s m e =>
    { c with sum := if m == 0 then c.sum else dyAdd c.sum (signed s m, e), negZero := c.negZero && s && m == 0 }

/-- R68: the value of a chunk sum. -/
def ChunkSum.value (c : ChunkSum) : FV :=
  if c.nan || (c.pinf && c.ninf) then .nan 0
  else if c.pinf then .inf false
  else if c.ninf then .inf true
  else .fin (if c.sum.1 == 0 then c.negZero else decide (c.sum.1 < 0)) c.sum.1.natAbs c.sum.2

/-- R68: one chunk step on an accumulator element. DESIGN CHOICE (log entry 65): an accumulator that already holds a NaN
becomes the canonical one. -/
def chunkStep (acc : Nat) (s : FV) : Nat :=
  (FFmt.f32.finish { mode := 1 } [acc] (fAdd 1 (FFmt.f32.read acc) s)).1

/-- R70: an exact chunk result with its low bits replaced by those of a free value. -/
def perturb (aq n acc : Nat) : Nat := match FFmt.f32.read acc with
  | .fin _ _ _ => acc / 2 ^ aq * 2 ^ aq + (Config.freePerturb n).toNat % 2 ^ aq
  | _ => acc

/-- R68: an accumulator element after the chunks from `c` on; `prod k` is the product at k, `n` the counter of free
values. -/
def accumulate (ch aq : Nat) (free : Bool) (prod : Nat → FV) (n : Nat) : Nat → Nat → Nat → Nat
  | 0, _, acc => acc
  | fuel + 1, c, acc =>
    let s := (List.range ch).foldl (fun x k => x.add (prod (c * ch + k))) ({} : ChunkSum)
    let r := chunkStep acc s.value
    accumulate ch aq free prod n fuel (c + 1) (if free then perturb aq (n + c) r else r)

/-- R69: an accumulator element after an integer MMA. -/
def accumulateInt (k : Nat) (prod : Nat → Int) (acc : Nat) : Nat :=
  intBits 32 ((List.range k).foldl (fun x i => x + prod i) (acc : Int))

/-- R281: an accumulator element converted for MSTORE. -/
def storeElem (fmt : Nat) (sat : Bool) (x : Nat) : Nat :=
  if fmt == 0xB then x else (cvtDeliver 1 sat false true 0 fmt (cvtRead false 0 x)).1

/-- R282: an accumulator element scaled by 2^n. -/
def scaleElem (n : Int) (x : Nat) : Nat := (FFmt.f32.finish { mode := 1 } [x] (fScale n (FFmt.f32.read x))).1

/-- e^t for a positive dyadic t below 512: an integer exponent of 2 and a fixed-point factor. -/
def expParts (m : Nat) (e : Int) : Nat × Nat :=
  let t := if e ≥ -(fixK : Int) then m * 2 ^ (e + fixK).toNat else m / 2 ^ (-(e + fixK)).toNat
  let i := t / fixLn2
  (i, fixExp (t - i * fixLn2))

/-- e^t as a number over 2^fixK, for a positive dyadic t below 512. -/
def expFix (m : Nat) (e : Int) : Nat := (expParts m e).2 * 2 ^ (expParts m e).1

/-- A magnitude just below m × 2^e. -/
def justBelow (neg : Bool) (m : Nat) (e : Int) : Ex := { neg := neg, m := m * 2 ^ 400 - 1, e := e - 400, sticky := true }
/-- A magnitude below every format's range. -/
def vanishing (neg : Bool) : Ex := { neg := neg, m := 1, e := -2000, sticky := true }

/-- Whether a finite magnitude is 512 or more. -/
def large (m : Nat) (e : Int) : Bool := m != 0 && 9 ≤ e + Nat.log2 m

/-- R285: x / (1 + e^−x) for x ≠ 0, and the same with the numerator 1 (`one`). -/
def logistic (one s : Bool) (m : Nat) (e : Int) : Ex :=
  let neg := !one && s
  let (a, f) : Nat × Int := if one then (1, 0) else (m, e)
  if large m e then (if s then vanishing neg else justBelow neg a f)
  else
    let x := expFix m e
    { exDiv neg (a * (if s then fixOne else x)) f (fixOne + x) 0 with sticky := true }

/-- R285: tanh x for x ≠ 0. -/
def tanhEx (s : Bool) (m : Nat) (e : Int) : Ex :=
  if large m e then justBelow s 1 0
  else
    let x := expFix m (e + 1)
    { exDiv s (x - fixOne) 0 (x + fixOne) 0 with sticky := true }

/-- R285: MACT on a value. -/
def actOp (fn sh : Nat) (v : FV) : OpRes := match v with
  | .nan _ => .nan false
  | .inf s => match fn with
    | 0 => if s then .num { neg := false, m := 0, e := 0 } else .inf false 0
    | 1 => .inf s 0
    | 2 => .num { neg := s, m := 1, e := sh }
    | 3 => .num { neg := false, m := if s then 0 else 1, e := 0 }
    | 4 => .num { neg := s, m := 1, e := 0 }
    | _ => if s then .num { neg := true, m := 0, e := 0 } else .inf false 0
  | .fin s m e => match fn with
    | 0 => .num (if s || m == 0 then { neg := false, m := 0, e := 0 } else { neg := s, m := m, e := e })
    | 1 => .num { neg := s, m := m, e := if s then e - sh else e }
    | 2 => if fvCmp (.fin false m e) (.fin false 1 sh) == .gt then .num { neg := s, m := 1, e := sh }
      else .num { neg := s, m := m, e := e }
    | 3 => .num (if m == 0 then { neg := false, m := 1, e := -1 } else logistic true s m e)
    | 4 => .num (if m == 0 then { neg := s, m := 0, e := 0 } else tanhEx s m e)
    | _ => .num (if m == 0 then { neg := s, m := 0, e := 0 } else logistic false s m e)

/-- R285: MACT on an accumulator element. -/
def actElem (fn sh x : Nat) : Nat := (FFmt.f32.finish { mode := 1 } [x] (actOp fn sh (FFmt.f32.read x))).1

end Sys2Proof.Machine
end

