-- ==== Sys2Proof/Machine/Texture.lean ====
section
/-!
DEFINITION. The texture path of the texture and hash-grid unit (R295-R306).
-/

namespace Sys2Proof.Machine

/-! ## Descriptors (R298, R299) -/

/-- A descriptor of n scalar registers as one number, bit 32 × i + j being bit j of the i-th. -/
def descOf (w : Wave) (b : Nat) : Nat → Nat
  | 0 => 0
  | n + 1 => descOf w b n + (w.sreg (b + n)).toNat * 2 ^ (32 * n)

/-- R298: a texture descriptor that fails its check. -/
def texBad (d : Nat) : Bool :=
  let efmt := bits d 68 4
  bits d 0 64 % 256 != 0 || bits d 64 2 == 3 || bits d 66 2 == 3
    || !(efmt == 0 || efmt == 1 || efmt == 2 || efmt == 8 || efmt == 0xA)
    || bits d 76 20 != 0 || (bits d 64 2 == 0 && bits d 128 16 != 0) || bits d 144 16 != 0
    || bits d 161 2 == 3 || bits d 169 2 == 3 || bits d 179 77 != 0

/-- TYPE. -/
def texType (d : Nat) : Nat := bits d 64 2
/-- The channel count. -/
def texChannels (d : Nat) : Nat := 2 ^ bits d 66 2
/-- The channel format. -/
def texFmt (d : Nat) : Nat := bits d 68 4
/-- MIPS. -/
def texMips (d : Nat) : Nat := bits d 72 4
/-- The size of a channel in bytes. -/
def texElem (d : Nat) : Nat := elemBytes (texFmt d)
where
  /-- The size of a format in bytes. -/
  elemBytes : Nat → Nat
    | 0 => 4
    | 8 => 1
    | _ => 2
/-- TS. -/
def texelBytes (d : Nat) : Nat := texElem d * texChannels d
/-- R299: the extents of level m. -/
def levelW (d m : Nat) : Nat := max 1 ((bits d 96 16 + 1) / 2 ^ m)
/-- R299: the height of level m. -/
def levelH (d m : Nat) : Nat := max 1 ((bits d 112 16 + 1) / 2 ^ m)
/-- R299: the depth of level m, or the layer count. -/
def levelD (d m : Nat) : Nat := match texType d with
  | 0 => 1
  | 1 => bits d 128 16 + 1
  | _ => max 1 ((bits d 128 16 + 1) / 2 ^ m)
/-- R299: where level m starts. -/
def levelStart (d : Nat) : Nat → Nat
  | 0 => bits d 0 64
  | m + 1 => (levelStart d m + levelW d m * levelH d m * levelD d m * texelBytes d + 255) / 256 * 256
/-- R299: the address of a texel. -/
def texelAddr (d m x y z : Nat) : Nat :=
  (levelStart d m + ((z * levelH d m + y) * levelW d m + x) * texelBytes d) % 2 ^ 64

/-- The size of an axis at a level: 0 x, 1 y, 2 z. -/
def axisSize (d m : Nat) : Nat → Nat
  | 0 => levelW d m
  | 1 => levelH d m
  | _ => levelD d m
/-- The filtered axes. -/
def axes (d : Nat) : Nat := if texType d == 2 then 3 else 2
/-- The coordinate registers of TEX. -/
def coordCount (d : Nat) : Nat := if texType d == 0 then 2 else 3

/-! ## Coordinates and the level of detail (R300, R301) -/

/-- R300: an F32 coordinate as an exact number (n, e) = n × 2^e; a NaN or infinity is 0. -/
def coordReal (raw : Nat) : Int × Int := match FFmt.f32.read raw with
  | .fin s m e => (signed s m, e)
  | _ => (0, 0)

/-- Floor of n × 2^e. -/
def floorDy (a : Int × Int) : Int := if 0 ≤ a.2 then a.1 * 2 ^ a.2.toNat else a.1 / 2 ^ (-a.2).toNat

/-- R301: Σ (D[d] × S0[d])². -/
def gradSquare (d : Nat) (g : Nat → Int × Int) : Int × Int :=
  (List.range (axes d)).foldl (fun acc k =>
    let x := (g k).1 * axisSize d 0 k
    dyAdd acc (x * x, 2 * (g k).2)) (0, 0)

/-- R301: 256 × λ before clamping, from ρ². -/
def lamOfRho (bias : Int) (r : Int × Int) : Int :=
  if r.1 == 0 then -1 else (Nat.log2 (r.1.natAbs ^ 128) : Int) + 128 * r.2 + 16 * bias

/-- The greater of two exact numbers. -/
def dyMax (a b : Int × Int) : Int × Int := if 0 ≤ (dyAdd a (-b.1, b.2)).1 then a else b

/-- LODBIAS. -/
def lodBias (d : Nat) : Int := (BitVec.ofNat 8 (bits d 171 8)).toInt

/-- R301: 256 × λ clamped to the levels. -/
def clampLam (d : Nat) (v : Int) : Nat := (max 0 (min (256 * texMips d : Int) v)).toNat

/-- R301: λ of TEX in a lane of its quad. -/
def lamQuad (w : Wave) (f : V3) (d l : Nat) : Nat :=
  let q := l / 4 * 4
  let diff := fun (k r : Nat) =>
    if w.exited.getLsbD q || w.exited.getLsbD (q + k) then ((0, 0) : Int × Int)
    else
      let b := coordReal (w.vreg q (f.a + r)).toNat
      dyAdd (coordReal (w.vreg (q + k) (f.a + r)).toNat) (-b.1, b.2)
  clampLam d (lamOfRho (lodBias d) (dyMax (gradSquare d (diff 1)) (gradSquare d (diff 2))))

/-- R301: λ of TEXG; a NaN gradient gives 0, an infinite one +∞. -/
def lamGrad (w : Wave) (f : V3) (d l : Nat) : Nat :=
  let raw := fun (k : Nat) => (w.vreg l (f.a + coordCount d + k)).toNat
  let ks := List.range (2 * axes d)
  if ks.any fun k => FFmt.f32.isNan (raw k) then clampLam d (16 * lodBias d)
  else if ks.any fun k => FFmt.f32.read (raw k) == .inf true || FFmt.f32.read (raw k) == .inf false then 256 * texMips d
  else
    clampLam d (lamOfRho (lodBias d)
      (dyMax (gradSquare d fun k => coordReal (raw k)) (gradSquare d fun k => coordReal (raw (axes d + k)))))

/-- R301: λ of TEXL. -/
def lamExplicit (d raw : Nat) : Nat := match FFmt.f32.read raw with
  | .nan _ => clampLam d (16 * lodBias d)
  | .inf s => if s then 0 else 256 * texMips d
  | .fin s m e => clampLam d (floorDy (signed s m, e + 8) + 16 * lodBias d)

/-- R301: the levels used with their weights in 256ths. -/
def levelsOf (d lam : Nat) : List (Nat × Nat) := match bits d 161 2 with
  | 0 => [(0, 256)]
  | 1 => [((lam + 128) / 256, 256)]
  | _ => if lam % 256 == 0 then [(lam / 256, 256)] else [(lam / 256, 256 - lam % 256), (lam / 256 + 1, lam % 256)]

/-! ## Footprints (R300) -/

/-- R300: Wrap(i) on an axis of size n; none is the BORDER texel. -/
def wrapTexel (mode n : Nat) (i : Int) : Option Nat := match mode with
  | 0 => some (i % n).toNat
  | 1 =>
    let j := (i % (2 * n)).toNat
    some (if n ≤ j then 2 * n - 1 - j else j)
  | 2 => some (max 0 (min i (n - 1))).toNat
  | _ => if 0 ≤ i && i < n then some i.toNat else none

/-- R300: the texels of one axis with their weights n / 2^k. -/
def axisTexels (linear : Bool) (mode n : Nat) (c : Int × Int) : List (Option Nat × Nat × Nat) :=
  if linear then
    let k := (-c.2).toNat
    let s := 2 * (c.1 * 2 ^ c.2.toNat * n) - 2 ^ k
    let i := s / 2 ^ (k + 1)
    let f := (s % 2 ^ (k + 1)).toNat
    [(wrapTexel mode n i, 2 ^ (k + 1) - f, k + 1), (wrapTexel mode n (i + 1), f, k + 1)]
  else [(wrapTexel mode n (floorDy (c.1 * n, c.2)), 1, 0)]

/-- One texel of a footprint: its address, or none for BORDER, and its weight num / 2^k. -/
structure Tap where
  addr : Option Nat
  num : Nat
  k : Nat

/-- R300: the layer of an array. -/
def layerOf (d raw : Nat) : Nat :=
  let c := coordReal raw
  let r := signed (decide (c.1 < 0)) (roundAt 1 { neg := decide (c.1 < 0), m := c.1.natAbs, e := c.2 } 0).1
  (max 0 (min r (levelD d 0 - 1 : Nat))).toNat

/-- R300: the texels of one level with the level's weight. -/
def levelTaps (d : Nat) (c : Nat → Nat) (m num : Nat) : List Tap :=
  let linear := flag d 160
  let axis := fun (a : Nat) => axisTexels linear (bits d (163 + 2 * a) 2) (axisSize d m a) (coordReal (c a))
  let zs : List (Option Nat × Nat × Nat) := match texType d with
    | 0 => [(some 0, 1, 0)]
    | 1 => [(some (layerOf d (c 2)), 1, 0)]
    | _ => axis 2
  zs.flatMap fun z => (axis 1).flatMap fun y => (axis 0).map fun x =>
    { addr := match x.1, y.1, z.1 with
        | some i, some j, some k => some (texelAddr d m i j k)
        | _, _, _ => none
      num := x.2.1 * y.2.1 * z.2.1 * num, k := x.2.2 + y.2.2 + z.2.2 + 8 }

/-- R300: the footprint of a sample. -/
def tapsOf (d lam : Nat) (c : Nat → Nat) : List Tap :=
  (levelsOf d lam).flatMap fun l => levelTaps d c l.1 l.2

/-! ## Results (R302-R305) -/

/-- R298: the greatest value of an unsigned channel, by which it is divided; 1 for a floating-point one. -/
def unormMax (fmt : Nat) : Nat := if fmt == 8 then 255 else if fmt == 0xA then 65535 else 1

/-- A channel of a texel as an exact value, times the divisor of its format. -/
def channelValue (fmt raw : Nat) : FV := match ffmtOf fmt with
  | some k => k.read raw
  | none => .fin false raw 0

/-- A value times a weight num / 2^k; a weight of 0 takes a NaN or infinity out. -/
def weighted (num k : Nat) : FV → FV
  | .fin s m e => .fin s (m * num) (e - k)
  | v => if num == 0 then .fin false 0 0 else v

/-- A sum of exact values over n × 2^f, rounded once to F32, with the NaNs and infinities of R302. -/
def roundQuot (vs : List FV) (n : Nat) (f : Int) : Nat :=
  match (vs.foldl ChunkSum.add ({} : ChunkSum)).value with
  | .nan _ => 0x7FC00000
  | .inf s => FFmt.f32.infBits s
  | .fin s m e => (FFmt.f32.deliver 1 false false (exDiv s m e n f)).1

/-- R302: a sum of weighted values over a divisor, rounded once to F32. -/
def roundSum (div : Nat) (vs : List FV) : Nat := roundQuot vs div 0

/-- R302, R303: channel c of a sample from the texels read. -/
def sampleChannel (d : Nat) (taps : List Tap) (vs : List (Nat × Nat)) (c : Nat) : Nat :=
  if texChannels d ≤ c then (if c == 3 then 0x3F800000 else 0)
  else
    let fmt := texFmt d
    let one := bits d 169 2 == 2 || (bits d 169 2 == 1 && c == 3)
    let border : FV := .fin false (if one then unormMax fmt else 0) 0
    roundSum (unormMax fmt) (taps.map fun t => weighted t.num t.k (match t.addr with
      | none => border
      | some a => channelValue fmt (bits (valueAt vs a) (8 * texElem d * c) (8 * texElem d))))

/-- R304: channel c of TLD. -/
def loadChannel (d v c : Nat) : Nat :=
  if texChannels d ≤ c then (if c == 3 then 0x3F800000 else 0)
  else
    let fmt := texFmt d
    let raw := bits v (8 * texElem d * c) (8 * texElem d)
    if fmt == 0 then raw
    else match ffmtOf fmt with
      | some _ => (cvtDeliver 1 false false false fmt 0 (cvtRead false fmt raw)).1
      | none => roundSum (unormMax fmt) [.fin false raw 0]

/-- R304: the texel that TLD names, or none outside the texture. -/
def tldAddr (d : Nat) (c : Nat → Int) : Option Nat :=
  let m := c (coordCount d)
  if m < 0 || (texMips d : Int) < m then none
  else
    let m := m.toNat
    let z := if texType d == 0 then 0 else c 2
    if 0 ≤ c 0 && c 0 < levelW d m && 0 ≤ c 1 && c 1 < levelH d m && 0 ≤ z && z < levelD d m then
      some (texelAddr d m (c 0).toNat (c 1).toNat z.toNat)
    else none

/-- R305: component c of TQUERY. -/
def queryValue (d m c : Nat) : Nat :=
  if texMips d < m then 0
  else match c with
    | 0 => levelW d m
    | 1 => levelH d m
    | 2 => levelD d m
    | _ => texMips d + 1

/-- Values for n registers as one number, the first lowest. -/
def joinWords (f : Nat → Nat) : Nat → Nat
  | 0 => 0
  | n + 1 => joinWords f n + f n % 2 ^ 32 * 2 ^ (32 * n)

/-! ## The instructions (R295-R297) -/

/-- The registers of coordinates that an instruction reads. -/
def texInputs (i : Instr) (d : Nat) : Nat := match i with
  | .texl _ => coordCount d + 1
  | .texg _ => coordCount d + 2 * axes d
  | .tld _ => coordCount d + 1
  | .tquery _ => 1
  | _ => coordCount d

/-- R301: 256 × λ of a lane of a sampling instruction; 0 for the others. -/
def texLam (i : Instr) (w : Wave) (f : V3) (d l : Nat) : Nat := match i with
  | .tex _ => lamQuad w f d l
  | .texl _ => lamExplicit d (w.vreg l (f.a + coordCount d)).toNat
  | .texg _ => lamGrad w f d l
  | _ => 0

/-- The footprint of a lane's operands `src` (λ first, then the coordinate registers). -/
def texTaps (i : Instr) (d : Nat) (src : List Nat) : List Tap := match i with
  | .tld _ => match tldAddr d fun k => (BitVec.ofNat 32 (src.getD (k + 1) 0)).toInt with
    | some a => [{ addr := some a, num := 1, k := 0 }]
    | none => []
  | .tquery _ => []
  | _ => tapsOf d (src.headD 0) fun k => src.getD (k + 1) 0

/-- R303-R305: component c of a lane's result. -/
def texResult (i : Instr) (d : Nat) (src : List Nat) (vs : List (Nat × Nat)) (c : Nat) : Nat := match i with
  | .tld _ => match texTaps i d src with
    | [] => 0
    | t :: _ => loadChannel d (valueAt vs (t.addr.getD 0)) c
  | .tquery _ => queryValue d (src.getD 1 0) c
  | _ => sampleChannel d (texTaps i d src) vs c

/-- R295-R297: a texture instruction issued. -/
def issueTex (i : Instr) (f : V3) (s : State) : State :=
  let w := s.w
  let d := descOf w f.b 8
  if texBad d then raiseCheck .rsvdField s
  else if w.nregs ≤ f.a + texInputs i d - 1 || w.nregs ≤ f.d + 2 ^ f.t - 1 then raiseCheck .regRange s
  else if w.idle then s
  else
    let src := fun (l : Nat) =>
      texLam i w f d l :: (List.range (texInputs i d)).map fun k => (w.vreg l (f.a + k)).toNat
    let ps := fun (l : Nat) =>
      (((texTaps i d (src l)).filterMap Tap.addr).eraseDups).map fun a => (a, texelBytes d)
    checkedSpans { need := .load } 0 (dstOf 1 f.d) i ps w.lanes (fun sp s => pushEngine i w.lanes src [d] sp s) s

/-- One lane of a texture instruction performed (R302-R306). -/
def performTex (o : Op) (f : V3) (l : Nat) (s : State) : Done × State :=
  match readSpans o (SMap.get [] o.spans l) s with
  | (.error e, s) => ({ errs := [e] }, s)
  | (.ok vs, s) =>
    let n := 2 ^ f.t
    ({ res := landV l f.d (joinWords (texResult o.i (o.aux.headD 0) (o.args l) vs) n) n }, s)

/-- TEX (R295, R300-R303). -/
def execTex (f : V3) (s : State) : Out := .next (issueTex (.tex f) f s)
/-- TEXL (R295, R300-R303). -/
def execTexl (f : V3) (s : State) : Out := .next (issueTex (.texl f) f s)
/-- TEXG (R295, R300-R303). -/
def execTexg (f : V3) (s : State) : Out := .next (issueTex (.texg f) f s)
/-- TLD (R304). -/
def execTld (f : V3) (s : State) : Out := .next (issueTex (.tld f) f s)
/-- TQUERY (R305). -/
def execTquery (f : V3) (s : State) : Out := .next (issueTex (.tquery f) f s)

end Sys2Proof.Machine
end

