-- ==== Sys2Proof/Machine/Raster.lean ====
section
/-!
DEFINITION. The raster unit (R316-R331), FLIP (R332-R334) and the frame egress engine (R335, R422).
-/

namespace Sys2Proof.Machine

/-! ## Vertices and coverage (R318, R319, R321) -/

/-- R319: RoundRNE(256 × x) of an F32 pattern; none for a NaN or an infinity. -/
def fixed256 (raw : Nat) : Option Int := match FFmt.f32.read raw with
  | .fin s m e => some (signed s (roundAt 1 { neg := s, m := m, e := e + 8 } 0).1)
  | _ => none

/-- A vertex in fixed point with its depth and q as F32 patterns. -/
structure Vertex where
  x : Int
  y : Int
  z : Nat
  q : Nat

/-- R319, step 3: a vertex from its four F32 patterns x, y, z and q; none when it is invalid. -/
def readVertex (x y z q : Nat) : Option Vertex := match fixed256 x, fixed256 y, FFmt.f32.read z, FFmt.f32.read q with
  | some i, some j, .fin _ _ _, .fin s m _ =>
    if 4194304 < i.natAbs || 4194304 < j.natAbs || s || m == 0 then none
    else some { x := i, y := j, z := z, q := q }
  | _, _, _, _ => none

/-- R319: Area2 of the fixed-point vertices X0, Y0, X1, Y1, X2, Y2. -/
def area2 (v : List Int) : Int :=
  let c := fun (k : Nat) => v.getD k 0
  (c 2 - c 0) * (c 5 - c 1) - (c 4 - c 0) * (c 3 - c 1)

/-- R321: E_i at a point, with j and k the next vertices in order. -/
def edgeAt (v : List Int) (i : Nat) (p : Int × Int) : Int :=
  let j := 2 * ((i + 1) % 3)
  let k := 2 * ((i + 2) % 3)
  (v.getD k 0 - v.getD j 0) * (p.2 - v.getD (j + 1) 0) - (v.getD (k + 1) 0 - v.getD (j + 1) 0) * (p.1 - v.getD j 0)

/-- R321: whether edge i is owning. -/
def edgeOwns (v : List Int) (i : Nat) : Bool :=
  let j := 2 * ((i + 1) % 3)
  let k := 2 * ((i + 2) % 3)
  let o := (area2 v).sign
  let dx := o * (v.getD k 0 - v.getD j 0)
  let dy := o * (v.getD (k + 1) 0 - v.getD (j + 1) 0)
  dy < 0 || (dy == 0 && 0 < dx)

/-- R321: whether a point is covered. -/
def coversAt (v : List Int) (p : Int × Int) : Bool :=
  let o := (area2 v).sign
  [0, 1, 2].all fun i => 0 < o * edgeAt v i p || (o * edgeAt v i p == 0 && edgeOwns v i)

/-- R321: the offset of sample k under SPP. -/
def sampleOffset (spp k : Nat) : Int × Int := match spp, k with
  | 0, _ => (128, 128)
  | 1, 0 => (64, 64)
  | 1, _ => (192, 192)
  | _, 0 => (96, 32)
  | _, 1 => (224, 96)
  | _, 2 => (32, 160)
  | _, _ => (160, 224)

/-- R321: the sample point of a pixel. -/
def samplePoint (spp px py k : Nat) : Int × Int :=
  let o := sampleOffset spp k
  (256 * (px : Int) + o.1, 256 * (py : Int) + o.2)

/-- A field of a slot's tile: TX, TY, TW, TH, SPP, TB. -/
def RasterSlot.field (r : RasterSlot) (k : Nat) : Nat := r.tile.getD k 0
/-- R318: the pixel column, pixel row and sample number of tile sample t. -/
def tileSample (tile : List Nat) (t : Nat) : Nat × Nat × Nat :=
  let n := 2 ^ tile.getD 4 0
  let tw := tile.getD 2 1
  (tile.getD 0 0 + t / n % tw, tile.getD 1 0 + t / n / tw, t % n)
/-- R318: N, the samples of a tile. -/
def tileCount (tile : List Nat) : Nat := tile.getD 2 1 * tile.getD 3 1 * 2 ^ tile.getD 4 0
/-- The point of tile sample t. -/
def tilePoint (tile : List Nat) (t : Nat) : Int × Int :=
  let (px, py, k) := tileSample tile t
  samplePoint (tile.getD 4 0) px py k

/-- R323: the least covered sample from s on, below s + fuel. -/
def nextCovered (r : RasterSlot) : Nat → Nat → Option Nat
  | 0, _ => none
  | fuel + 1, t => if coversAt r.xy (tilePoint r.tile t) then some t else nextCovered r fuel (t + 1)

/-- An F32 pattern as an exact number; a NaN or an infinity is 0. -/
def exactF32 (raw : Nat) : Int × Int := coordReal raw

/-- R324: the depth of a sample. -/
def depthAt (r : RasterSlot) (t : Nat) : Nat :=
  let p := tilePoint r.tile t
  let num := [0, 1, 2].foldl (fun a i =>
    let z := exactF32 (r.z.getD i 0)
    dyAdd a (edgeAt r.xy i p * z.1, z.2)) (0, 0)
  let a := area2 r.xy
  roundQuot [.fin (num.1 != 0 && decide (num.1 < 0) != decide (a < 0)) num.1.natAbs num.2] a.natAbs 0

/-- R324: the position word of a sample. -/
def positionWord (tile : List Nat) (t : Nat) : Nat :=
  let (px, py, k) := tileSample tile t
  px % 2 ^ 14 + py % 2 ^ 14 * 2 ^ 14 + k * 2 ^ 28 + tile.getD 4 0 * 2 ^ 30

/-! ## TRISET (R317-R320) -/

/-- The tile of the registers from s[B]. -/
def readTile (d : Nat) : List Nat := [bits d 0 16, bits d 16 16, bits d 32 8 + 1, bits d 40 8 + 1, bits d 48 2, bits d 64 32]

/-- The owner tag of the focused wave's team. -/
def teamTag (s : State) : Nat := ((s.myCohort.map Cohort.tags).getD []).getD s.w.rank 0

/-- R319, step 1: the cause of a tile that fails its checks. -/
def tileCause (s : State) (d : Nat) : Option Cause :=
  let t := readTile d
  let tb := t.getD 5 0
  let n := 8 * tileCount t
  if bits d 50 14 != 0 || t.getD 4 0 == 3 || 16384 < t.getD 0 0 + t.getD 2 0 || 16384 < t.getD 1 0 + t.getD 3 0 then
    some .rsvdField
  else if tb % 8 != 0 then some .memAlign
  else if !(scratchCell s tb n).any (fun c => scratchTag c == teamTag s) then some .memXlate
  else none

/-- A DONE token with a reason (R320). -/
def doneToken (reason : Nat) : Nat := 2 ^ 31 + reason * 2 ^ 5

/-- R319, step 5: the reason for which a triangle takes no slot. -/
def noSlot (vs : List (Option Vertex)) (xy : List Int) (cull : Nat) (fneg : Bool) (tile : List Nat) : Option Nat :=
  let a := area2 xy
  let front := if fneg then a < 0 else 0 < a
  let xs := [xy.getD 0 0, xy.getD 2 0, xy.getD 4 0]
  let ys := [xy.getD 1 0, xy.getD 3 0, xy.getD 5 0]
  let lo := fun (l : List Int) => l.foldl min (l.headD 0)
  let hi := fun (l : List Int) => l.foldl max (l.headD 0)
  if vs.any Option.isNone then some 3
  else if a == 0 then some 1
  else if (cull == 1 && !front) || (cull == 2 && front) then some 2
  else if !(List.range (tileCount tile)).any fun t =>
      let p := tilePoint tile t
      lo xs ≤ p.1 && p.1 ≤ hi xs && lo ys ≤ p.2 && p.2 ≤ hi ys then some 4
  else none

/-- R319, step 5: a free slot of the core, filled for the focused team, and its token. -/
def allocSlot (num : Nat) (xy : List Int) (z tile : List Nat) (s : State) : Nat × State :=
  let k := 32 * s.w.core + num
  let gen := (SMap.get 0 s.rasterGen k + 1) % 256
  let r : RasterSlot := { core := s.w.core, num := num, owner := teamTag s, xy := xy, z := z, tile := tile }
  (num + gen * 2 ^ 23, { s with raster := s.raster ++ [r], rasterGen := SMap.set 0 s.rasterGen k gen })

/-- R22, R188, R206: whether accesses that lanes of the focused wave have yet to perform keep those lanes from accessing
the scratch cells of a range; two offsets of one cell are one location. -/
def scratchBusy (s : State) (lanes : Lanes) (off n : Nat) : Bool :=
  let cell := (scratchCell s off n).getD 0
  acquirePending s.w.ops || s.w.ops.any fun o =>
    onScratch o.i && (lanesOf (lanes &&& o.lanes &&& ~~~o.perf)).any fun l =>
      (o.laneSpans l).any fun a => a.1 < cell + n && cell < a.1 + a.2

/-- TRISET (R317-R320). A clear is made first; while no slot is free the wave then waits at the same word without it. -/
def execTriset (f : SF) (s : State) : Out :=
  let w := s.w
  let d := descOf w f.sb 3
  let tile := readTile d
  let tb := tile.getD 5 0
  let n := 8 * tileCount tile
  let clr := flag f.imm 3
  .next (if w.idle then s
    else match tileCause s d with
      | some .memXlate => raise .memXlate w.active (dstOf 2 f.sd) (BitVec.ofNat 64 tb) s
      | some .memAlign => raise .memAlign w.active (dstOf 2 f.sd) (BitVec.ofNat 64 tb) s
      | some c => raise c w.active (dstOf 2 f.sd) 0 s
      | none =>
        if clr && scratchBusy s w.active tb n then holdAgain (.triset f) s
        else
          let s := if clr then
              withWave (fun w => w.markStored w.active)
                (storeScratch ((scratchCell s tb n).getD 0) n (2 ^ (8 * n) - 1) s)
            else s
          let reg := fun (k : Nat) => (w.sreg (f.sa + k)).toNat
          let vs := [0, 1, 2].map fun i => readVertex (reg (4 * i)) (reg (4 * i + 1)) (reg (4 * i + 2)) (reg (4 * i + 3))
          let ok := vs.filterMap id
          let xy := ok.flatMap fun v => [v.x, v.y]
          match noSlot vs xy (f.imm % 4) (flag f.imm 2) tile with
          | some reason => writeS f.sd (BitVec.ofNat 32 (doneToken reason)) s
          | none => match (List.range 32).find? fun k => !s.raster.any fun r => r.core == w.core && r.num == k with
            | none => holdAgain (.triset { f with imm := f.imm % 8 }) s
            | some k =>
              let (tok, s) := allocSlot k xy (ok.map Vertex.z) tile s
              writeS f.sd (BitVec.ofNat 32 tok) s)

/-! ## RAST (R322-R325) -/

/-- R323: the samples that lanes receive in turn, with the sample after the last, or none at the end of the tile. -/
def walkLanes (r : RasterSlot) (n : Nat) : List Nat → Nat → List (Nat × Option Nat) × Option Nat
  | [], t => ([], nextCovered r (n - t) t)
  | l :: ls, t => match nextCovered r (n - t) t with
    | none => ((l :: ls).map fun k => (k, none), none)
    | some u =>
      let (rest, e) := walkLanes r n ls (u + 1)
      ((l, some u) :: rest, e)

/-- R323: the results of one lane. -/
def rastLane (f : V3) (r : RasterSlot) (x : Nat × Option Nat) : List Land := match x.2 with
  | none => [{ kind := 3, lane := x.1, reg := f.b, slot := 3, val := 0 }]
  | some t =>
    landV x.1 f.d
        (joinWords (fun k => if k == 0 then r.field 5 + 8 * t else if k == 1 then depthAt r t else positionWord r.tile t) 3) 3
      ++ [{ kind := 3, lane := x.1, reg := f.b, slot := 3, val := 1 }]

/-- R323: the token written back, as a result of the wave. -/
def rastToken (f : V3) (tok : Nat) : Land := { kind := 2, lane := 64, reg := f.a, slot := 4, val := BitVec.ofNat 32 tok }

/-- A counted operation whose lanes are performed at issue, with its results. -/
def pushPerformed (i : Instr) (lanes : List Nat) (aux : List Nat) (res : List Land) (s : State) : State :=
  let w := s.w
  let set := laneSet fun l => lanes.contains l
  let o : Op := { ctr := 3, i := i, pc := w.wordPc, word := w.word, lanes := set, perf := set, src := [], aux := aux
                  act := w.active, res := res, version := w.version }
  { s with w := { w with ops := w.ops ++ [{ o with num := s.nextId }] }, nextId := s.nextId + 1 }

/-- RAST (R322, R323): the walk is made at issue, and its results land later (R38). -/
def execRast (f : V3) (s : State) : Out :=
  let w := s.w
  let tok := (w.sreg f.a).toNat
  let num := bits tok 0 5
  let none_ := w.lanes.map fun l => (l, (none : Option Nat))
  .next (if w.idle then s
    else if flag tok 31 then
      let empty : RasterSlot := { core := 0, num := 0, owner := 0, xy := [], z := [], tile := [] }
      pushPerformed (.rast f) w.lanes [] (none_.flatMap (rastLane f empty) ++ [rastToken f tok]) s
    else match s.raster.find? fun r => r.core == w.core && r.num == num with
      | none => raise .rsvdField w.active (dstOf 1 f.d) 0 s
      | some r =>
        if r.owner != teamTag s || SMap.get 0 s.rasterGen (32 * w.core + num) != bits tok 23 8 then
          raise .rsvdField w.active (dstOf 1 f.d) 0 s
        else
          let (xs, e) := walkLanes r (tileCount r.tile) w.lanes (bits tok 5 18)
          let new := match e with
            | none => doneToken 0
            | some t => tok - bits tok 5 18 * 2 ^ 5 + t * 2 ^ 5
          let aux := if e.isNone then [num, bits tok 23 8] else []
          pushPerformed (.rast f) w.lanes aux (xs.flatMap (rastLane f r) ++ [rastToken f new]) s)

/-- R316: the slot of a walk that ended is freed when its DONE token is produced, unless it has been freed before. -/
def freeSlot (aux : List Nat) (s : State) : State := match aux with
  | num :: gen :: _ =>
    if SMap.get 0 s.rasterGen (32 * s.w.core + num) == gen then
      { s with raster := s.raster.filter fun r => !(r.core == s.w.core && r.num == num) }
    else s
  | _ => s

/-! ## ATTR (R328-R331) -/

/-- The accesses to n consecutive words: one for each word, or, at an odd address, one for each byte. -/
def wordSpans (va n : Nat) : List (Nat × Nat) :=
  if va % 4 == 0 then (List.range n).map fun k => ((va + 4 * k) % 2 ^ 64, 4)
  else (List.range (4 * n)).map fun k => ((va + k) % 2 ^ 64, 1)

/-- The word read at an address. -/
def wordAt (vs : List (Nat × Nat)) (va : Nat) : Nat :=
  if va % 4 == 0 then valueAt vs (va % 2 ^ 64)
  else ofBytes ((List.range 4).map fun k => valueAt vs ((va + k) % 2 ^ 64))

/-- Words read from an address on, as one number. -/
def wordsAt (vs : List (Nat × Nat)) (va n : Nat) : Nat := joinWords (fun k => wordAt vs (va + 4 * k)) n

/-- R330: the operands of a lane: the visibility word and the position word. -/
structure AttrLane where
  w : Nat
  pos : Nat
  rec_ : Nat := 0
  idx : List Nat := []

/-- NATTR of a mesh record. -/
def meshNattr (r : Nat) : Nat := bits r 192 5
/-- R328, R330: a mesh record that fails its ranges, or a primitive beyond its count. -/
def meshBad (r prim : Nat) : Bool :=
  bits r 0 4 != 0 || bits r 64 2 != 0 || bits r 128 2 != 0 || 16 < meshNattr r || bits r 197 27 != 0
    || bits r 256 256 != 0 || bits r 224 32 ≤ prim

/-- The address of attribute c of vertex v. -/
def attrAddr (r v c : Nat) : Nat := (bits r 128 64 + 4 * (v * meshNattr r + c)) % 2 ^ 64
/-- The address of vertex v. -/
def vertexAddr (r v : Nat) : Nat := (bits r 0 64 + 16 * v) % 2 ^ 64

/-- R330: a product of a weight numerator and an attribute, for a sum over Q of a sign. -/
def attrTerm (qneg : Bool) (g : Int × Int) : FV → FV
  | .fin s m e => .fin (s != (decide (g.1 < 0) != qneg)) (m * g.1.natAbs) (e + g.2)
  | v => if g.1 == 0 then .fin false 0 0 else v

/-- R330: the results of a lane that is Bad. -/
def attrBad (f : V3) (l : Nat) : List Land :=
  landV l f.d (0x7FC00000 + 0x7FC00000 * 2 ^ 32 + 0x7FC00000 * 2 ^ 64) (3 + f.attrRegs)

/-- R330: the results of a lane from the vertices and attributes read. -/
def attrResult (f : V3) (l : Nat) (a : AttrLane) (vs : List (Nat × Nat)) : List Land :=
  let v := [0, 1, 2].map fun n =>
    let at_ := fun (k : Nat) => wordAt vs (vertexAddr a.rec_ (a.idx.getD n 0) + 4 * k)
    readVertex (at_ 0) (at_ 1) (at_ 2) (at_ 3)
  let ok := v.filterMap id
  let xy := ok.flatMap fun x => [x.x, x.y]
  let p := samplePoint (bits a.pos 30 2) (bits a.pos 0 14) (bits a.pos 14 14) (bits a.pos 28 2)
  let g := fun (n : Nat) =>
    let q := exactF32 ((ok[n]?.map Vertex.q).getD 0)
    (edgeAt xy n p * q.1, q.2)
  let q := dyAdd (dyAdd (g 0) (g 1)) (g 2)
  if v.any Option.isNone || area2 xy == 0 || q.1 == 0 then attrBad f l
  else
    let neg := decide (q.1 < 0)
    let weight := fun (n : Nat) =>
      roundQuot [.fin ((g n).1 != 0 && decide ((g n).1 < 0) != neg) (g n).1.natAbs (g n).2] q.1.natAbs q.2
    let attr := fun (c : Nat) =>
      if meshNattr a.rec_ ≤ c then 0
      else roundQuot ([0, 1, 2].map fun n =>
        attrTerm neg (g n) (FFmt.f32.read (wordAt vs (attrAddr a.rec_ (a.idx.getD n 0) c)))) q.1.natAbs q.2
    landV l f.d (joinWords (fun k => if k < 3 then weight k else attr (k - 3)) (3 + f.attrRegs)) (3 + f.attrRegs)

/-- Accesses of lanes read in order: the values of each lane without an error, and the errors. -/
def readLanes (o : Op) : SMap (List Span) → State → List (Nat × List (Nat × Nat)) × List (Nat × Cause × Nat) × State
  | [], s => ([], [], s)
  | (l, ps) :: rest, s =>
    let (r, s) := readSpans o ps s
    let (vs, es, s) := readLanes o rest s
    match r with
    | .ok v => ((l, v) :: vs, es, s)
    | .error e => (vs, (l, e) :: es, s)

/-- R331: one round of ATTR: its accesses checked in every lane, then read; the wave holds the late traps found (R204), and
`go` continues with the values and the errors. A round that must come after earlier accesses of the wave (R188, R206)
leaves `start`, the state before the first round, to be held and made again. -/
def attrRound (f : V3) (start : State) (ps : Nat → List (Nat × Nat)) (lanes : List Nat)
    (go : List (Nat × List (Nat × Nat)) → List (Nat × Cause × Nat) → State → State) (s : State) : State :=
  checkedSpans { need := .load } 0 (dstOf 1 f.d) (.attr f) ps lanes (fun sp s =>
    let o : Op := { ctr := 3, i := .attr f, pc := s.w.wordPc, word := s.w.word, lanes := s.w.active, src := []
                    spans := sp, version := s.w.version }
    if lanes.any (laneBlocked s.w.ops o) then holdAgain (.attr f) start
    else
      let (vs, es, s) := readLanes o sp s
      go vs es { s with w := { s.w with late := s.w.late ++ lateOf o es } }) s

/-- The values of a lane. -/
def laneValues (vs : List (Nat × List (Nat × Nat))) (l : Nat) : List (Nat × Nat) := SMap.get [] vs l

/-- ATTR (R329-R331): its three rounds are made at issue, and its results land later (R38). -/
def execAttr (f : V3) (s : State) : Out :=
  let w := s.w
  let base := (w.spair f.x.c).toNat
  let lane := fun (l : Nat) => ({ w := (w.vpair l f.a).toNat, pos := (w.vreg l f.b).toNat } : AttrLane)
  let recAddr := fun (l : Nat) => (base + 64 * bits (lane l).w 22 10) % 2 ^ 64
  let full := w.lanes.filter fun l => (lane l).w != 2 ^ 64 - 1
  let start := s
  .next (if w.idle then s
    else if acquirePending w.ops then holdAgain (.attr f) s
    else
      attrRound f start (fun l => wordSpans (recAddr l) 16) full (fun rs e1 s =>
        let rec_ := fun (l : Nat) => wordsAt (laneValues rs l) (recAddr l) 16
        let good := (rs.map Prod.fst).filter fun l => !meshBad (rec_ l) (bits (lane l).w 0 22)
        let idxAddr := fun (l : Nat) => (bits (rec_ l) 64 64 + 12 * bits (lane l).w 0 22) % 2 ^ 64
        attrRound f start (fun l => wordSpans (idxAddr l) 3) good (fun is e2 s =>
          let idx := fun (l : Nat) => (List.range 3).map fun k => wordAt (laneValues is l) (idxAddr l + 4 * k)
          attrRound f start (fun l =>
              let n := min (meshNattr (rec_ l)) f.attrRegs
              (idx l).flatMap fun v => wordSpans (vertexAddr (rec_ l) v) 4 ++ wordSpans (attrAddr (rec_ l) v 0) n)
            (is.map Prod.fst) (fun vs e3 s =>
              let all := e1 ++ e2 ++ e3
              let errs := w.lanes.flatMap fun l => all.filter (·.1 == l)
              let res := w.lanes.flatMap fun l =>
                if errs.any (·.1 == l) then []
                else if good.contains l then
                  attrResult f l { lane l with rec_ := rec_ l, idx := idx l } (laneValues vs l)
                else attrBad f l
              pushPerformed (.attr f) w.lanes [] res s) s) s) s)

/-! ## FLIP (R332-R334) -/

/-- The bytes of a pixel of a format of R332. -/
def pixelBytes (fmt : Nat) : Nat := if fmt == 1 then 8 else 4

/-- R333: a surface (six registers as one number) that FLIP refuses. -/
def flipBad (c : Option Context) (d : Nat) : Bool :=
  let fmt := bits d 92 4
  let pitch := bits d 96 32
  2 < fmt || bits d 0 8 != 0 || pitch % 256 != 0 || pitch < (bits d 64 14 + 1) * pixelBytes fmt || bits d 144 16 != 0
    || (match c with
        | some c => !flag c.fabric (bits d 128 8) || c.egressPa == 0
        | none => true)

/-- R334: the 64 bytes of a record of a surface, in STATE 1. -/
def frameRecord (d now : Nat) : List Nat := toBytes 24 (d % 2 ^ 192) ++ toBytes 8 now ++ toBytes 32 1

/-- R333: an append to the egress ring of a context; none when it is full. -/
def appendFrame (ctx d : Nat) (s : State) : Option State := match s.context ctx with
  | none => none
  | some c =>
    let a := c.egressPa + 64 * c.append
    let st := bits (readMem s.mem (a + 32) 1) 0 3
    if st == 1 || st == 2 then none
    else
      let s := homeWrite true a 64 (ofBytes (frameRecord d s.now)) (recallLine a s)
      some (updContext ctx (fun c => { c with append := (c.append + 1) % 2 ^ c.egressLog2 }) s)

/-- FLIP (R332, R333). -/
def execFlip (f : SF) (s : State) : Out :=
  let w := s.w
  let d := descOf w f.sa 6
  .next (if w.idle then s
    else if flipBad (s.context s.ctxId) d then writeS f.sd 2 s
    else if w.version != 0 then
      if logsPending s w.leader s.nextId then holdAgain (.flip f) s
      else
        writeS f.sd 3 (logEntry { ctx := s.ctxId, tag := w.version, i := .flip f, va := 0, data := [d], core := w.core
                                  wave := w.slot, part := w.part, recs := 1, late := false, wid := w.id
                                  num := s.nextId } { s with nextId := s.nextId + 1 })
    else if !releaseReady s w.ops {} then holdAgain (.flip f) s
    else
      let s := releaseNow 4 {} s
      match appendFrame s.ctxId d s with
      | none => writeS f.sd 1 s
      | some s => writeS f.sd 0 s)

/-! ## The frame egress engine (R335, R374, R422) -/

/-- The translation unit of the frame egress engine. -/
def egressUnit : Nat := 640

/-- R335: n pixels of `size` bytes read at their homes from an address, or the cause that stops the frame. -/
def readRow (ctx size : Nat) : Nat → Nat → State → Except Cause (List Nat × State)
  | 0, _, s => .ok ([], s)
  | n + 1, va, s =>
    if 2 ^ 52 ≤ va then .error .memXlate
    else match xlate s egressUnit ctx va .load with
      | .replay _ | .bad _ => .error .memXlate
      | .perm _ _ => .error .memPerm
      | .ok leaf =>
        let pa := leaf.addr va
        let s := recallLine pa (fillTlb egressUnit ctx va leaf s)
        match memError s pa with
        | some c => .error c
        | none =>
          let s := if leaf.cached then touchLine s (pa / 1024) 0 else s
          match readRow ctx size n (va + size) s with
          | .error c => .error c
          | .ok (bs, s) => .ok (viewBytes s ctx 0 leaf.ver pa size ++ bs, s)

/-- The rows of a surface read in order. -/
def readRows (ctx size width pitch : Nat) : Nat → Nat → State → Except Cause (List Nat × State)
  | 0, _, s => .ok ([], s)
  | n + 1, va, s => match readRow ctx size width va s with
    | .error c => .error c
    | .ok (bs, s) => match readRows ctx size width pitch n (va + pitch) s with
      | .error c => .error c
      | .ok (cs, s) => .ok (bs ++ cs, s)

/-- The surface that a record names. -/
def readSurface (ctx : Nat) (record : List Nat) (s : State) : Except Cause (List Nat × State) :=
  let d := ofBytes record
  readRows ctx (pixelBytes (bits d 92 4)) (bits d 64 14 + 1) (bits d 96 32) (bits d 78 14 + 1) (bits d 0 64) s

/-- R334: STATE and ERR of a record written. -/
def setFrameState (ctx index st err : Nat) (s : State) : State := match s.context ctx with
  | none => s
  | some c =>
    let a := c.egressPa + 64 * index + 32
    homeWrite true a 4 (st + err * 2 ^ 16) (recallLine a s)

/-- A frame sent to its node, or held for a route (R422, R423). -/
def sendFrame (x : Frame) (s : State) : State :=
  let s := { s with plat := { s.plat with frames := s.plat.frames ++ [x] } }
  if routeUp s x.node then send 3 x.node (x.id :: x.data) s else holdMessage 1 x.id s

/-- R7, R334: a frame record with a reserved bit set. -/
def frameBad (r : List Nat) : Bool :=
  field r 18 2 != 0 || field r 32 2 / 8 != 0 || (r.drop 35).any (· != 0)

/-- R335: one frame of a context started: the record at TAKE when it is queued and no frame of the ring is being
sent. The engine refuses a record with a reserved bit set (R7): the frame is dropped, with an ERR that the spec leaves
open (log entry 59). -/
def startFrame (c : Context) (s : State) : State :=
  let a := c.egressPa + 64 * c.take
  let st := bits (readMem s.mem (a + 32) 1) 0 3
  if c.egressPa == 0 || st != 1 || s.plat.frames.any (fun x => x.ctx == c.id && !x.repeated) then s
  else
    let record := toBytes 64 (readMem s.mem a 64)
    let s := setFrameState c.id c.take 2 0 s
    let s := updContext c.id (fun x => { x with take := (c.take + 1) % 2 ^ c.egressLog2 }) s
    if frameBad record then
      setFrameState c.id c.take 4 ((Config.freeWord s.fresh).toNat % 256) { s with fresh := s.fresh + 1 }
    else match readSurface c.id record s with
    | .error e => setFrameState c.id c.take 4 e.code s
    | .ok (rows, s) =>
      sendFrame { id := s.nextId, ctx := c.id, index := c.take, repeated := false, node := record.getD 16 0
                  data := record ++ rows } { s with nextId := s.nextId + 1 }

/-- FRAME_SEND (R335): the frame egress engine takes and sends the next record of a context's ring. -/
def execEvFrameSend (ctx : Nat) (s : State) : Out :=
  .next (match s.context ctx with
    | some c => startFrame c s
    | none => s)

/-- R374: the last frame of a context that reached STATE 3 is sent once more, with no record written. -/
def repeatFrame (ctx : Nat) (s : State) : State := match s.context ctx with
  | none => s
  | some c =>
    if c.lastSent.isEmpty then s
    else match readSurface ctx c.lastSent s with
      | .error _ => s
      | .ok (rows, s) =>
        sendFrame { id := s.nextId, ctx := ctx, index := 0, repeated := true, node := c.lastSent.getD 16 0
                    data := c.lastSent ++ rows } { s with nextId := s.nextId + 1 }

/-- R335: the outcome of a frame: STATE 3, or STATE 4 with an error. -/
def endFrame (id err : Nat) (s : State) : State := match s.plat.frames.find? (·.id == id) with
  | none => s
  | some x =>
    let s := { s with plat := { s.plat with frames := s.plat.frames.filter (·.id != id) } }
    if x.repeated then s
    else if err == 0 then
      updContext x.ctx (fun c => { c with lastSent := x.data.take 64 }) (setFrameState x.ctx x.index 3 0 s)
    else setFrameState x.ctx x.index 4 err s

/-- FRAMEACK (R335): the acknowledgement of a frame that was sent arrives; a refusal is 0x22. -/
def execEvFrameack (id : Nat) (ok : Bool) (s : State) : Out :=
  .next (if s.plat.held.any fun h => h.kind == 1 && h.id == id then s
    else endFrame id (if ok then 0 else 0x22) s)

/-- FRAME_MESSAGE (R422): a frame from another node is refused. -/
def execEvFrameMessage (src : Nat) (s : State) : Out := .next (send 6 src [0] s)

/-- R422: a held message that found no route within 1 ms fails. -/
def failHeld (h : Held) (s : State) : State :=
  let s := { s with plat := { s.plat with held := s.plat.held.erase h } }
  if h.kind == 1 then endFrame h.id 0x22 s
  else match s.cmds.find? (·.id == h.id) with
    | some c => poisonCmd c { code := 0x22 } (fun s => s) s
    | none => s

/-- NO_ROUTE (R422): the idx-th held message has waited 1 ms. -/
def execEvNoRoute (idx : Nat) (s : State) : Out :=
  .next (match s.plat.held[idx]? with
    | some h => if h.since + 1000000 ≤ s.now then failHeld h s else s
    | none => s)

/-- R422: a held message is sent once its node has a port up; one held for more than 1 ms has failed. -/
def sendHeld (h : Held) (s : State) : State :=
  let drop := fun (s : State) => { s with plat := { s.plat with held := s.plat.held.erase h } }
  if h.since + 1000000 < s.now then failHeld h s
  else if h.kind == 1 then
    match s.plat.frames.find? (·.id == h.id) with
    | some x => if routeUp s x.node then send 3 x.node (x.id :: x.data) (drop s) else s
    | none => drop s
  else match s.cmds.find? (·.id == h.id) with
    | some c => if routeUp s (putNode s c) then sendPut c (drop s) else s
    | none => drop s

/-- PORT_COMES_UP (R421, R422): a port's fibres are in service, and the messages held for its node go. -/
def execEvPortComesUp (port : Nat) (s : State) : Out :=
  .next (if port < 16 then
      let up := s.plat.fibresDown.filter fun f => f / 4 != port
      let s := { s with plat := { s.plat with fibresDown := up } }
      s.plat.held.foldl (fun s h => sendHeld h s) s
    else s)

end Sys2Proof.Machine
end

