-- ==== Sys2Proof/Machine/Futures.lean ====
section
/-!
DEFINITION. The version instructions (R364-R373), the expiry of deadlines (R374) and the reclamation of tags (R372).
-/

namespace Sys2Proof.Machine

/-- A tag operand (R364). -/
def tagOperand (w : Wave) (r : Nat) : Nat := (w.sreg r).toNat % 16

/-- The FREE tags of a context, ascending. -/
def freeTags (s : State) (ctx : Nat) : List Nat :=
  (List.range 16).filter fun t => t != 0 && (tagOf s ctx t).state == 0

/-- R366: one child created; every L1 drops its lines of the tag (R359). -/
def forkTag (ctx cur t : Nat) (s : State) : State :=
  let d := (tagOf s ctx cur).depth + 1
  let s := updTag ctx t (fun _ => { state := 1, parent := cur, depth := d }) s
  { s with l1 := s.l1.filter fun l => !(l.tag == t && l.ctx == ctx) }

/-- R366: tags packed, the first lowest. -/
def packTags : List Nat → Nat
  | [] => 0
  | t :: ts => t + 16 * packTags ts

/-- VFORK (R366). -/
def execVfork (f : SF) (s : State) : Out :=
  let w := s.w
  let ctx := s.ctxId
  let n := (w.sreg f.sa).toNat
  let cur := w.version
  let done := fun (v : Nat) (ok : Bool) (s : State) =>
    writeP (f.imm % 8) (fun _ => ok) (writeS f.sd (BitVec.ofNat 32 v) s)
  .next (if w.idle then s
    else if n == 0 || 8 < n then raise .rsvdField w.active (dstOf 2 f.sd) 0 s
    else if !live s ctx cur || (tagOf s ctx cur).depth == 2 || (freeTags s ctx).length < n then done 0 false s
    else if !releaseReady s w.ops {} then holdAgain (.vfork f) s
    else
      let s := releaseNow 4 {} s
      let ts := (freeTags s ctx).take n
      done (packTags ts) true (ts.foldl (fun s t => forkTag ctx cur t s) s))

/-- VSET (R367). -/
def execVset (f : SF) (s : State) : Out :=
  let w := s.w
  let ctx := s.ctxId
  let t := tagOperand w f.sa
  .next (if w.idle then s
    else if !live s ctx t || (t != w.version && !isAncestor s ctx w.version t) then raise .version w.active 0 0 s
    else if !releaseReady s w.ops {} then holdAgain (.vset f) s
    else
      let s := releaseNow 4 {} s
      { s with w := { s.w with version := t } })

/-- VCOMMIT (R368). -/
def execVcommit (f : SF) (s : State) : Out :=
  let w := s.w
  let ctx := s.ctxId
  let v := tagOperand w f.sa
  .next (if w.idle then s
    else if v == 0 || !live s ctx v then writeS f.sd 1 s
    else if w.version != v && w.version != (tagOf s ctx v).parent then writeS f.sd 2 s
    else if !releaseReady s w.ops {} then holdAgain (.vcommit f) s
    else writeS f.sd 0 (commitPoint ctx v (releaseNow 4 {} s)))

/-- VSQUASH (R370): the status is written before the version's waves are killed. -/
def execVsquash (f : SF) (s : State) : Out :=
  let w := s.w
  let ctx := s.ctxId
  let v := tagOperand w f.sa
  .next (if w.idle then s
    else if v == 0 || !live s ctx v then writeS f.sd 1 s
    else if w.version != v && !isAncestor s ctx w.version v then writeS f.sd 2 s
    else squashTree ctx v 1 (writeS f.sd 0 s))

/-- VQUERY (R356, R373). -/
def execVquery (f : SF) (s : State) : Out :=
  .next (writeS f.sd (BitVec.ofNat 32 (tagWord s s.ctxId (tagOperand s.w f.sa))) s)

/-- VDEADL (R373). -/
def execVdeadl (f : SF) (s : State) : Out :=
  let w := s.w
  let ctx := s.ctxId
  let v := tagOperand w f.sa
  let d := (w.spair f.sb).toNat
  .next (if w.idle then s
    else if v == 0 || !live s ctx v then writeS f.sd 1 s
    else writeS f.sd 0 (updTag ctx v (fun g => { g with deadline := d, dset := d != 0, expired := false }) s))

/-! ## Deadlines and reclamation (R372, R374) -/

/-- R427: the 802.1AS time. -/
def timeNow (s : State) : Int := (s.now : Int) + s.plat.timeOffset

/-- R374: whether the expiry of a tag is due. -/
def expiryDue (s : State) (ctx t : Nat) : Bool :=
  let g := tagOf s ctx t
  t != 0 && g.state == 1 && g.dset && !g.expired && (g.deadline : Int) < timeNow s

/-- R374: an expiry, one step in the version order. -/
def expire (ctx t : Nat) (s : State) : State :=
  let kids := children s ctx t
  let below := kids ++ kids.flatMap (children s ctx)
  let s := updTag ctx t (fun g => { g with expired := true }) s
  let s := (t :: below).foldl (fun s k => updTag ctx k (fun g => { g with dmiss := true }) s) s
  repeatFrame ctx (postEvent 3 ctx t 0 0 t 0 s)

/-- DEADLINE_EXPIRY (R374): a check finds the deadline of a LIVE version passed. -/
def execEvDeadlineExpiry (ctx tag : Nat) (s : State) : Out :=
  .next (if expiryDue s ctx tag then expire ctx tag s else s)

/-- R372: whether nothing carries an ended tag any more. -/
def tagUnused (s : State) (ctx t : Nat) : Bool :=
  let own := fun (c g : Nat) => c == ctx && g == t
  let waveUses := fun (w : Wave) =>
    w.ctx == ctx && ((!w.ended && w.version == t) || w.ops.any (·.version == t) || w.parks.any (·.version == t))
  let streamUses := fun (x : Stream) =>
    x.on && x.state == 1 && x.version == t && (s.cohort x.cohort).any (·.ctx == ctx)
  !((allWaves s).any waveUses || s.cmds.any (fun c => own c.ctx c.tag) || streamUses s.st || s.streams.any streamUses
    || s.launches.any (fun l => own l.ctx l.version || (l.ctx == ctx && l.waiting.any (·.version == t)))
    || s.cohorts.any (fun c => own c.ctx c.version) || s.ready.any (·.carries ctx t)
    || s.armed.any (·.packet.carries ctx t) || s.completions.any (fun c => own c.packet.ctx c.version)
    || s.engine.any (fun e => own e.ctx e.tag) || s.pending.any (fun p => own p.ctx p.tag) || s.updates.any (fun u => own u.ctx u.tag)
    || s.sectors.any (fun x => own x.ctx x.tag) || (s.logs ++ s.replay).any (fun e => own e.ctx e.tag))

/-- TAG_RECLAIM (R372): an ended tag that nothing carries becomes FREE; it keeps REASON and DMISS (R356). -/
def execEvTagReclaim (ctx tag : Nat) (s : State) : Out :=
  .next (if 2 ≤ (tagOf s ctx tag).state && tagUnused s ctx tag then
      updTag ctx tag (fun g => { state := 0, reason := g.reason, dmiss := g.dmiss }) s
    else s)

end Sys2Proof.Machine
end

