-- ==== Sys2Proof/Machine/HashGrid.lean ====
section
/-!
DEFINITION. The hash-grid path of the texture and hash-grid unit (R307-R315): HGFETCH, HGSCAT and HGSETTLE.
-/

namespace Sys2Proof.Machine

/-! ## Descriptors (R307) -/

/-- NLEV. -/
def gridNlev (d : Nat) : Nat := bits d 64 4
/-- DIMS. -/
def gridDims (d : Nat) : Nat := bits d 68 1 + 2
/-- F. -/
def gridF (d : Nat) : Nat := 2 * 2 ^ bits d 69 2
/-- FFMT as a format. -/
def gridFmt (d : Nat) : FFmt := if flag d 71 then .bf16 else .f16
/-- k of LOG2T. -/
def gridK (d : Nat) : Nat := bits d 72 5
/-- TBASE. -/
def gridTbase (d : Nat) : Nat := bits d 0 64
/-- GBASE. -/
def gridGbase (d : Nat) : Nat := bits d 128 64
/-- RES of a level. -/
def gridRes (d l : Nat) : Nat := bits d (256 + 16 * l) 16
/-- The features of all levels. -/
def gridWords (d : Nat) : Nat := (gridNlev d + 1) * gridF d

/-- R307: a grid descriptor that fails its check; `grads` says that the instruction needs a gradient buffer. -/
def gridBad (d : Nat) (grads : Bool) : Bool :=
  bits d 77 51 != 0 || bits d 192 64 != 0 || bits d 69 2 == 3 || gridK d < 4 || 24 < gridK d
    || gridTbase d % 256 != 0 || gridGbase d % 256 != 0
    || (List.range 16).any (fun l => if l ≤ gridNlev d then gridRes d l == 0 else gridRes d l != 0)
    || (grads && gridGbase d == 0)

/-! ## Cells and corners (R308, R309) -/

/-- R308: a coordinate clamped to [0, 1], as n / 2^k. -/
def clampUnit (raw : Nat) : Nat × Nat := match FFmt.f32.read raw with
  | .nan _ => (0, 0)
  | .inf s => (if s then 0 else 1, 0)
  | .fin s m e => if s then (0, 0) else if 0 ≤ e then (if m == 0 then 0 else 1, 0)
    else if 2 ^ (-e).toNat ≤ m then (1, 0) else (m, (-e).toNat)

/-- R308: the cell of a coordinate on an axis of n cells, with the weight w / 2^k. -/
def gridCell (n raw : Nat) : Nat × Nat × Nat :=
  let (m, k) := clampUnit raw
  let i := m * n / 2 ^ k
  if i == n then (n - 1, 2 ^ k, k) else (i, m * n % 2 ^ k, k)

/-- One corner: its flat index, its level and its weight num / 2^k. -/
structure Corner where
  flat : Nat
  level : Nat
  num : Nat
  k : Nat

/-- R309, R72: the index of a corner in its level. -/
def cornerIndex (d n x y z : Nat) : Nat :=
  if (n + 1) ^ gridDims d ≤ 2 ^ gridK d then x + (n + 1) * y + (n + 1) ^ 2 * z
  else Nat.xor (Nat.xor (x % 2 ^ 32) (y * 0x9E3779B1 % 2 ^ 32)) (z * 0x85A308D3 % 2 ^ 32) % 2 ^ gridK d

/-- R308: the corners of one level, in increasing order. -/
def levelCorners (d l : Nat) (c : Nat → Nat) : List Corner :=
  let n := gridRes d l
  let cell := fun (a : Nat) => gridCell n (c a)
  (List.range (2 ^ gridDims d)).map fun o =>
    let pos := fun (a : Nat) => (cell a).1 + (if flag o a then 1 else 0)
    let wt := fun (a : Nat) => if flag o a then (cell a).2.1 else 2 ^ (cell a).2.2 - (cell a).2.1
    let as_ := List.range (gridDims d)
    { flat := l * 2 ^ gridK d + cornerIndex d n (pos 0) (pos 1) (if gridDims d == 3 then pos 2 else 0), level := l
      num := as_.foldl (fun p a => p * wt a) 1, k := as_.foldl (fun p a => p + (cell a).2.2) 0 }

/-- R308: the corners of every level. -/
def gridCorners (d : Nat) (c : Nat → Nat) : List Corner :=
  (List.range (gridNlev d + 1)).flatMap fun l => levelCorners d l c

/-- R309, R42: the address of an entry. -/
def entryAddr (d flat : Nat) : Nat := (gridTbase d + flat * (2 * gridF d)) % 2 ^ 64

/-- R311, R42: the address of the accumulator of a feature. -/
def accumAddr (d flat f : Nat) : Nat := (gridGbase d + 256 + (flat * gridF d + f) * 16) % 2 ^ 64

/-! ## HGFETCH (R310) -/

/-- R310: feature f of level l from the entries read. -/
def gridFeature (d : Nat) (cs : List Corner) (vs : List (Nat × Nat)) (l f : Nat) : Nat :=
  roundSum 1 ((cs.filter (·.level == l)).map fun c =>
    weighted c.num c.k ((gridFmt d).read (bits (valueAt vs (entryAddr d c.flat)) (16 * f) 16)))

/-- The coordinates of a lane. -/
def gridCoords (w : Wave) (f : V3) (d l : Nat) : List Nat :=
  (List.range (gridDims d)).map fun k => (w.vreg l (f.a + k)).toNat

/-- HGFETCH (R310). -/
def execHgfetch (f : V3) (s : State) : Out :=
  let w := s.w
  let d := descOf w f.b 16
  .next (if gridBad d false then raiseCheck .rsvdField s
    else if w.nregs ≤ f.a + gridDims d - 1 || w.nregs ≤ f.d + gridWords d - 1 then raiseCheck .regRange s
    else if w.idle then s
    else
      let src := gridCoords w f d
      let ps := fun (l : Nat) =>
        ((gridCorners d fun k => (src l).getD k 0).map fun c => entryAddr d c.flat).eraseDups.map fun a =>
          (a, 2 * gridF d)
      checkedSpans { need := .load } 0 (dstOf 1 f.d) (.hgfetch f) ps w.lanes
        (fun sp s => pushEngine (.hgfetch f) w.lanes src [d] sp s) s)

/-- One lane of HGFETCH performed. -/
def performFetch (o : Op) (f : V3) (l : Nat) (s : State) : Done × State :=
  match readSpans o (SMap.get [] o.spans l) s with
  | (.error e, s) => ({ errs := [e] }, s)
  | (.ok vs, s) =>
    let d := o.aux.headD 0
    let cs := gridCorners d fun k => (o.args l).getD k 0
    ({ res := landV l f.d (joinWords (fun k => gridFeature d cs vs (k / gridF d) (k % gridF d)) (gridWords d))
        (gridWords d) }, s)

/-! ## HGSCAT (R311-R313) -/

/-- R312: the delta of a gradient with a weight num / 2^k, and whether it sets SAT. -/
def scatDelta (g num k : Nat) (scale : Int) : Int × Bool :=
  let clamp := fun (v : Int) => if v ≤ -(2 ^ 95) then (-(2 ^ 95), true) else if 2 ^ 95 ≤ v then (2 ^ 95 - 1, true) else (v, false)
  match FFmt.f32.read g with
  | .nan _ => (0, true)
  | .inf s => if num == 0 then (0, true) else if s then (-(2 ^ 95), true) else (2 ^ 95 - 1, true)
  | .fin s m e => clamp (signed s (roundAt 1 { neg := s, m := m * num, e := e - k - scale } 0).1)

/-- R311: the signed value of an accumulator. -/
def accumValue (raw : Nat) : Int := (BitVec.ofNat 96 raw).toInt

/-- R312: an accumulator after a delta, and whether it sets SAT. -/
def accumAdd (raw : Nat) (delta : Int) : Nat × Bool :=
  let t := accumValue raw + delta
  let (v, sat) : Int × Bool := if t < -(2 ^ 95) then (-(2 ^ 95), true) else if 2 ^ 95 - 1 < t then (2 ^ 95 - 1, true) else (t, false)
  (intBits 96 v, sat)

/-- Who makes the accesses of a scatter or a settlement: a core, its context and version, and the page of an address. -/
structure Access where
  core : Nat
  ctx : Nat
  tag : Nat
  page : Nat → Option Leaf

/-- n bytes read at their home by an access, or the error. -/
def homeRead (x : Access) (va n : Nat) (s : State) : Except Cause Nat × State := match x.page va with
  | none => (.error .memXlate, s)
  | some leaf =>
    let pa := leaf.addr va
    match viewError s x.ctx x.tag leaf.ver pa with
    | some c => (.error c, findEcc s pa)
    | none =>
      let (v, s) := readHome x.core x.ctx x.tag leaf pa n s
      (.ok v, s)

/-- n bytes written at their home by an access; the core's L1 drops its lines of them. -/
def homePut (x : Access) (va n v : Nat) (s : State) : State := match x.page va with
  | none => s
  | some leaf =>
    let pa := leaf.addr va
    let s := viewWrite x.ctx x.tag leaf.ver leaf.cached pa n v s
    { s with l1 := s.l1.filter fun l => !(l.core == x.core && l.num == pa / 128) }

/-- SCALE of a gradient buffer (R311). -/
def readScale (x : Access) (d : Nat) (s : State) : Except Cause Int × State :=
  match homeRead x (gridGbase d) 4 s with
  | (.ok v, s) => (.ok (BitVec.ofNat 8 v).toInt, s)
  | (.error c, s) => (.error c, s)

/-- R312: SAT set. -/
def setSat (x : Access) (d : Nat) (s : State) : State := match homeRead x (gridGbase d) 4 s with
  | (.ok v, s) => homePut x (gridGbase d) 4 (v - bits v 8 1 * 2 ^ 8 + 2 ^ 8) s
  | (_, s) => s

/-- R312: one addition, or the error it meets. -/
def addOne (x : Access) (d flat f g num k : Nat) (s : State) : Option (Cause × Nat) × State :=
  let va := accumAddr d flat f
  match readScale x d s with
  | (.error c, s) => (some (c, gridGbase d), s)
  | (.ok scale, s) => match homeRead x va 16 s with
    | (.error c, s) => (some (c, va), s)
    | (.ok raw, s) =>
      let (delta, sat1) := scatDelta g num k scale
      let (v, sat2) := accumAdd raw delta
      let s := homePut x va 16 v s
      (none, if sat1 || sat2 then setSat x d s else s)

/-- R312: the additions of a lane: (flat index, feature, gradient, num, k). -/
def laneAdds (d : Nat) (src : List Nat) : List (Nat × Nat × Nat × Nat × Nat) :=
  (gridCorners d fun k => src.getD k 0).flatMap fun c =>
    (List.range (gridF d)).map fun f => (c.flat, f, src.getD (gridDims d + c.level * gridF d + f) 0, c.num, c.k)

/-- R297: the additions of a lane made in order; one that meets an error is not made, and the others are. -/
def makeAdds (x : Access) (d : Nat) : List (Nat × Nat × Nat × Nat × Nat) → State → List (Cause × Nat) × State
  | [], s => ([], s)
  | a :: as, s =>
    let (e, s) := addOne x d a.1 a.2.1 a.2.2.1 a.2.2.2.1 a.2.2.2.2 s
    let (r, s) := makeAdds x d as s
    (e.toList ++ r, s)

/-- HGSCAT (R312): a lane's operands are its coordinates, then its gradients. -/
def execHgscat (f : V3) (s : State) : Out :=
  let w := s.w
  let d := descOf w f.b 16
  .next (if gridBad d true then raiseCheck .rsvdField s
    else if w.nregs ≤ f.a + gridDims d - 1 || w.nregs ≤ f.d + gridWords d - 1 then raiseCheck .regRange s
    else if w.idle then s
    else
      let src := fun (l : Nat) =>
        gridCoords w f d l ++ (List.range (gridWords d)).map fun k => (w.vreg l (f.d + k)).toNat
      let ps := fun (l : Nat) =>
        (gridGbase d, 16) :: (((laneAdds d (src l)).map fun a => accumAddr d a.1 a.2.1).eraseDups.map fun a => (a, 16))
      checkedSpans { need := .rmw, write := true } 2 0 (.hgscat f) ps w.lanes
        (fun sp s => pushEngine (.hgscat f) w.lanes src [d] sp { s with w := s.w.markStored w.active }) s)

/-- One lane of HGSCAT performed: its additions made, or logged when a page it touches is unversioned (R313). -/
def performScat (o : Op) (l : Nat) (s : State) : Done × State :=
  let d := o.aux.headD 0
  let sp := SMap.get [] o.spans l
  if o.version != 0 && sp.any (fun p => !p.leaf.ver) then
    ({}, logEntry { ctx := s.ctxId, tag := o.version, i := o.i, va := gridGbase d, data := d :: o.args l
                    core := s.w.core, wave := s.w.slot, part := s.w.part
                    recs := 2 + (gridWords d + 15) / 16, late := false, wid := s.w.id, num := o.num } s)
  else if o.version != 0 && !live s s.ctxId o.version then ({}, s)
  else
    let x : Access := { core := s.w.core, ctx := s.ctxId, tag := o.version
                        page := fun va => (sp.find? (·.va == va)).map Span.leaf }
    let (es, s) := makeAdds x d (laneAdds d (o.args l)) s
    ({ errs := es }, s)

/-! ## HGSETTLE (R314, R315) -/

/-- R314: the value a settlement writes. -/
def settleValue (d : Nat) (add : Bool) (old raw : Nat) (scale : Int) : Nat :=
  let v := accumValue raw
  let k := gridFmt d
  let x : Ex := { neg := decide (v < 0), m := v.natAbs, e := scale }
  if add then (k.finish { mode := 1 } [old] (fAdd 1 (k.read old) (.fin x.neg x.m x.e))).1
  else (k.deliver 1 false false x).1

/-- R314: one feature of one entry settled, or the error it meets. -/
def settleOne (x : Access) (d : Nat) (add : Bool) (flat f : Nat) (s : State) : Option (Cause × Nat) × State :=
  let va := accumAddr d flat f
  let ta := entryAddr d flat + 2 * f
  match readScale x d s with
  | (.error c, s) => (some (c, gridGbase d), s)
  | (.ok scale, s) => match homeRead x va 16 s with
    | (.error c, s) => (some (c, va), s)
    | (.ok raw, s) => match homeRead x ta 2 s with
      | (.error c, s) => (some (c, ta), s)
      | (.ok old, s) => (none, homePut x ta 2 (settleValue d add old raw scale) (homePut x va 16 0 s))

/-- The settlements of a range, in order. -/
def settleAll (x : Access) (d : Nat) (add : Bool) : List (Nat × Nat) → State → List (Cause × Nat) × State
  | [], s => ([], s)
  | a :: as, s =>
    let (e, s) := settleOne x d add a.1 a.2 s
    let (r, s) := settleAll x d add as s
    (e.toList ++ r, s)

/-- R314: the pages of a settlement and what it needs of each. -/
def settlePages (d : Nat) (add : Bool) (e0 n : Nat) : List (Nat × Ask) :=
  let table := pagesIn (entryAddr d e0) (n * 2 * gridF d)
  let accs := pagesIn (accumAddr d e0 0) (n * gridF d * 16)
  let need := if add then Need.rmw else Need.store
  (table.map fun a => (a, { need := need, write := true, spec := true }))
    ++ (accs.map fun a => (a, { need := .rmw, write := true, spec := true }))
    ++ [(gridGbase d, { need := .load, spec := true })]
where
  /-- The first address in each page of a range. -/
  pagesIn (a len : Nat) : List Nat :=
    (List.range ((a + len - 1) / 65536 - a / 65536 + 1)).map fun k => max a ((a / 65536 + k) * 65536) % 2 ^ 64

/-- R314: the issuing core's L1 drops its lines of a range of addresses. -/
def dropRange (x : Access) (va len : Nat) (s : State) : State :=
  let nums := (List.range ((va + len - 1) / 128 - va / 128 + 1)).filterMap fun k =>
    let a := (va / 128 + k) * 128
    (x.page (max va a % 2 ^ 64)).map fun leaf => leaf.addr a / 128
  { s with l1 := s.l1.filter fun l => !(l.core == x.core && nums.contains l.num) }

/-- HGSETTLE (R314). Its scalar pair is checked after its descriptor (R45, R295). -/
def execHgsettle (f : V3) (s : State) : Out :=
  let w := s.w
  let d := descOf w f.b 16
  let e0 := (w.sreg f.a).toNat
  let n := (w.sreg (f.a + 1)).toNat
  .next (if gridBad d true then raiseCheck .rsvdField s
    else if 64 ≤ f.a then raiseCheck .regRange s
    else if w.idle then s
    else if n == 0 || 65536 < n || (gridNlev d + 1) * 2 ^ gridK d < e0 + n then raise .rsvdField w.active 0 0 s
    else
      let bad := ((settlePages d (f.t == 1) e0 n).map fun p => (p.1, checkGlobal s p.2 2 p.1)).filter fun x =>
        match x.2 with
        | .ok _ => false
        | _ => true
      let first := (List.range 5).foldl (fun (r : Option (Nat × Check)) k => match r with
        | some _ => r
        | none => bad.find? fun x => checkRank x.1 x.2 == k) none
      match first with
      | some (va, .trap c) => raise c (laneBit w.leader) 0 (BitVec.ofNat 64 va) s
      | some (va, .replay level) => holdFault (some (.hgsettle f)) va 2 level s
      | _ =>
        if !releaseReady s w.ops {} then holdAgain (.hgsettle f) s
        else
          let x : Access := { core := w.core, ctx := s.ctxId, tag := w.version
                              page := fun va => match xlate s w.core s.ctxId va .load with
                                | .ok l => some l
                                | _ => match xlate s w.core s.ctxId va .store with
                                  | .ok l => some l
                                  | _ => none }
          let es := (List.range n).flatMap fun k => (List.range (gridF d)).map fun g => (e0 + k, g)
          let (errs, s) := settleAll x d (f.t == 1) es { s with w := s.w.markStored (laneBit w.leader) }
          let s := dropRange x (entryAddr d e0) (n * 2 * gridF d) (dropRange x (accumAddr d e0 0) (n * gridF d * 16) s)
          let o : Op := { ctr := 0, i := .hgsettle f, pc := s.w.wordPc, word := s.w.word, lanes := 0, src := []
                          version := w.version }
          { s with w := { s.w with late := s.w.late ++ lateOf o (errs.map fun e => (w.leader, e)) } })

end Sys2Proof.Machine
end

