-- ==== Sys2Proof/Machine/IntArith.lean ====
section
/-!
DEFINITION. Meanings of the integer instructions, opcodes 0x20 to 0x3A, and of PACK and PRMT (R71, R121-R127, R131).
-/

namespace Sys2Proof.Machine

/-- R123: IDIV and IREM: every ACTIVE lane is written; without .Q a zero divisor then traps. -/
def divide (f : V3) (op : Nat → Word → Word → Word) (s : State) : State :=
  let zero := laneSet fun l => s.w.active.getLsbD l && s.w.srcB f l == 0
  let s1 := writeV f.d (fun l => op f.t (s.w.srcA f l) (s.w.srcB f l)) s
  if f.x.sat || zero == 0 then s1 else raise .intDivzero zero (dstOf 1 f.d) 0 s1

/-- IADD (R122): a + b. -/
def execIadd (f : V3) (s : State) : Out := .next (intV3 f (fun a b _ => iaddOp f.t f.x.sat a b) s)

/-- ISUB (R122): a − b. -/
def execIsub (f : V3) (s : State) : Out := .next (intV3 f (fun a b _ => isubOp f.t f.x.sat a b) s)

/-- IMUL (R122): a × b. -/
def execImul (f : V3) (s : State) : Out := .next (intV3 f (fun a b _ => imulOp f.t f.x.sat a b) s)

/-- IMULH (R122): the high word of a × b. -/
def execImulh (f : V3) (s : State) : Out := .next (intV3 f (fun a b _ => imulhOp f.t a b) s)

/-- IMAD (R122): a × b + c. -/
def execImad (f : V3) (s : State) : Out := .next (intV3 f (fun a b c => imadOp f.t f.x.sat a b c) s)

/-- IMIN (R122): the lesser. -/
def execImin (f : V3) (s : State) : Out := .next (intV3 f (fun a b _ => iminOp f.t a b) s)

/-- IMAX (R122): the greater. -/
def execImax (f : V3) (s : State) : Out := .next (intV3 f (fun a b _ => imaxOp f.t a b) s)

/-- IDIV (R123). -/
def execIdiv (f : V3) (s : State) : Out := .next (divide f idivOp s)

/-- IREM (R123). -/
def execIrem (f : V3) (s : State) : Out := .next (divide f iremOp s)

/-- AND (R122): a AND b, or a AND NOT b. -/
def execIand (f : V3) (s : State) : Out := .next (intV3 f (fun a b _ => andOp f.t a b) s)

/-- OR (R122): a OR b, or a OR NOT b. -/
def execIor (f : V3) (s : State) : Out := .next (intV3 f (fun a b _ => orOp f.t a b) s)

/-- XOR (R122): a XOR b, or a XOR NOT b. -/
def execIxor (f : V3) (s : State) : Out := .next (intV3 f (fun a b _ => xorOp f.t a b) s)

/-- SHL (R122): a << b. -/
def execShl (f : V3) (s : State) : Out := .next (intV3 f (fun a b _ => shlOp a b) s)

/-- SHR (R122): a >> b. -/
def execShr (f : V3) (s : State) : Out := .next (intV3 f (fun a b _ => shrOp f.t a b) s)

/-- ROT (R122): a rotated. -/
def execRot (f : V3) (s : State) : Out := .next (intV3 f (fun a b _ => rotOp f.t a b) s)

/-- BFE (R124): a field of a. -/
def execBfe (f : V3) (s : State) : Out := .next (intV3 f (fun a b _ => bfeOp f.t a b) s)

/-- BFI (R124): a field of the old destination replaced. -/
def execBfi (f : V3) (s : State) : Out :=
  .next (writeV f.d (fun l => bfiOp (s.w.srcA f l) (s.w.srcB f l) (s.w.vreg l f.d)) s)

/-- POPC (R122): the number of 1 bits of a. -/
def execPopc (f : V3) (s : State) : Out := .next (intV3 f (fun a _ _ => popcOp a) s)

/-- CLZ (R122): the leading zero bits of a. -/
def execClz (f : V3) (s : State) : Out := .next (intV3 f (fun a _ _ => clzOp a) s)

/-- BREV (R122): a with its bits in reverse order. -/
def execBrev (f : V3) (s : State) : Out := .next (intV3 f (fun a _ _ => brevOp a) s)

/-- ICMP (R125): a condition on two 32-bit or 64-bit values into a predicate. -/
def execIcmp (f : V3) (s : State) : Out :=
  .next (writeP (f.d % 8) (fun l =>
    if f.t == 1 then icond (f.d / 8) (s.w.pairA f l) (s.w.pairB f l)
    else icond (f.d / 8) (s.w.srcA f l) (s.w.srcB f l)) s)

/-- IADD64 (R126): a 64-bit sum or difference. -/
def execIadd64 (f : V3) (s : State) : Out :=
  .next (writeVPair f.d (fun l => iadd64Op f.t (s.w.pairA f l) (s.w.pairB f l)) s)

/-- IMADW (R126): the exact product added to the old pair. -/
def execImadw (f : V3) (s : State) : Out :=
  .next (writeVPair f.d (fun l => imadwOp f.t (s.w.srcA f l) (s.w.srcB f l) (s.w.vpair l f.d)) s)

/-- IHASH (R71). -/
def execIhash (f : V3) (s : State) : Out := .next (intV3 f (fun a b _ => ihashOp a b) s)

/-- LEA (R126): a scaled index added to a 64-bit base. -/
def execLea (f : V3) (s : State) : Out :=
  .next (writeVPair f.d (fun l => leaOp f.t (s.w.pairA f l) (s.w.srcB f l)) s)

/-- SEL (R127): b where the selecting predicate is true, else a. -/
def execSel (f : V3) (s : State) : Out :=
  let c := f.x.c
  .next (writeV f.d (fun l =>
    if xor (s.w.pred (c % 8) l) (c / 8 % 2 == 1) then s.w.srcB f l else s.w.srcA f l) s)

/-- MOV (R122): a word or a pair copied. -/
def execMov (f : V3) (s : State) : Out :=
  .next (if f.t == 1 then writeVPair f.d (fun l => s.w.pairA f l) s else writeV f.d (fun l => s.w.srcA f l) s)

/-- PACK (R131): two halves put together. -/
def execPack (f : V3) (s : State) : Out := .next (intV3 f (fun a b _ => packOp f.t a b) s)

/-- PRMT (R131): bytes of a and b permuted. -/
def execPrmt (f : V3) (s : State) : Out := .next (intV3 f (fun a b c => prmtOp a b c) s)

end Sys2Proof.Machine
end

