-- ==== Sys2Proof/Machine/Agent.lean ====
section
/-!
DEFINITION. The command processors: their accesses to memory (R378, R380, R390, R443), queue faults (R379, R389), the
ready lists (R395), the armed store (R394), counter steps (R393) and the weighted turns of R385 and R396.
-/

namespace Sys2Proof.Machine

/-! ## Accesses -/

/-- The unit by which the command processor of a stack translates. -/
def cpUnit (stack : Nat) : Nat := 644 + stack

/-- An access of at most 128 bytes cut at a sector boundary, as (address, length). -/
def cpPieces (va n : Nat) : List (Nat × Nat) :=
  if va / 128 == (va + n - 1) / 128 then [(va, n)]
  else [(va, 128 - va % 128), ((va / 128 + 1) * 128, n - (128 - va % 128))]

/-- The error of one piece; an address beyond R20 counts as a malformed walk (log entry 40). -/
def pieceBad (s : State) (stack ctx tag : Nat) (need : Need) (va : Nat) : Option Bad :=
  if 2 ^ 52 ≤ va then some { code := 0x21, va := va, rec_ := some (3, 2) }
  else match accessBad s (cpUnit stack) ctx tag { need := need } va with
    | some b => some b
    | none => (leafOf s (cpUnit stack) ctx va need).bind fun l => readBad s ctx tag l.ver va (l.addr va)

/-- The first error of an access. -/
def cpBad (s : State) (stack ctx tag : Nat) (need : Need) (va n : Nat) : Option Bad :=
  firstSome (fun p => pieceBad s stack ctx tag need p.1) (cpPieces va n)

/-- The pieces of an access that passed its checks, read in order. -/
def readCp (stack ctx tag : Nat) (need : Need) : List (Nat × Nat) → State → List Nat × State
  | [], s => ([], s)
  | (va, n) :: ps, s => match leafOf s (cpUnit stack) ctx va need with
    | none => ([], s)
    | some leaf =>
      let pa := leaf.addr va
      let s := recallLine pa (fillTlb (cpUnit stack) ctx va leaf s)
      let bs := viewBytes s ctx tag leaf.ver pa n
      let (rest, s) := readCp stack ctx tag need ps (if leaf.cached then touchLine s (pa / 1024) 0 else s)
      (bs ++ rest, s)

/-- The pieces of an access that passed its checks, written in order as committed data. -/
def writeCp (stack ctx : Nat) (need : Need) : List (Nat × Nat) → List Nat → State → State
  | [], _, s => s
  | (va, n) :: ps, bs, s => match leafOf s (cpUnit stack) ctx va need with
    | none => s
    | some leaf =>
      let pa := leaf.addr va
      let s := recallLine pa (fillTlb (cpUnit stack) ctx va leaf s)
      writeCp stack ctx need ps (bs.drop n) (homeWrite leaf.cached pa n (ofBytes (bs.take n)) s)

/-- R390, R443: bytes read at their homes by a command processor. -/
def cpRead (stack ctx tag va n : Nat) (s : State) : Except Bad (List Nat × State) :=
  match cpBad s stack ctx tag .load va n with
  | some b => .error b
  | none => .ok (readCp stack ctx tag .load (cpPieces va n) s)

/-- R390, R443: bytes written at their homes at tag 0 by a command processor. -/
def cpWrite (stack ctx va : Nat) (bs : List Nat) (s : State) : Except Bad State :=
  match cpBad s stack ctx 0 .store va bs.length with
  | some b => .error b
  | none => .ok (writeCp stack ctx .store (cpPieces va bs.length) bs s)

/-- The uncorrectable error that an access found poisons its sector (R185). -/
def noteBad (b : Bad) (s : State) : State := match b.ecc with
  | some pa => findEcc s pa
  | none => s

/-- A record of REPLAY 0 for an access of a command processor (R380, R389, R443). -/
def recordCp (stack ctx kind : Nat) (b : Bad) (s : State) : State := match b.rec_ with
  | none => s
  | some (level, reason) =>
    postFault stack { addr := b.va, ctx := ctx, kind := kind, level := level, reason := reason } s

/-! ## Queues -/

/-- A change of a queue of a context. -/
def updQueue (ctx num : Nat) (f : Queue → Queue) (s : State) : State :=
  if s.q.on && s.q.ctx == ctx && s.q.num == num then { s with q := f s.q }
  else { s with queues := updFirst (fun q => q.ctx == ctx && q.num == num) f s.queues }

/-- Every queue. -/
def allQueues (s : State) : List Queue := (if s.q.on then [s.q] else []) ++ s.queues

/-- A queue of a context. -/
def State.queue (s : State) (ctx num : Nat) : Option Queue :=
  (allQueues s).find? fun q => q.ctx == ctx && q.num == num

/-- R440: a QUEUE event. -/
def queueEvent (ctx num code : Nat) (s : State) : State := postEvent 4 ctx 0 0 0 (code + num * 2 ^ 16) 0 s

/-- R389: the code of an error of an access. -/
def queueCode (b : Bad) : Nat := if b.code == 0x21 then 4 else if b.code == 0x22 then 5 else 6

/-! ## Weighted turns (R385, R396) -/

/-- The key of a queue in the order of a round. -/
def Queue.key (q : Queue) : Nat := 64 * q.ctx + q.num
/-- The key of the queue a packet came from. -/
def Packet.key (p : Packet) : Nat := 64 * p.ctx + p.q

/-- The least of a list of numbers that satisfies a test. -/
def leastOf (p : Nat → Bool) : List Nat → Option Nat
  | [] => none
  | k :: ks => match leastOf p ks with
    | none => if p k then some k else none
    | some j => if p k && k < j then some k else some j

/-- The queue to serve among candidates (key, WEIGHT): the last one served (key plus one) until it has had its WEIGHT in
this round, then the next in order. -/
def turnOf (last count : Nat) (cands : List (Nat × Nat)) : Option Nat :=
  if cands.any (fun c => c.1 + 1 == last && count < c.2) then some (last - 1)
  else match leastOf (fun k => last < k + 1) (cands.map Prod.fst) with
    | some k => some k
    | none => leastOf (fun _ => true) (cands.map Prod.fst)

/-- A queue of a WEIGHT served: its count in the round rises; or its turn begins, in a new round when no other queue has
been served since. -/
def noteTurn (slot key weight : Nat) (s : State) : State :=
  let same := SMap.get 0 s.rr slot == key + 1 && SMap.get 0 s.rr (slot + 32) < weight
  let count := if same then SMap.get 0 s.rr (slot + 32) + 1 else 1
  { s with rr := SMap.set 0 (SMap.set 0 s.rr slot (key + 1)) (slot + 32) count }

/-- R385: a queue gives up the rest of its turn. -/
def endTurn (slot key : Nat) (s : State) : State :=
  if SMap.get 0 s.rr slot == key + 1 then { s with rr := SMap.set 0 s.rr (slot + 32) 256 } else s

/-- Where the turns of the runs of a stack and class are kept. -/
def runSlot (stack cls : Nat) : Nat := 2048 + 4 * stack + cls
/-- Where the turns of the placements of a stack and class are kept. -/
def placeSlot (stack cls : Nat) : Nat := 2112 + 4 * stack + cls

/-! ## Queue faults (R379, R389) -/

/-- R379, R389: the focused queue faults. -/
def faultQueue (code : Nat) (s : State) : State :=
  let s := endTurn (runSlot s.q.home s.q.cls) s.q.key s
  queueEvent s.q.ctx s.q.num code { s with q := { s.q with state := .faulted, run := none } }

/-- R389: a window access of the run fails. -/
def faultWindow (kind : Nat) (b : Bad) (s : State) : State :=
  let s := noteBad b s
  faultQueue (queueCode b) (if b.code == 0x21 then recordCp s.q.home s.q.ctx kind b s else s)

/-- R443: an access of the command processor fails. -/
def faultOwn (kind : Nat) (b : Bad) (s : State) : State :=
  let s := noteBad b s
  faultQueue (queueCode b) (recordCp s.q.home s.q.ctx kind b s)

/-! ## Ready lists and the armed store (R394, R395) -/

/-- The entries of a ready list. -/
def readyList (s : State) (stack cls : Nat) : List Packet :=
  s.ready.filter fun p => p.stack == stack && p.cls == cls

/-- Whether a ready list has room. -/
def readyRoom (s : State) (stack cls : Nat) : Bool := (readyList s stack cls).length < 1024

/-- An armed packet pushed onto its ready list, or marked due while the list is full (R395). -/
def pushArmed (a : ArmedSlot) (s : State) : State :=
  let mine := fun (x : ArmedSlot) => x.stack == a.stack && x.slot == a.slot
  if readyRoom s a.packet.stack a.packet.cls then
    { s with armed := s.armed.filter (fun x => !mine x), ready := s.ready ++ [a.packet] }
  else { s with armed := updFirst mine (fun x => { x with due := true }) s.armed }

/-- The first entry of a list that satisfies a test removed. -/
def dropFirst {α : Type} (p : α → Bool) : List α → List α
  | [] => []
  | a :: as => if p a then as else a :: dropFirst p as

/-- R395: armed packets that wait for room in a ready list enter it, as many as it takes. -/
def pushDue (stack cls : Nat) : Nat → State → State
  | 0, s => s
  | n + 1, s => match s.armed.find? (fun a => a.due && a.packet.stack == stack && a.packet.cls == cls) with
    | some a => if readyRoom s stack cls then pushDue stack cls n (pushArmed a s) else s
    | none => s

/-- R395: an entry leaves its ready list; a packet that waits for room enters. -/
def leaveReady (p : Packet) (s : State) : State :=
  pushDue p.stack p.cls 1 { s with ready := dropFirst (· == p) s.ready }

/-- R394: the lowest free slot of a stack's armed store. -/
def freeArmed (s : State) (stack : Nat) : Option Nat :=
  (List.range 4096).find? fun k => !s.armed.any fun a => a.stack == stack && a.slot == k

/-! ## Counter steps (R392, R393) -/

/-- R393: the slot that an armed HANDLE names, when it is held at the handle's GEN. A HANDLE with a reserved bit set
names no slot, so that a step refuses it as stale (R7, DEDUCED, log entry 63). -/
def heldSlot (s : State) (handle : Nat) : Option ArmedSlot :=
  let stack := bits handle 12 2
  let slot := bits handle 0 12
  if flag handle 31 && bits handle 14 2 == 0 && SMap.get 0 s.gens (4096 * stack + slot) == bits handle 16 15 then
    s.armed.find? fun a => a.stack == stack && a.slot == slot && !a.due
  else none

/-- R393: an armed HANDLE whose slot is not held at its GEN. -/
def staleHandle (s : State) (handle : Nat) : Bool := flag handle 31 && (heldSlot s handle).isNone

/-- R394: a slot allocated for a packet, and the HANDLE that names it. -/
def armSlot (stack slot : Nat) (p : Packet) (s : State) : Nat × State :=
  let k := 4096 * stack + slot
  let gen := (SMap.get 0 s.gens k + 1) % 2 ^ 15
  (slot + stack * 2 ^ 12 + gen * 2 ^ 16 + 2 ^ 31,
    { s with gens := SMap.set 0 s.gens k gen, armed := s.armed ++ [{ stack := stack, slot := slot, packet := p }] })

/-- R393: the step on a pair that has been read: COUNT, and the push when it is 0 and armed. The pair is written back. -/
def stepPair (stack ctx va count handle : Nat) (s : State) : State :=
  let push := if count == 0 then heldSlot s handle else none
  let handle := if push.isSome then 0 else handle
  let s := writeCp stack ctx .rmw (cpPieces va 8) (toBytes 4 count ++ toBytes 4 handle) s
  match push with
  | some a => pushArmed a s
  | none => s

/-- R393: a counter step that adds to COUNT and does not arm, made for a queue; an error changes nothing. -/
def counterStep (stack ctx num va delta : Nat) (s : State) : Except Bad State :=
  match cpBad s stack ctx 0 .rmw va 8 with
  | some b => .error b
  | none =>
    let (bs, s) := readCp stack ctx 0 .rmw (cpPieces va 8) s
    let handle := field bs 4 4
    let count := (field bs 0 4 + delta) % 2 ^ 32
    if staleHandle s handle then .ok (queueEvent ctx num 7 (stepPair stack ctx va count 0 s))
    else .ok (stepPair stack ctx va count handle s)

end Sys2Proof.Machine
end

