-- ==== Sys2Proof/Machine/QueueProg.lean ====
section
/-!
DEFINITION. Queue programs (R378, R379, R385-R390, R443): noticing packets, starting a run, and the meaning of every
word of a program on the run of the focused queue.
-/

namespace Sys2Proof.Machine

/-! ## Noticing packets and starting a run (R378, R385, R443) -/

/-- R379: the state of a queue that is not running, by its indices. -/
def restState (q : Queue) : QState := if q.widx == q.ridx then .idle else .ready

/-- R378: the packets pending in the ring of a queue. -/
def pendingCount (q : Queue) : Nat := (q.widx + 2 ^ 32 - q.ridx) % 2 ^ 32

/-- R379, R385: the focused queue, not running, rests in a state; one that is not ready gives up its turn. -/
def restIn (state : QState) (s : State) : State :=
  let q := s.q
  let s := { s with q := { q with run := none, state := state } }
  if state == .ready then s else endTurn (runSlot q.home q.cls) q.key s

/-- R378, R443: the focused queue, when it has been notified and is neither suspended nor faulted, reads WIDX and compares
it with its index. A run in progress goes on unless the queue faults. -/
def lookQueue (s : State) : State :=
  let q := s.q
  if !q.notified || q.state == .suspended || q.state == .faulted then s
  else
    let s := { s with q := { q with notified := false } }
    match cpRead q.home q.ctx 0 (q.desc + 12) 4 s with
    | .error b => faultOwn 0 b s
    | .ok (bs, s) =>
      let pa := ((leafOf s (cpUnit q.home) q.ctx (q.desc + 12) .load).map fun l => l.addr (q.desc + 12) + 1).getD 0
      let q := { s.q with widx := ofBytes bs, widxPa := pa }
      if 2 ^ q.ringLog2 < pendingCount q then faultQueue 2 { s with q := q }
      else if q.run.isSome then { s with q := q }
      else restIn (restState q) { s with q := q }

/-- R385: whether the focused queue is the next to run on its stack: no run is in progress there, no queue of a higher
class is ready, and it is its turn in its class. -/
def mayRun (s : State) : Bool :=
  let q := s.q
  let home := (allQueues s).filter (·.home == q.home)
  let ready := home.filter fun x => x.state == .ready
  let slot := runSlot q.home q.cls
  q.state == .ready && !home.any (·.run.isSome) && !ready.any (fun x => x.cls < q.cls) &&
    turnOf (SMap.get 0 s.rr slot) (SMap.get 0 s.rr (slot + 32))
      ((ready.filter (·.cls == q.cls)).map fun x => (x.key, x.weight)) == some q.key

/-- R378, R385, R443: the packet at the held index is read and the run begins. -/
def startRun (s : State) : State :=
  let q := s.q
  let s := noteTurn (runSlot q.home q.cls) q.key q.weight s
  match cpRead q.home q.ctx 0 ((q.ring + 64 * (q.ridx % 2 ^ q.ringLog2)) % 2 ^ 64) 64 s with
  | .error b => faultOwn 0 b s
  | .ok (bs, s) => { s with q := { s.q with buf := bs, run := some { pc := 0, used := 0, loop := none } } }

/-- RUN (R378, R385): the home command processor of a queue looks at it when it has been notified, and starts a run when
it is the queue's turn. -/
def execEvRun (ctx q : Nat) (s : State) : Out :=
  let s := focusQueue ctx q s
  .next (if !(s.q.on && s.q.ctx == ctx && s.q.num == q) then s
    else
      let s := lookQueue s
      if mayRun s then startRun s else s)

/-- QUEUE_TIMER (R378): the timer notifies a queue. -/
def execEvQueueTimer (ctx q : Nat) (s : State) : Out := .next (updQueue ctx q (fun x => { x with notified := true }) s)

/-- BUDGET (R389): the run of the focused queue, about to begin its 257th instruction, faults its queue. -/
def execEvBudget (s : State) : Out :=
  .next (match s.q.run with
    | some r => if s.q.on && 256 ≤ r.used then faultQueue 1 s else s
    | none => s)

/-! ## Steps of a run -/

/-- R385, R389: an instruction of the run of the focused queue; it counts 1. -/
def onRun (f : Run → State → State) (s : State) : State := match s.q.run with
  | some r => if s.q.on && r.used < 256 then f { r with used := r.used + 1 } s else s
  | none => s

/-- The run goes on at a word. -/
def goTo (r : Run) (pc : Nat) (s : State) : State := { s with q := { s.q with run := some { r with pc := pc } } }

/-- The run goes on at the word after an instruction of n words. -/
def goOn (r : Run) (n : Nat) (s : State) : State := goTo r (r.pc + n) s

/-- A register of the queue (R377, R385). -/
def Queue.reg (q : Queue) (k : Nat) : DWord := SMap.get 0 q.c k

/-- A register of the focused queue written. -/
def setC (k : Nat) (v : DWord) (s : State) : State := { s with q := { s.q with c := SMap.set 0 s.q.c k v } }

/-- R387: the shape of an instruction of n words that writes a register. -/
def putC (n d : Nat) (f : Queue → DWord) (s : State) : Out := .next (onRun (fun r s => goOn r n (setC d (f s.q) s)) s)

/-- R387: the shape of a three-operand operation. -/
def aluC (d a b : Nat) (f : DWord → DWord → DWord) (s : State) : Out :=
  putC 1 d (fun q => f (q.reg a) (q.reg b)) s

/-- The bytes of a width. -/
def qBytes (w : Nat) : Nat := if w == 1 then 8 else 4

/-- R386: the address of a window access. -/
def windowAddr (q : Queue) (n a off size : Nat) : Nat :=
  let win := q.windows.getD n { base := 0, len2 := 0, wr := false }
  let x := (q.reg a + (BitVec.ofNat 9 off).signExtend 64).toNat
  (win.base + x % 2 ^ win.len2 / size * size) % 2 ^ 64

/-! ## Packet buffer and arithmetic -/

/-- PLD (R386, R387). -/
def execQpld (d off w : Nat) (s : State) : Out :=
  putC 1 d (fun q => BitVec.ofNat 64 (field q.buf off (qBytes w))) s

/-- Bytes of the packet buffer replaced. -/
def putBuf (buf : List Nat) (off : Nat) (bs : List Nat) : List Nat :=
  buf.take off ++ bs ++ buf.drop (off + bs.length)

/-- PST (R386, R387). -/
def execQpst (b off w : Nat) (s : State) : Out :=
  .next (onRun (fun r s =>
    let buf := putBuf s.q.buf off (toBytes (qBytes w) (s.q.reg b).toNat)
    goOn r 1 { s with q := { s.q with buf := buf } }) s)

/-- ADD (R387). -/
def execQadd (d a b : Nat) (s : State) : Out := aluC d a b (· + ·) s
/-- SUB (R387). -/
def execQsub (d a b : Nat) (s : State) : Out := aluC d a b (· - ·) s
/-- AND (R387). -/
def execQand (d a b : Nat) (s : State) : Out := aluC d a b (· &&& ·) s
/-- OR (R387). -/
def execQor (d a b : Nat) (s : State) : Out := aluC d a b (· ||| ·) s
/-- XOR (R387). -/
def execQxor (d a b : Nat) (s : State) : Out := aluC d a b (· ^^^ ·) s
/-- SHL (R387). -/
def execQshl (d a b : Nat) (s : State) : Out := aluC d a b (fun x y => x <<< (y.toNat % 64)) s
/-- SHR (R387). -/
def execQshr (d a b : Nat) (s : State) : Out := aluC d a b (fun x y => x >>> (y.toNat % 64)) s
/-- ADDI (R387). -/
def execQaddi (d a imm : Nat) (s : State) : Out :=
  putC 1 d (fun q => q.reg a + (BitVec.ofNat 12 imm).signExtend 64) s
/-- LI (R387). -/
def execQli (d imm32 : Nat) (s : State) : Out := putC 2 d (fun _ => (BitVec.ofNat 32 imm32).signExtend 64) s
/-- LIH (R387). -/
def execQlih (d imm32 : Nat) (s : State) : Out :=
  putC 2 d (fun q => BitVec.ofNat 32 imm32 ++ (q.reg d).setWidth 32) s

/-- R387: the comparisons. -/
def compareC (c : Nat) (x y : DWord) : Bool := match c with
  | 0 => x == y
  | 1 => x != y
  | 2 => x.toNat < y.toNat
  | 3 => y.toNat ≤ x.toNat
  | 4 => x.toInt < y.toInt
  | _ => y.toInt ≤ x.toInt

/-- CMP (R387). -/
def execQcmp (d a b c : Nat) (s : State) : Out := aluC d a b (fun x y => if compareC c x y then 1 else 0) s

/-! ## Control -/

/-- R387: a branch forward; one that leaves a loop body ends the loop. -/
def branchTo (r : Run) (imm : Nat) (s : State) : State :=
  let pc := r.pc + imm
  let out : Bool := match r.loop with
    | some (_, e, _) => decide (e < pc)
    | none => false
  goTo { r with loop := if out then none else r.loop } pc s

/-- BZ (R387). -/
def execQbz (a imm : Nat) (s : State) : Out :=
  .next (onRun (fun r s => if s.q.reg a == 0 then branchTo r imm s else goOn r 1 s) s)
/-- BNZ (R387). -/
def execQbnz (a imm : Nat) (s : State) : Out :=
  .next (onRun (fun r s => if s.q.reg a != 0 then branchTo r imm s else goOn r 1 s) s)
/-- JMP (R387). -/
def execQjmp (imm : Nat) (s : State) : Out := .next (onRun (fun r s => branchTo r imm s) s)

/-- The index of the first ENDL at or after a word; immediate words are passed over. -/
def endlFrom : Nat → List Nat → Nat
  | i, [] => i
  | i, w :: ws =>
    if w % 256 == 0x1C then i
    else if queueSize w == 2 then
      match ws with
      | [] => i + 1
      | _ :: ws => endlFrom (i + 2) ws
    else endlFrom (i + 1) ws

/-- LOOP (R387). -/
def execQloop (a imm : Nat) (s : State) : Out :=
  .next (onRun (fun r s =>
    let k := min (s.q.reg a).toNat imm
    let e := endlFrom (r.pc + 1) (s.q.prog.drop (r.pc + 1))
    if k == 0 then goTo r (e + 1) s else goOn { r with loop := some (r.pc + 1, e, k) } 1 s) s)

/-- ENDL (R387). -/
def execQendl (s : State) : Out :=
  .next (onRun (fun r s => match r.loop with
    | some (b, e, k) => if 1 < k then goTo { r with loop := some (b, e, k - 1) } b s else goOn { r with loop := none } 1 s
    | none => goOn r 1 s) s)

/-! ## Window memory (R386, R390) -/

/-- WLD (R387, R390). -/
def execQwld (d a off w n : Nat) (s : State) : Out :=
  .next (onRun (fun r s =>
    let q := s.q
    match cpRead q.home q.ctx 0 (windowAddr q n a off (qBytes w)) (qBytes w) s with
    | .error b => faultWindow 0 b s
    | .ok (bs, s) => goOn r 1 (setC d (BitVec.ofNat 64 (ofBytes bs)) s)) s)

/-- WST (R387, R390). -/
def execQwst (a b off w n : Nat) (s : State) : Out :=
  .next (onRun (fun r s =>
    let q := s.q
    match cpWrite q.home q.ctx (windowAddr q n a off (qBytes w)) (toBytes (qBytes w) (q.reg b).toNat) s with
    | .error b => faultWindow 1 b s
    | .ok s => goOn r 1 s) s)

/-- WADD (R387, R390): a 32-bit atomic add. -/
def execQwadd (d a b off n : Nat) (s : State) : Out :=
  .next (onRun (fun r s =>
    let q := s.q
    let va := windowAddr q n a off 4
    match cpBad s q.home q.ctx 0 .rmw va 4 with
    | some e => faultWindow 2 e s
    | none =>
      let (bs, s) := readCp q.home q.ctx 0 .rmw (cpPieces va 4) s
      let s := writeCp q.home q.ctx .rmw (cpPieces va 4) (toBytes 4 (ofBytes bs + (q.reg b).toNat)) s
      goOn r 1 (setC d (BitVec.ofNat 64 (ofBytes bs)) s)) s)

/-! ## Dispatching (R393, R395) -/

/-- R380: a copy of the packet buffer with its queue. -/
def Queue.packet (q : Queue) : Packet := { ctx := q.ctx, q := q.num, stack := q.home, cls := q.cls, bytes := q.buf }

/-- LAUNCH (R387, R395): the packet buffer is appended to the ready list; a full list holds the run. -/
def execQlaunch (s : State) : Out :=
  .next (onRun (fun r t =>
    if readyRoom t t.q.home t.q.cls then goOn r 1 { t with ready := t.ready ++ [t.q.packet] } else s) s)

/-- R393: DEPSET on a pair with a HANDLE that is not armed. -/
def armPair (r : Run) (va count slot : Nat) (stale : Bool) (s : State) : State :=
  let q := s.q
  let (handle, s) := armSlot q.home slot q.packet s
  let s := stepPair q.home q.ctx va count handle s
  goOn r 1 (if stale then queueEvent q.ctx q.num 7 s else s)

/-- DEPSET (R387, R392-R394): a counter step that arms; it holds the run while no armed slot is free. -/
def execQdepset (a b off n : Nat) (s : State) : Out :=
  .next (onRun (fun r t =>
    let q := t.q
    let va := windowAddr q n a off 8
    match cpBad t q.home q.ctx 0 .rmw va 8 with
    | some e => faultWindow 2 e t
    | none =>
      let (bs, t) := readCp q.home q.ctx 0 .rmw (cpPieces va 8) t
      let handle := field bs 4 4
      let count := (field bs 0 4 + (q.reg b).toNat) % 2 ^ 32
      if (heldSlot t handle).isSome then faultQueue 3 t
      else match freeArmed t q.home with
        | none => s
        | some slot => armPair r va count slot (staleHandle t handle) t) s)

/-- DEPDEC (R387, R392, R393): a counter step with −1. -/
def execQdepdec (a off n : Nat) (s : State) : Out :=
  .next (onRun (fun r s =>
    let q := s.q
    match counterStep q.home q.ctx q.num (windowAddr q n a off 8) (2 ^ 32 - 1) s with
    | .error e => faultWindow 2 e s
    | .ok s => goOn r 1 s) s)

/-- SIGNAL (R378, R387). -/
def execQsignal (a : Nat) (s : State) : Out :=
  .next (onRun (fun r s =>
    goOn r 1 (updQueue s.q.ctx ((s.q.reg a).toNat % 64) (fun q => { q with notified := true }) s)) s)

/-! ## The end of a run (R379, R385, R443) -/

/-- DONE (R387, R443): the held index advances, and its copy is written; a queue notified since it last read WIDX reads it
before it rests (R378). -/
def execQdone (s : State) : Out :=
  .next (onRun (fun _ s =>
    let s := { s with q := { s.q with ridx := (s.q.ridx + 1) % 2 ^ 32 } }
    let q := s.q
    match cpWrite q.home q.ctx (q.desc + 16) (toBytes 4 q.ridx) s with
    | .error b => faultOwn 1 b s
    | .ok s =>
      let s := lookQueue s
      if s.q.state == .faulted then s else restIn (restState s.q) s) s)

/-- RETRY (R379, R387). -/
def execQretry (s : State) : Out := .next (onRun (fun _ s => restIn .waiting s) s)

/-- FAULT (R387, R389). -/
def execQfault (imm : Nat) (s : State) : Out := .next (onRun (fun _ s => faultQueue (0x100 + imm) s) s)

end Sys2Proof.Machine
end

