-- ==== Sys2Proof/Machine/Launch.lean ====
section
/-!
DEFINITION. Kernel headers (R46, R47), where a cohort fits (R16, R17, R267, R397, R405), its placement (R73, R105,
R155, R401), pre-emption (R100-R102), watchdogs (R403), the order of the dispatcher's work (R396), and the completion
engine (R380, R398).
-/

namespace Sys2Proof.Machine

/-! ## Kernel headers (R46, R47) -/

/-- R46: an offset of the header as an address; `keep0` says that 0 means none. -/
def headerAddr (addr off : Nat) (keep0 : Bool) : DWord :=
  if keep0 && off == 0 then 0 else BitVec.ofNat 64 addr + (BitVec.ofNat 32 off).signExtend 64

/-- R46: the fields of a header read at an address. -/
def readKernel (addr : Nat) (h : List Nat) : Kernel :=
  let r := field h 8 1 % 16
  { addr := addr, entry := headerAddr addr (field h 4 4) false, regs := if r == 0 then 128 else 8 * r
    width := 8 * 2 ^ (field h 8 1 / 16 % 4), restartMode := flag (field h 8 1) 6, matrix := flag (field h 8 1) 7
    teamSize := field h 10 2 % 2 ^ 13, teams := field h 12 1 % 8, scratch := field h 16 4, column := field h 20 4
    restart := headerAddr addr (field h 24 4) true, traph := if field h 28 4 == 0 then none else some (headerAddr addr (field h 28 4) false)
    mstream := (headerAddr addr (field h 32 4) true).toNat, mlen := field h 36 4, params := field h 40 4
    fpmode0 := BitVec.ofNat 32 (field h 44 4), waitBudget0 := BitVec.ofNat 32 (field h 48 4) }

/-- R16, R17: the most waves of a team on one partition. -/
def Kernel.perPart (k : Kernel) (p : Nat) : Nat := (k.teamSize / k.width + 3 - p) / 4

/-- R17: whether a team fits on an empty core. -/
def Kernel.fitsEmpty (k : Kernel) : Bool :=
  let n := k.perPart 0
  n ≤ 32 && n * k.width ≤ 1024 && n * k.width * k.regs * 4 ≤ 2 ^ 18

/-- R47: the refusal code of a header, by the first condition that holds; 0 when none does. -/
def kernelRefusal (addr : Nat) (h : List Nat) (pool : Bool) : Nat :=
  let k := readKernel addr h
  let fp := field h 44 4
  if addr % 64 != 0 || field h 0 2 != 0x5A4B || field h 2 1 != 1 || field h 3 1 != 0
      || [4, 24, 28, 32].any (fun o => field h o 4 % 4 != 0)
      || field h 9 1 != 0 || field h 11 1 / 32 != 0 || field h 12 4 / 8 != 0 || (h.drop 52).any (· != 0)
      || k.teamSize == 0 || 4096 < k.teamSize || k.teamSize % k.width != 0 || k.teams == 0 || 4 < k.teams
      || k.scratch % 256 != 0 || 0x50000 < k.scratch || k.column % 0x10000 != 0 || 0x2000000 < k.column
      || k.params % 4 != 0 || 4096 < k.params then 1
  else if 8192 < k.teams * k.teamSize then 6
  else if k.restartMode && field h 24 4 == 0 then 2
  else if k.matrix != (field h 32 4 != 0) then 3
  else if bits fp 16 5 != 0 || bits fp 10 6 != 0 || bits fp 25 7 != 0 || fp % 8 == 0 || 5 < fp % 8 then 4
  else if pool && (k.teams != 1 || k.teamSize != k.width) then 7
  else if !k.fitsEmpty then 5
  else 0

/-! ## What is free (R16, R18, R146, R267, R439) -/

/-- R146: whether a wave holds its contexts. -/
def Wave.holds (w : Wave) : Bool := w.on && !w.husk && (!w.ended || w.ops.any fun o => o.ctr == 0 || o.ctr == 3)

/-- The waves that hold contexts of a core. -/
def coreWaves (s : State) (core : Nat) : List Wave := (allWaves s).filter fun w => w.holds && w.core == core

/-- The sum over the teams that hold space on a core. -/
def coreSum (s : State) (core : Nat) (f : Kernel → Nat) : Nat :=
  (s.cohorts.map fun c =>
    ((List.range c.cores.length).map fun r =>
      if c.cores[r]? == some core && teamOn s c r then ((s.launch c.launch).map fun l => f l.kernel).getD 0 else 0).foldl
      (· + ·) 0).foldl (· + ·) 0

/-- R17: the register-file bytes that a team takes on a partition. -/
def Kernel.regBytes (p : Nat) (k : Kernel) : Nat := k.perPart p * k.width * k.regs * 4

/-- R73: the register-file bytes that are reserved on a partition: those of every team that has not ended, and those of
the waves of other teams that still hold their contexts (R146, log entry 51). -/
def partRegs (s : State) (core p : Nat) : Nat :=
  let late := (coreWaves s core).filter fun w =>
    w.part == p && !(s.cohort w.cohort).any fun c => teamOn s c w.rank
  coreSum s core (Kernel.regBytes p) + (late.map fun w => w.width * w.nregs * 4).foldl (· + ·) 0

/-- R16: whether a partition of a core can hold the waves of a team. -/
def partFits (s : State) (core p : Nat) (k : Kernel) : Bool :=
  let ws := (coreWaves s core).filter (·.part == p)
  let n := k.perPart p
  ws.length + n ≤ 32 && (ws.map Wave.width).foldl (· + ·) 0 + n * k.width ≤ 1024
    && partRegs s core p + k.regBytes p ≤ 2 ^ 18

/-- R16: whether a core can hold a team. -/
def coreFits (s : State) (core : Nat) (k : Kernel) : Bool :=
  (List.range 4).all (fun p => partFits s core p k)
    && coreSum s core Kernel.scratch + k.scratch ≤ 0x50000 && coreSum s core Kernel.column + k.column ≤ 0x2000000

/-- R405: the core with the fewest resident waves among a list, the lower on a tie. -/
def fewest (n : Nat → Nat) : List Nat → Option Nat
  | [] => none
  | c :: cs => match fewest n cs with
    | none => some c
    | some d => if n c ≤ n d then some c else some d

/-- R405: the cores of the teams of a cohort on a cluster, in rank order. -/
def chooseCores (s : State) (cluster : Nat) (k : Kernel) : Nat → List Nat → Option (List Nat)
  | 0, chosen => some chosen
  | n + 1, chosen =>
    match fewest (fun c => (coreWaves s c).length)
        ((coresOf cluster).filter fun c => !chosen.contains c && coreFits s c k) with
    | none => none
    | some c => chooseCores s cluster k n (chosen ++ [c])

/-- R439: whether the dies that a cohort needs have power. -/
def diesAlive (s : State) (cluster : Nat) (k : Kernel) : Bool :=
  let dead := fun (d : Nat) => s.plat.deadDies.contains (7 * (cluster / 8) + d)
  !dead 0 && !dead (if cluster % 8 < 4 then 1 else 2) && (k.column == 0 || !dead 3)

/-- R267: whether a cluster's sequencer has a stream context free, when the kernel needs one. -/
def streamFree (s : State) (cluster : Nat) (k : Kernel) : Bool :=
  !k.matrix || ((s.cohorts.filter fun c => c.cluster == cluster && (s.stream c.id).isSome).length < 8)

/-- R16, R397, R417: the cores on which a cohort fits on a cluster. -/
def clusterFit (s : State) (cluster : Nat) (k : Kernel) : Option (List Nat) :=
  if (s.island cluster).state == 0 && diesAlive s cluster k && streamFree s cluster k then
    chooseCores s cluster k k.teams []
  else none

/-- The waves resident on a cluster. -/
def clusterWaves (s : State) (cluster : Nat) : Nat :=
  ((coresOf cluster).map fun c => (coreWaves s c).length).foldl (· + ·) 0

/-- R397: the cluster and cores of the next cohort of a kernel, on the stacks of a mask. -/
def placeFor (s : State) (onStacks : Nat) (k : Kernel) : Option (Nat × List Nat) :=
  let fits := (List.range 32).filter fun c => flag onStacks (c / 8) && (clusterFit s c k).isSome
  (fewest (clusterWaves s) fits).bind fun c => (clusterFit s c k).map fun cs => (c, cs)

/-! ## Placing a cohort (R73, R105, R155, R401) -/

/-- The lowest wave contexts of a partition that are free. -/
def freeContexts (s : State) (core p : Nat) : List Nat :=
  (List.range 32).filter fun k => !(coreWaves s core).any fun w => w.part == p && w.slot == k

/-- What a placement gives every wave of its cohort. -/
structure Start where
  cohort : Nat
  ctx : Nat
  kernel : Kernel
  params : DWord
  pc : DWord
  version : Nat
  formed : Option Formed
  relaunch : Bool

/-- R401: the payload of a formed wave's lanes, v0 to v5. -/
def formedRegs (recs : List (Nat × List Nat)) : SMap Word :=
  ((List.range recs.length).zip recs).foldl (fun m e =>
    (List.range 6).foldl (fun m r => SMap.set 0 m (128 * e.1 + r) (BitVec.ofNat 32 (e.2.2.getD r 0))) m) []

/-- R105, R401: the PC of a lane at placement. -/
def Start.lanePc (b : Start) (l : Nat) : DWord := match b.formed with
  | some f => if b.relaunch then b.pc else BitVec.ofNat 64 ((f.recs.getD l (0, [])).1)
  | none => b.pc

/-- R401: the lanes of a wave that start. -/
def Start.lanes (b : Start) : Nat := match b.formed with
  | some f => f.recs.length
  | none => b.kernel.width

/-- R73, R79: wave number w of a team as it is placed; its launch counts as its last issue. -/
def newWave (launched : Nat) (b : Start) (id core slot rank w : Nat) : Wave :=
  let k := b.kernel
  let s0 := SMap.set 0 (SMap.set 0 [] 0 (b.params.setWidth 32)) 1 ((b.params >>> 32).setWidth 32)
  { on := true, id := id, ctx := b.ctx, core := core, part := w % 4, slot := slot, cohort := b.cohort, rank := rank
    index := w, width := k.width, nregs := k.regs, s := s0
    v := (b.formed.map fun f => formedRegs f.recs).getD []
    pc := (List.range b.lanes).foldl (fun m l => SMap.set 0 m l (b.lanePc l)) []
    exited := widthMask k.width &&& ~~~widthMask b.lanes
    fpmode := k.fpmode0, waitBudget := k.waitBudget0, version := b.version, cver := b.version, last := launched }

/-- The waves of the team of a rank on its core, numbered from an identifier. -/
def newTeam (s : State) (b : Start) (id core rank : Nat) : List Wave :=
  (List.range (b.kernel.teamSize / b.kernel.width)).map fun w =>
    newWave (s.slots + 1) b (id + w) core ((freeContexts s core (w % 4)).getD (w / 4) 0) rank w

/-- R155: a barrier at placement. -/
def newBarrier (threads : Nat) : Barrier := { count := false, expected := threads, arrived := 0, gen := 0 }

/-- A cohort placed on the cores of a cluster: the group, label and RESTARTS it takes, and its formed wave. The first
word of its waves comes after what launched it (R94, R196): its cores acquire. -/
def placeCohort (l : Launch) (x : Waiting) (relaunch : Bool) (cluster : Nat) (cores : List Nat) (s : State) : State :=
  let k := l.kernel
  let id := s.nextId
  let n := cores.length
  let per := k.teamSize / k.width
  let b : Start := { cohort := id, ctx := l.ctx, kernel := k, params := l.params
                     pc := if relaunch then x.label else k.entry, version := x.version, formed := x.formed
                     relaunch := relaunch }
  let ws := ((List.range n).zip cores).flatMap fun e => newTeam s b (id + 1 + n + per * e.1) e.2 e.1
  let c : Cohort :=
    { id := id, ctx := l.ctx, launch := l.id, group := x.group, cluster := cluster, cores := cores
      tags := (List.range n).map (id + 1 + ·), label := x.label, restarts := x.restarts, version := x.version
      bars := List.replicate 8 (newBarrier (n * per * b.lanes)), formed := x.formed, order := id, waves := n * per }
  { s with
    nextId := id + 1 + n + n * per
    slots := s.slots + 1
    cohorts := s.cohorts ++ [c]
    waves := s.waves ++ ws
    l1 := s.l1.filter fun y => !cores.contains y.core
    streams := if k.matrix then s.streams ++ [{ on := true, cohort := id }] else s.streams }

/-- R93: the next group of a grid, at its first launch. -/
def Launch.nextCohort (l : Launch) : Waiting :=
  { group := l.nextGroup, label := l.kernel.restart, restarts := 0, version := l.version, formed := none }

/-! ## Pre-emption and watchdogs (R100-R105, R403) -/

/-- The class of a cohort. -/
def cohortClass (s : State) (c : Cohort) : Nat := ((s.launch c.launch).map fun l => l.packet.cls).getD 3
/-- Whether a cohort's kernel restarts when pre-empted. -/
def restarts (s : State) (c : Cohort) : Bool := ((s.launch c.launch).map fun l => l.kernel.restartMode).getD false

/-- R102, R105: a cohort pre-empted under RESTART waits for its relaunch; what it issued stays the grid's (R196). -/
def preempt (c : Cohort) (s : State) : State :=
  let x : Waiting :=
    { group := c.group, label := c.label
      restarts := if c.restarts == 0xFFFFFFFF then c.restarts else c.restarts + 1
      version := c.version, formed := c.formed }
  cancelWatch c.launch (updLaunch c.launch (fun l => { l with waiting := l.waiting ++ [x], members := c.id :: l.members })
    (dropCohort c s))

/-- R101, R403: DRAIN is requested for a grid; the watchdog of its queue starts. -/
def drainLaunch (l : Launch) (s : State) : State :=
  let wdog := ((s.queue l.ctx l.packet.q).map Queue.wdog).getD 1
  let s := updLaunch l.id (fun l => { l with drained := true }) s
  if s.watches.any (·.launch == l.id) then s
  else cancelWatch l.id
    { s with watches := s.watches ++ [{ ctx := l.ctx, q := l.packet.q, launch := l.id, until_ := s.now + 1000 * wdog }] }

/-- R100: the cohort of a class that restarts and was placed last, on the stacks of a mask. -/
def latestVictim (s : State) (onStacks cls : Nat) : Option Cohort :=
  (s.cohorts.filter fun c => cohortClass s c == cls && restarts s c && flag onStacks (c.cluster / 8)).foldl
    (fun r c => match r with
      | some d => if d.order < c.order then some c else r
      | none => some c) none

/-- R100: the grids of lower classes in DRAIN mode that are resident on the stacks of a mask and not draining. -/
def drainable (s : State) (onStacks : Nat) : List Launch :=
  s.launches.filter fun l => 0 < l.packet.cls && !l.kernel.restartMode && !l.drained
    && s.cohorts.any fun c => c.launch == l.id && flag onStacks (c.cluster / 8)

/-- R100: one step of the pre-emption for REALTIME work on the stacks of a mask, if anything remains to pre-empt. -/
def preemptFor (onStacks : Nat) (s : State) : Option State :=
  match firstSome (latestVictim s onStacks) [3, 2, 1] with
  | some c => some (preempt c s)
  | none => match drainable s onStacks with
    | [] => none
    | ls => some (ls.foldl (fun s l => drainLaunch l s) s)

/-- WATCHDOG (R101, R403): a watchdog expires; every cohort of its context is discarded. -/
def execEvWatchdog (idx : Nat) (s : State) : Out :=
  .next (match s.watches[idx]? with
    | none => s
    | some x =>
      if s.now < x.until_ then s
      else
        let ids := (s.cohorts.filter (·.ctx == x.ctx)).map Cohort.id
        ids.foldl (fun s id => discardCohort id Cause.watchdog.code 0 0 none s)
          { s with watches := s.watches.filter (· != x) })

/-! ## The dispatcher's work (R396, R398) -/

/-- R106, R398: the version under which work that carries a tag runs now; or the status that refuses it. -/
def versionNow (s : State) (ctx t : Nat) : Except Nat Nat :=
  let u := mergedTag s ctx t
  match (tagOf s ctx u).state with
  | 1 => .ok u
  | 0 => .error 1
  | _ => .error 3

/-- One unit of the dispatcher's work: a packet of a ready list, or the next cohort of a launch. -/
inductive Work where
  | packet (p : Packet)
  | relaunch (l : Launch) (x : Waiting)
  | cohort (l : Launch) (x : Waiting)
  deriving DecidableEq, Repr

/-- The work that a launch has left. -/
def launchWork (l : Launch) : Option Work := match l.waiting with
  | x :: _ => some (.relaunch l x)
  | [] => match l.formedQueue with
    | f :: _ => some (.cohort l { l.nextCohort with group := 0, formed := some f })
    | [] => if !l.pool && l.nextGroup < l.count then some (.cohort l l.nextCohort) else none

/-- The STACKS of the queue of a key. -/
def keyStacks (s : State) (key : Nat) : Nat := ((s.queue (key / 64) (key % 64)).map Queue.stackSet).getD 0

/-- R397: the launches of a class whose groups the dispatcher of a stack takes: those that may run on its stack. -/
def stackLaunches (s : State) (stack cls : Nat) : List Launch :=
  s.launches.filter fun l => l.packet.cls == cls && flag (keyStacks s l.packet.key) stack

/-- The queue keys that have work on a stack and class. -/
def workKeys (s : State) (stack cls : Nat) : List Nat :=
  let ls := (stackLaunches s stack cls).filter fun l => (launchWork l).isSome
  (ls.map (·.packet.key) ++ (readyList s stack cls).map Packet.key).eraseDups

/-- R396: the next work of a queue: of its earliest launch that has any, else its earliest packet, which is on its home
stack. -/
def queueWork (s : State) (stack cls key : Nat) : Option Work :=
  match (s.launches.filter fun l => l.packet.cls == cls && l.packet.key == key).filterMap launchWork with
  | x :: _ => if flag (keyStacks s key) stack then some x else none
  | [] => ((readyList s stack cls).find? (·.key == key)).map .packet

/-- R382: whether a core may execute a copy packet of a queue. -/
def copyCore (s : State) (p : Packet) (core : Nat) : Bool :=
  core < 128 && flag (keyStacks s p.key) (core / 32) && (s.island (core / 4)).state == 0
    && !s.plat.deadDies.contains (7 * (core / 32) + (if lowerCore core then 1 else 2))

/-- R382, R398: the status with which a copy packet is refused. -/
def copyRefusal (s : State) (p : Packet) : Option Nat := match versionNow s p.ctx p.version with
  | .error st => some st
  | .ok _ => if field p.bytes 0 8 / 2 ^ 12 != 0 || field p.bytes 44 4 != 0 then some 1 else none

/-- R382, R396: whether a packet has where to run: a copy packet needs a core, unless it is refused. -/
def Packet.fits (s : State) (p : Packet) : Bool :=
  p.type != 2 || (copyRefusal s p).isSome || (List.range 128).any (copyCore s p)
/-- The WEIGHT of the queue of a key. -/
def keyWeight (s : State) (key : Nat) : Nat := ((s.queue (key / 64) (key % 64)).map Queue.weight).getD 1
/-- R100: whether the queue of a key is suspended. -/
def keyHeld (s : State) (key : Nat) : Bool := ((s.queue (key / 64) (key % 64)).map fun q => q.state == .suspended).getD false

/-- Whether a cohort has nowhere to go now. -/
def fitsNowhere (s : State) (l : Launch) : Bool := (placeFor s (keyStacks s l.packet.key) l.kernel).isNone

/-- R396: whether the dispatcher can place a unit of work now. Work of a squashed version ends without a place. -/
def placeable (s : State) : Work → Bool
  | .packet p => !keyHeld s p.key && p.fits s
  | .relaunch l x | .cohort l x =>
    !keyHeld s l.packet.key && (match versionNow s l.ctx x.version with
      | .error _ => true
      | .ok _ => !l.drained && !fitsNowhere s l)

/-- R396: the work of a class that the dispatcher of a stack takes next. -/
def classWork (s : State) (stack cls : Nat) : Option Work :=
  let heads := (workKeys s stack cls).filterMap fun k => (queueWork s stack cls k).map fun w => (k, w)
  let can := heads.filter fun e => placeable s e.2
  let slot := placeSlot stack cls
  (turnOf (SMap.get 0 s.rr slot) (SMap.get 0 s.rr (slot + 32)) (can.map fun e => (e.1, keyWeight s e.1))).bind fun k =>
    (can.find? (·.1 == k)).map Prod.snd

/-- R396: the next work of the dispatcher of a stack: that of the highest class that has work it can place. -/
def nextWork (s : State) (stack : Nat) : Option Work := firstSome (classWork s stack) (List.range 4)

/-- R396: REALTIME work of a stack that fits nowhere: the STACKS of its queue. -/
def blockedRealtime (s : State) (stack : Nat) : Option Nat :=
  firstSome (fun k => match queueWork s stack 0 k with
    | some (.relaunch l _) | some (.cohort l _) =>
      if !keyHeld s k && !l.drained && fitsNowhere s l then some (keyStacks s k) else none
    | _ => none) (workKeys s stack 0)

/-- R396: a placement by the dispatcher of a stack counts in the round of its queue. -/
def countPlacement (stack : Nat) (p : Packet) (s : State) : State :=
  noteTurn (placeSlot stack p.cls) p.key (keyWeight s p.key) s

/-- The work of a launch that has been placed, or has ended, leaves it. -/
def popWork (l : Launch) : Launch := match l.waiting with
  | _ :: xs => { l with waiting := xs }
  | [] => match l.formedQueue with
    | _ :: fs => { l with formedQueue := fs, nextGroup := l.nextGroup + 1 }
    | [] => { l with nextGroup := l.nextGroup + 1 }

/-- R371, R398: the rest of a launch whose version is squashed is not placed; it completes with status 3 at tag 0. -/
def squashLaunch (l : Launch) (s : State) : State :=
  finishLaunch l.id (updLaunch l.id (fun l =>
    { l with count := l.nextGroup, completed := l.completed + l.waiting.length, waiting := [], formedQueue := []
             status := 3, cause := 0, version := 0 }) s)

/-- R100: with no REALTIME work waiting for room, drained grids go on. -/
def resumeDrained (s : State) : State :=
  if (List.range 4).any fun k => (blockedRealtime s k).isSome then s
  else { s with launches := s.launches.map fun l => { l with drained := keyHeld s l.packet.key && l.drained } }

/-- A cohort of a launch placed, when it fits. -/
def placeOne (l : Launch) (x : Waiting) (relaunch : Bool) (s : State) : Option State :=
  match versionNow s l.ctx x.version with
  | .error _ => some (squashLaunch l s)
  | .ok v => (placeFor s (keyStacks s l.packet.key) l.kernel).map fun p =>
      updLaunch l.id popWork (placeCohort l { x with version := v } relaunch p.1 p.2 s)

/-- R397: whether no other cohort is resident on, or waiting for, the stacks of a launch. -/
def alone (s : State) (l : Launch) : Bool :=
  let onStacks := keyStacks s l.packet.key
  let meets := fun (m : Nat) => (List.range 4).any fun k => flag onStacks k && flag m k
  !s.cohorts.any (fun c => c.launch != l.id && flag onStacks (c.cluster / 8))
    && !s.launches.any (fun m => m.id != l.id && (launchWork m).isSome && meets (keyStacks s m.packet.key))
    && !s.ready.any (fun p => p.type == 1 && meets (keyStacks s p.key))

/-- R397: further cohorts of a grid that is alone placed at once, as far as they fit. -/
def placeRest (id : Nat) : Nat → State → State
  | 0, s => s
  | n + 1, s => match (s.launch id).bind fun l => (launchWork l).map fun w => (l, w) with
    | some (l, .cohort _ x) =>
      if x.formed.isSome || !alone s l then s
      else match placeOne l x false s with
        | some t => placeRest id n t
        | none => s
    | _ => s

/-- PLACEMENT (R100, R396, R397). -/
def execEvPlacement (stack : Nat) (s : State) : Out :=
  let s := resumeDrained s
  .next (match (blockedRealtime s stack).bind fun m => preemptFor m s with
    | some t => t
    | none => match nextWork s stack with
      | some (.cohort l x) =>
        match placeOne l x false s with
        | some t => placeRest l.id 16384 (countPlacement stack l.packet t)
        | none => s
      | _ => s)

/-- RELAUNCH (R105, R106). -/
def execEvRelaunch (stack : Nat) (s : State) : Out :=
  .next (match nextWork s stack with
    | some (.relaunch l x) =>
      match placeOne l x true s with
      | some t => countPlacement stack l.packet t
      | none => s
    | _ => s)

/-! ## The completion engine (R380, R398, R196) -/

/-- R196: whether an access of a grid's ended cohorts has not been performed. -/
def accessesLeft (s : State) (cohorts : List Nat) : Bool :=
  (allWaves s).any (fun w => cohorts.contains w.cohort && w.ops.any fun o => o.ctr != 2 && o.perf != o.lanes)
    || s.cmds.any fun c => c.kind < 3 && cohorts.contains c.cohort

/-- R196: the stores and merged reductions of a grid's cohorts are at their homes. -/
def settleCohorts (cohorts : List Nat) (s : State) : State :=
  if cohorts.isEmpty then s
  else flushUpdates (fun u => u.orgs.any fun o => cohorts.contains o.cohort)
    (drain (fun p => cohorts.contains p.org.cohort) s)

/-- R380: the status word of a completion. -/
def Completion.word (c : Completion) : Nat := c.status % 256 + c.cause % 256 * 2 ^ 8
/-- R380: DONE of a packet. -/
def Packet.done (p : Packet) : Nat := field p.bytes 48 8
/-- R380: STATUSA of a packet. -/
def Packet.statusa (p : Packet) : Nat := field p.bytes 56 8

/-- R380: the status word is written, or dropped. -/
def writeStatus (c : Completion) (s : State) : State :=
  let p := c.packet
  if p.statusa == 0 then s
  else match cpWrite p.stack p.ctx p.statusa (toBytes 4 c.word) s with
    | .ok s => s
    | .error b => recordCp p.stack p.ctx 1 b (noteBad b s)

/-- R380, R393: the dependency counter is decremented, or the decrement is dropped. -/
def decrementDone (p : Packet) (s : State) : State :=
  if p.done == 0 then s
  else match counterStep p.stack p.ctx p.q p.done (2 ^ 32 - 1) s with
    | .ok s => s
    | .error b => recordCp p.stack p.ctx 1 b (noteBad b s)

/-- An entry of a log for a step of the completion engine. -/
def completionEntry (c : Completion) (i : Instr) (va : Nat) (data : List Nat) : LogEntry :=
  { ctx := c.packet.ctx, tag := c.version, i := i, va := va, data := data, core := 0, wave := 0, part := 0, recs := 1
    late := false }

/-- R362, R398: a completion under a LIVE version is logged. -/
def logCompletion (c : Completion) (s : State) : State :=
  let p := c.packet
  let s := if p.statusa == 0 then s
    else logEntry (completionEntry c (.qwst 0 0 0 0 0) p.statusa [c.word, p.stack]) s
  if p.done == 0 then s else logEntry (completionEntry c (.qdepdec 0 0 0) p.done [p.stack, p.q]) s

/-- R383, R384, R196: whether a completion still waits: for the replay of a committed log (stage 16 + tag), for the
accesses under an invalidated range (stage 8), or for the accesses of its grid. -/
def completionWaits (s : State) (c : Completion) : Bool :=
  let base := field c.packet.bytes 8 8
  let len := field c.packet.bytes 16 8
  let inside := fun (va : Nat) => base ≤ va && va < base + len
  if 16 ≤ c.stage then s.replay.any fun e => e.ctx == c.packet.ctx && e.tag == c.stage - 16
  else if c.stage == 8 then
    (allWaves s).any (fun w => w.ctx == c.packet.ctx && w.ops.any fun o =>
        !onScratch o.i && o.perf != o.lanes && o.sites.any fun a => inside a.1)
      || s.pending.any (fun p => p.ctx == c.packet.ctx && inside p.va)
      || s.updates.any fun u => u.ctx == c.packet.ctx && u.orgs.any fun o => inside o.va
  else accessesLeft s c.cohorts

/-- R187: a waiter on a global word of a range is to attempt again. -/
def remapPark (base len : Nat) (p : Park) : Park :=
  if !p.scratch && p.level != 0 && base ≤ p.va && p.va < base + len then { p with woken := true, level := 0, cloak := 0 }
  else p

/-- R187: the waiters of a range of a context attempt again. -/
def remapWaiters (ctx base len : Nat) (s : State) : State :=
  let again := fun (w : Wave) => if w.ctx == ctx then w.parks.map (remapPark base len) else w.parks
  let gone := (allWaves s).flatMap fun w => w.parks.filter fun p => !(again w).contains p
  mapWaves (fun w => { w with parks := again w }) { s with mem := freeCloaks ((allWaves s).flatMap again) gone s.mem }

/-- One step of a completion that does not wait; none is left of it after its decrement. -/
def stepCompletion (c : Completion) (s : State) : Option Completion × State :=
  if 8 ≤ c.stage then
    (some { c with stage := 0 },
      if c.stage == 8 && flag (field c.packet.bytes 1 1) 4 then
        remapWaiters c.packet.ctx (field c.packet.bytes 8 8) (field c.packet.bytes 16 8) s
      else s)
  else
    let s := settleCohorts c.cohorts s
    if c.version != 0 && live s c.packet.ctx c.version then (none, logCompletion c s)
    else if c.stage == 0 then (some { c with stage := 1 }, writeStatus c s)
    else (none, decrementDone c.packet s)

/-- PACKET_COMPLETION (R380): the completion engine makes the next step of a completion. -/
def execEvPacketCompletion (idx : Nat) (s : State) : Out :=
  .next (match s.completions[idx]? with
    | none => s
    | some c =>
      if completionWaits s c then s
      else
        let pre := s.completions.take idx
        let post := s.completions.drop (idx + 1)
        let (r, t) := stepCompletion c { s with completions := pre ++ post }
        match r with
        | none => t
        | some c => { t with completions := t.completions.take idx ++ c :: t.completions.drop idx })

end Sys2Proof.Machine
end

