-- ==== Sys2Proof/Machine/Matrix.lean ====
section
/-!
DEFINITION. The matrix sequencer and engine (R264-R294): MFORK and MJOIN, the stream words as the sequencer runs them,
the engine words as they take effect, and stream faults.
-/

namespace Sys2Proof.Machine

/-! ## Streams and claims (R267, R268) -/

/-- A change of the stream context of a cohort. -/
def updStream (cid : Nat) (f : Stream → Stream) (s : State) : State :=
  let g := fun (x : Stream) => if x.on && x.cohort == cid then f x else x
  { s with st := g s.st, streams := s.streams.map g }

/-- The kernel of a cohort. -/
def kernelOf (s : State) (cid : Nat) : Option Kernel :=
  (s.cohort cid).bind fun c => (s.launch c.launch).map Launch.kernel

/-- R268: the core of engine e of a cohort. -/
def engineCore (s : State) (cid e : Nat) : Nat := ((s.cohort cid).bind fun c => c.cores[e]?).getD 0

/-- The translation and instruction-cache unit of a cluster's sequencer. -/
def seqUnit (cluster : Nat) : Nat := 512 + cluster

/-- R267: a sequencer register. -/
def Stream.reg (x : Stream) (n : Nat) : DWord := SMap.get 0 x.x n
/-- A sequencer register set. -/
def Stream.setReg (x : Stream) (n : Nat) (v : DWord) : Stream := { x with x := SMap.set 0 x.x n v }

/-! ## Stream faults (R289, R290) -/

/-- Whether a wave is held in BARS, BARW or CWAIT. -/
def barrierHeld (w : Wave) : Bool := match w.hold with
  | .barrier _ _ => true
  | .again (.bars _) | .again (.barw _) | .cwait _ _ _ _ _ => true
  | _ => false

/-- R289: the engine words of a stream sent after the first that satisfies a test are cancelled, with that one. -/
def cancelFrom (p : EngineWord → Bool) (run : Nat) : List EngineWord → List EngineWord
  | [] => []
  | e :: es => if p e then es.filter (·.run != run) else e :: cancelFrom p run es

/-- R289, R290: a fault of a stream, given by its number: the stream is DONE, and its forking wave holds a late trap; with
no lane left to take it the cohort is discarded. A stream that has stopped already has its status (R288, R289), and so
has one that its context no longer runs. Teams whose waves have ended release their space (R18). -/
def streamFault (cid run : Nat) (cause : Cause) (pc word addr : Nat) (s : State) : State := match s.stream cid with
  | none => s
  | some x =>
    if x.state != 1 || x.run != run then endCohort cid s
    else
    let s := updStream cid (fun x => { x with state := 2, status := cause.code * 256 + 1, parked := none }) s
    let lanes := match (allWaves s).find? (fun w => w.id == x.forker && !w.ended) with
      | some w => x.forkLanes &&& ~~~w.exited
      | none => 0
    if lanes == 0 then discardCohort cid cause.code 0 pc none s
    else
      let t : LateTrap := { cause := cause, mask := lanes, pc := BitVec.ofNat 64 pc, word := word, dst := 0
                            addr := BitVec.ofNat 64 addr }
      let s := mapWaves (fun w => if w.id == x.forker then w.addLate t else w) s
      endCohort cid (eachWave (fun w => w.id == x.forker && barrierHeld w)
        (fun s => afterWord { s with w := { s.w with hold := .none } }) s)

/-- The address of a stream word. -/
def streamPc (s : State) (cid idx : Nat) : Nat := ((kernelOf s cid).map Kernel.mstream).getD 0 + 4 * idx

/-- A fault of the word that the focused stream is at. -/
def faultHere (cause : Cause) (s : State) : State :=
  streamFault s.st.cohort s.st.run cause (streamPc s s.st.cohort s.st.idx) (SMap.get 0 s.st.fetched s.st.idx) 0 s

/-! ## Fetch (R273) -/

/-- R273: the record of a translation fault of a stream, with its forker's core, wave and partition; its token. -/
def streamRecord (x : Stream) (cluster ctx va kind level : Nat) (s : State) : Nat × State :=
  (newToken s (cluster / 8), postFault (cluster / 8)
    { addr := va, ctx := ctx, version := x.version, core := x.forkCore, wave := x.forkSlot, part := x.forkPart
      kind := kind, level := level, replay := true } (walkFor ctx va s).2)

/-- R273: a word of the focused stream read at a page that permits it. -/
def streamRead (cluster ctx va : Nat) (leaf : Leaf) (s : State) : Fetched × State :=
  let x := s.st
  let pa := leaf.addr va
  let unit := seqUnit cluster
  let s := fillTlb unit ctx va leaf s
  match s.icache.find? fun l => l.core == unit && l.num == pa / 128 && l.ctx == ctx && l.tag == x.version with
  | some l => (.word (bits l.data.toNat (8 * (pa % 128)) 32), s)
  | none =>
    let s := recallLine pa s
    match viewError s ctx x.version leaf.ver pa with
    | some c => (.trap c va, findEcc s pa)
    | none =>
      let base := 128 * (pa / 128)
      let line : ILine := { core := unit, num := pa / 128, ctx := ctx, tag := x.version
                            data := BitVec.ofNat 1024 (viewSector s ctx x.version leaf.ver base 128) }
      (.word (viewSector s ctx x.version leaf.ver pa 4),
        putICache line (if leaf.cached then touchLine s (pa / 1024) 0 else s))

/-- R273: stream word `idx` of the focused stream; it keeps the word. -/
def streamFetch (idx : Nat) (s : State) : Fetched × State :=
  let x := s.st
  match s.cohort x.cohort, kernelOf s x.cohort with
  | some c, some k =>
    let va := k.mstream + 4 * idx
    match x.fetched.find? (·.1 == idx) with
    | some e => (.word e.2, s)
    | none =>
      if k.mlen ≤ idx then (.trap .illegalOp va, s)
      else if 2 ^ 52 ≤ va then (.trap .memXlate va, s)
      else match xlate s (seqUnit c.cluster) c.ctx va .fetch with
        | .replay level => (.hold va level, s)
        | .bad _ => (.trap .memXlate va, s)
        | .perm _ _ => (.trap .memPerm va, s)
        | .ok leaf =>
          match streamRead c.cluster c.ctx va leaf s with
          | (.word w, s) => (.word w, { s with st := { s.st with fetched := s.st.fetched.insert idx w } })
          | r => r
  | _, _ => (.hold 0 0, s)

/-- R273, R290: a fetch of the focused stream that did not give a word. -/
def streamFetchFailed (idx : Nat) (r : Fetched) (s : State) : State := match r with
  | .trap c va =>
    streamFault s.st.cohort s.st.run c (streamPc s s.st.cohort idx) 0 (if c == .illegalOp then 0 else va) s
  | .hold va level => match s.cohort s.st.cohort with
    | none => s
    | some c =>
      let x := s.st
      let (t, s) := streamRecord x c.cluster c.ctx va 3 level s
      { s with st := { s.st with parked := some t } }
  | .word _ => s

/-! ## Running stream words (R269, R276-R279, R286) -/

/-- Whether the focused stream can run its next word. -/
def Stream.runs (x : Stream) : Bool := x.on && x.state == 1 && x.parked.isNone

/-- A stream word run by the focused stream. -/
def streamWord (act : State → State) (s : State) : State := if s.st.runs then act s else s

/-- The focused stream changed and moved on by one word. -/
def stepStream (f : Stream → Stream) (s : State) : State :=
  let x := f s.st
  { s with st := { x with idx := x.idx + 1 } }

/-- The focused stream's engine words that have not taken effect, on one engine or on all. -/
def outstanding (s : State) (core : Option Nat) (p : Instr → Bool) : Bool :=
  s.engine.any fun e => !e.lost && e.cohort == s.st.cohort && p e.i && (core.isNone || core == some e.core)

/-- Whether a stream word is an MLOAD or MSTORE. -/
def isMove : Instr → Bool
  | .mload .. | .mstore .. => true
  | _ => false

/-- R276, order 2: an engine that the cohort does not have. -/
def badEngine (s : State) (e : Nat) : Bool := ((kernelOf s s.st.cohort).map Kernel.teams).getD 0 ≤ e

/-- The context of a stream's cohort. -/
def streamCtx (s : State) (cid : Nat) : Nat := ((s.cohort cid).map Cohort.ctx).getD 0

/-- R269, R277: a word sent to an engine, when its queue has room. -/
def sendWord (i : Instr) (e xa xs : Nat) (s : State) : State :=
  if badEngine s e then faultHere .rsvdField s
  else
    let core := engineCore s s.st.cohort e
    if 8 ≤ (s.engine.filter fun e => e.core == core && !e.lost).length then s
    else
      let w : EngineWord :=
        { core := core, cohort := s.st.cohort, i := i, xa := (s.st.reg xa).toNat, xs := (s.st.reg xs).toNat
          pc := streamPc s s.st.cohort s.st.idx, word := SMap.get 0 s.st.fetched s.st.idx, done := 0
          ctx := streamCtx s s.st.cohort, tag := s.st.version, aq := s.st.aq, run := s.st.run
          waits := s.st.waits }
      stepStream id { s with engine := s.engine ++ [w] }

/-- MNOP (R277). -/
def execMnop (fen : Nat) (s : State) : Out :=
  .next (streamWord (fun s => if fen == 1 && outstanding s none isMove then s else stepStream id s) s)

/-- MSET (R277). -/
def execMsetStream (xd q16 keep imm : Nat) (s : State) : Out :=
  .next (streamWord (stepStream fun x =>
    let old := if keep == 1 then (x.reg xd).toNat else 0
    x.setReg xd (BitVec.ofNat 64 (old - bits old (16 * q16) 16 * 2 ^ (16 * q16) + imm % 2 ^ 16 * 2 ^ (16 * q16)))) s)

/-- MADD with an immediate (R277). -/
def execMaddImm (xd xa imm : Nat) (s : State) : Out :=
  .next (streamWord (stepStream fun x => x.setReg xd (x.reg xa + (BitVec.ofNat 15 imm).signExtend 64)) s)

/-- MADD with a register (R277). -/
def execMaddReg (xd xa xb : Nat) (s : State) : Out :=
  .next (streamWord (stepStream fun x => x.setReg xd (x.reg xa + x.reg xb)) s)

/-- MHALT (R277). -/
def execMhalt (s : State) : Out :=
  .next (streamWord (fun s =>
    if outstanding s none (fun _ => true) then s
    else
      let cid := s.st.cohort
      endCohort cid { s with st := { s.st with state := 2, status := 0 } }) s)

/-- R278: the index after the MEND that matches an MLOOP, found by fetching words. -/
def findMend : Nat → Nat → Nat → State → Nat × Fetched × State
  | 0, idx, _, s => (idx, .trap .illegalOp 0, s)
  | fuel + 1, idx, depth, s => match streamFetch idx s with
    | (.word w, s) =>
      if w % 256 == 0x0B then (if depth == 0 then (idx + 1, .word w, s) else findMend fuel (idx + 1) (depth - 1) s)
      else findMend fuel (idx + 1) (if w % 256 == 0x0A then depth + 1 else depth) s
    | (r, s) => (idx, r, s)

/-- MLOOP (R278). -/
def execMloop (reg xc cnt : Nat) (s : State) : Out :=
  .next (streamWord (fun s =>
    let n := if reg == 1 then (s.st.reg xc).toNat % 2 ^ 32 else cnt
    if 4 ≤ s.st.loops.length then faultHere .illegalOp s
    else if n != 0 then stepStream (fun x => { x with loops := (x.idx + 1, n) :: x.loops }) s
    else
      let len := ((kernelOf s s.st.cohort).map Kernel.mlen).getD 0
      match findMend (len + 1) (s.st.idx + 1) 0 s with
      | (idx, .word _, s) => { s with st := { s.st with idx := idx } }
      | (_, .trap .illegalOp _, s) => faultHere .illegalOp s
      | (idx, r, s) => streamFetchFailed idx r s) s)

/-- MEND (R278). -/
def execMend (s : State) : Out :=
  .next (streamWord (fun s => match s.st.loops with
    | [] => faultHere .illegalOp s
    | (start, left) :: rest =>
      if 1 < left then { s with st := { s.st with loops := (start, left - 1) :: rest, idx := start } }
      else stepStream (fun x => { x with loops := rest }) s) s)

/-- R279: the claims (engine core, kind, number) that a mask names. -/
def claimsOf (core kind mask : Nat) : List (Nat × Nat × Nat) :=
  ((List.range 16).filter fun n => flag mask n).map fun n => (core, kind, n)

/-- R264: the base of an operand slot, and of an accumulator. -/
def slotBase (core slot : Nat) : Nat := 2 ^ 24 * core + 32768 * slot
/-- R264: the base of an accumulator. -/
def accBase (core n : Nat) : Nat := 16384 * (8 * core + n)

/-- Entries of a map in [base, base + n) replaced by others in rising order. -/
def replaceRange {α : Type} (m : SMap α) (base n : Nat) (new : SMap α) : SMap α :=
  m.filter (fun e => e.1 < base) ++ new ++ m.filter (fun e => base + n ≤ e.1)

/-- R268: a slot or accumulator that becomes claimed. -/
def clearClaim (c : Nat × Nat × Nat) (s : State) : State :=
  if c.2.1 == 0 then { s with slotTag := SMap.set 0 s.slotTag (16 * c.1 + c.2.2) 0 }
  else { s with acc := replaceRange s.acc (accBase c.1 c.2.2) 16384 [] }

/-- The stream contexts that are held. -/
def heldStreams (s : State) : List Stream := (if s.st.on then [s.st] else []) ++ s.streams

/-- MCLAIM (R268, R279). -/
def execMclaim (e kind mask : Nat) (s : State) : Out :=
  .next (streamWord (fun s =>
    if badEngine s e then faultHere .rsvdField s
    else
      let core := engineCore s s.st.cohort e
      let cs := claimsOf core kind mask
      let foreign := (heldStreams s).any fun x => x.cohort != s.st.cohort && x.claims.any cs.contains
      if foreign || outstanding s (some core) (fun _ => true) then s
      else
        let new := cs.filter fun c => !s.st.claims.contains c
        let s := new.foldl (fun s c => clearClaim c s) s
        stepStream (fun x => { x with claims := x.claims ++ new }) s) s)

/-- MREL (R279). -/
def execMrel (e kind mask : Nat) (s : State) : Out :=
  .next (streamWord (fun s =>
    if badEngine s e then faultHere .rsvdField s
    else
      let core := engineCore s s.st.cohort e
      if outstanding s (some core) (fun _ => true) then s
      else stepStream (fun x => { x with claims := x.claims.filter fun c => !(claimsOf core kind mask).contains c }) s) s)

/-- R286: a barrier of the focused stream's cohort. -/
def streamBarrier (s : State) (b : Nat) : Option Barrier := (s.cohort s.st.cohort).bind fun c => c.bars[b]?

/-- MBARA (R286). -/
def execMbara (b x : Nat) (s : State) : Out :=
  .next (streamWord (fun s =>
    if outstanding s none isMove then s
    else match streamBarrier s b with
      | none => s
      | some y =>
        if !y.count || y.expected < y.arrived + 1 then faultHere .barrier s
        else
          let z := ({ y with arrived := y.arrived + 1 } : Barrier).check
          let s := updCohort s.st.cohort (fun c => { c with bars := c.bars.set b z }) s
          stepStream (fun st => st.setReg x (y.gen.setWidth 64)) s) s)

/-- MBARW (R286). The words sent after it follow it (R287). -/
def execMbarw (b x : Nat) (s : State) : Out :=
  .next (streamWord (fun s => match streamBarrier s b with
    | none => s
    | some y =>
      if y.gen == (s.st.reg x).setWidth 32 then s else stepStream (fun x => { x with waits := x.waits + 1 }) s) s)

/-- R280, R281: the row count of a memory word. -/
def rowCount (xs : Nat) : Nat := if bits xs 32 16 == 0 then 128 else bits xs 32 16
/-- R280: a row count that the word rejects. -/
def rowsBad (xs : Nat) : Bool := 128 < bits xs 32 16 || bits xs 48 16 != 0

/-- MLOAD (R280), sent to its engine. -/
def execMload (e q xa xs fmt sp : Nat) (s : State) : Out :=
  .next (streamWord (fun s =>
    if rowsBad (s.st.reg xs).toNat then faultHere .rsvdField s else sendWord (.mload e q xa xs fmt sp) e xa xs s) s)

/-- MSTORE (R281), sent to its engine. -/
def execMstore (e ac xa xs fmt sp sat toq q : Nat) (s : State) : Out :=
  .next (streamWord (fun s =>
    if toq == 0 && rowsBad (s.st.reg xs).toNat then faultHere .rsvdField s
    else sendWord (.mstore e ac xa xs fmt sp sat toq q) e xa xs s) s)

/-- MZERO (R282), sent to its engine. -/
def execMzero (e mask : Nat) (s : State) : Out := .next (streamWord (sendWord (.mzero e mask) e 0 0) s)
/-- MMA (R284), sent to its engine. -/
def execMma (e ac qa qb : Nat) (s : State) : Out := .next (streamWord (sendWord (.mma e ac qa qb) e 0 0) s)
/-- MMAS (R284), sent to its engine. -/
def execMmas (e ac qa qb qs : Nat) (s : State) : Out := .next (streamWord (sendWord (.mmas e ac qa qb qs) e 0 0) s)
/-- MACT (R285), sent to its engine. -/
def execMact (e ac fn sh : Nat) (s : State) : Out := .next (streamWord (sendWord (.mact e ac fn sh) e 0 0) s)
/-- MSCALE (R282), sent to its engine. -/
def execMscale (e ac n : Nat) (s : State) : Out := .next (streamWord (sendWord (.mscale e ac n) e 0 0) s)

/-! ## Engine words as they take effect (R269, R276, R283) -/

/-- The translation unit of a core's matrix engine. -/
def engineUnit (core : Nat) : Nat := 384 + core

/-- What a 16-byte piece of a row is read from or written to. -/
inductive Piece where
  | glob (va : Nat) (leaf : Leaf)
  | cell (a : Nat)

/-- The start of row r of an MLOAD or MSTORE. -/
def rowAddr (w : EngineWord) (sp r : Nat) : Nat :=
  let n := if sp == 1 then 32 else 64
  (((w.xa : Int) + r * (BitVec.ofNat 32 w.xs).toInt) % (2 ^ n : Int)).toNat

/-- R280, R283: the scratch cells of the rows of a word, or none when one is refused. -/
def scratchRows (s : State) (w : EngineWord) (e len : Nat) : List Nat → Option (List Nat)
  | [] => some []
  | r :: rs =>
    match s.cohort w.cohort, kernelOf s w.cohort with
    | some c, some k =>
      if 2 ^ 32 ≤ w.xa then none
      else match cellAt c.tags e k.scratch k.column (rowAddr w 1 r) len with
        | none => none
        | some a => (scratchRows s w e len rs).map fun cs => a :: cs
    | _, _ => none

/-- R283: the addresses of the 16-byte pieces of the rows of a word. -/
def pieceAddrs (w : EngineWord) (len rows : Nat) : List Nat :=
  (List.range rows).flatMap fun r => (List.range (len / 16)).map fun p => (rowAddr w 0 r + 16 * p) % 2 ^ 64

/-- R283: the first failure of a list of checked addresses, by the order of causes. -/
def pieceFail (cs : List (Nat × Check)) : Option (Nat × Check) :=
  let bad := cs.filter fun x => match x.2 with
    | .ok _ => false
    | _ => true
  let rank := fun (c : Check) => match c with
    | .trap .memXlate => 0
    | .replay _ => 1
    | .trap .memPerm => 2
    | _ => 3
  firstSome (fun k => bad.find? fun x => rank x.2 == k) [0, 1, 2, 3]

/-- R283: the conditions of a memory word up to order 5: its pieces, or the failing address and check. -/
def checkRows (s : State) (w : EngineWord) (e len rows sp : Nat) (ask : Ask) :
    Except (Nat × Check) (List Piece) :=
  if w.xa % 16 != 0 || (BitVec.ofNat 32 w.xs).toInt % 16 != 0 then .error (w.xa, .trap .memAlign)
  else if sp == 1 then
    match scratchRows s w e len (List.range rows) with
    | none => .error (w.xa, .trap .memXlate)
    | some cs => .ok (cs.flatMap fun a => (List.range (len / 16)).map fun p => .cell (a + 16 * p))
  else
    let cs := (pieceAddrs w len rows).map fun va =>
      (va, checkAt s (engineUnit w.core) w.ctx w.tag ask 16 va)
    match pieceFail cs with
    | some r => .error r
    | none => .ok (cs.filterMap fun c => match c.2 with
      | .ok leaf => some (.glob c.1 leaf)
      | _ => none)

/-- R283, order 6: the error of a read piece. -/
def pieceError (s : State) (w : EngineWord) (read : Bool) : Piece → Option (Cause × Nat × Nat)
  | .cell _ => none
  | .glob va leaf =>
    if dropped s w.ctx w.tag leaf.ver then none
    else match viewError s w.ctx w.tag leaf.ver (leaf.addr va) with
    | some .memPoison => if read then some (.memPoison, va, leaf.addr va) else none
    | some c => some (c, va, leaf.addr va)
    | none => none

/-- A 16-byte piece read (R283). -/
def readPiece (w : EngineWord) (p : Piece) (s : State) : Nat × State := match p with
  | .cell a => (readScratch s.scratch a 16, s)
  | .glob va leaf =>
    readHome w.core w.ctx w.tag leaf (leaf.addr va) 16
      (fillTlb (engineUnit w.core) w.ctx va leaf s)

/-- Pieces read in order, as bytes. -/
def readPieces (w : EngineWord) : List Piece → State → List Nat × State
  | [], s => ([], s)
  | p :: ps, s =>
    let (v, s) := readPiece w p s
    let (bs, s) := readPieces w ps s
    (toBytes 16 v ++ bs, s)

/-- A 16-byte piece written (R281, R283). -/
def writePiece (w : EngineWord) (p : Piece) (v : Nat) (s : State) : State := match p with
  | .cell a => storeScratch a 16 v s
  | .glob va leaf =>
    let pa := leaf.addr va
    viewWrite w.ctx w.tag leaf.ver leaf.cached pa 16 v (recallLine pa s)

/-- The words of the engine queues without the one that took effect. -/
def dropWord (w : EngineWord) (s : State) : State :=
  { s with engine := s.engine.eraseP fun e => e.core == w.core && e.cohort == w.cohort }

/-- A change of an engine word that is the first of its stream on its engine. -/
def updWord (w : EngineWord) (f : EngineWord → EngineWord) (s : State) : State :=
  { s with engine := updFirst (fun e => e.core == w.core && e.cohort == w.cohort) f s.engine }

/-- R276, R289: an engine word faults; later words of its stream are cancelled. -/
def engineFault (w : EngineWord) (cause : Cause) (addr : Nat) (s : State) : State :=
  streamFault w.cohort w.run cause w.pc w.word addr
    { s with engine := cancelFrom (fun e => e.core == w.core && e.cohort == w.cohort) w.run s.engine }

/-- R283, order 3: an engine word parks until its translation fault is resolved. -/
def parkWord (w : EngineWord) (x : Stream) (va kind level : Nat) (s : State) : State :=
  let (t, s) := streamRecord { x with version := w.tag } (w.core / 4) w.ctx va kind level s
  updWord w (fun e => { e with parked := some t }) s

/-- A failed check of a memory word. -/
def rowsFailed (w : EngineWord) (x : Stream) (kind : Nat) (r : Nat × Check) (s : State) : State := match r.2 with
  | .trap c => engineFault w c r.1 s
  | .replay level => parkWord w x r.1 kind level s
  | .ok _ => s

/-- Bytes as entries of a memory from an address. -/
def cellsFrom (a : Nat) : List Nat → SMap (BitVec 8)
  | [] => []
  | b :: bs => if b % 256 == 0 then cellsFrom (a + 1) bs else (a, BitVec.ofNat 8 b) :: cellsFrom (a + 1) bs

/-- R265: a slot's bytes and tag replaced. -/
def setSlotBytes (core q tag : Nat) (bs : List Nat) (s : State) : State :=
  { s with slotMem := replaceRange s.slotMem (slotBase core q) 32768 (cellsFrom (slotBase core q) bs)
           slotTag := SMap.set 0 s.slotTag (16 * core + q) (tag + 1) }

/-- R283: an MLOAD that meets an error leaves each piece of its slot with its old or its new value. -/
def partialLoad (w : EngineWord) (x : Stream) (q part : Nat) : Nat → List Piece → State → State
  | _, [], s => s
  | k, p :: ps, s =>
    let s :=
      if flag part k && (pieceError s w true p).isNone then
        let (v, s) := readPiece w p s
        let a := slotBase w.core q + 16 * k
        { s with slotMem := replaceRange s.slotMem a 16 (cellsFrom a (toBytes 16 v)) }
      else s
    partialLoad w x q part (k + 1) ps s

/-- MLOAD as it takes effect (R280, R283). -/
def doLoad (w : EngineWord) (x : Stream) (e q fmt sp part : Nat) (s : State) : State :=
  if !x.claims.contains (w.core, 0, q) then engineFault w .slot 0 s
  else
    let rows := rowCount w.xs
    match checkRows s w e 256 rows sp { need := .load } with
    | .error r => rowsFailed w x 0 r s
    | .ok ps => match firstSome (pieceError s w true) ps with
      | some (c, va, pa) => engineFault w c va (findEcc (partialLoad w x q part 0 ps s) pa)
      | none =>
        let (bs, s) := readPieces w ps s
        dropWord w (setSlotBytes w.core q fmt bs s)

/-- The element of an accumulator. -/
def accElem (s : State) (core n i j : Nat) : Nat := (SMap.get 0 s.acc (accBase core n + 128 * i + j)).toNat

/-- R281: row r of an accumulator converted, as bytes. -/
def storeRow (s : State) (core ac fmt : Nat) (sat : Bool) (r : Nat) : List Nat :=
  (List.range 128).flatMap fun j => toBytes (elemSize fmt) (storeElem fmt sat (accElem s core ac r j))

/-- The pieces of one row, written where the bits of a mask say. -/
def writeRow (w : EngineWord) (x : Stream) (mask : Nat) : Nat → List Piece → List Nat → State → State
  | _, [], _, s => s
  | k, p :: ps, bs, s =>
    let s := if flag mask k then writePiece w p (ofBytes (bs.take 16)) s else s
    writeRow w x mask (k + 1) ps (bs.drop 16) s

/-- R292: rows `r` to the last, written in order. -/
def writeRows (w : EngineWord) (x : Stream) (row : Nat → List Nat) (per : Nat) : Nat → Nat → List Piece → State → State
  | 0, _, _, s => s
  | n + 1, r, ps, s =>
    writeRows w x row per n (r + 1) (ps.drop per) (writeRow w x (2 ^ per - 1) 0 (ps.take per) (row r) s)

/-- MSTORE to memory as it takes effect (R281, R283, R292). Its rows go in order; with `part` not 0, only the pieces of
the next row named by its bits are written in this step, and the word is part-way. -/
def doStore (w : EngineWord) (x : Stream) (e ac fmt sp : Nat) (sat : Bool) (part : Nat) (s : State) : State :=
  if !x.claims.contains (w.core, 1, ac) then engineFault w .slot 0 s
  else
    let rows := rowCount w.xs
    let len := 128 * elemSize fmt
    let per := len / 16
    match checkRows s w e len rows sp { need := .store, write := true, spec := true } with
    | .error r => rowsFailed w x 1 r s
    | .ok ps => match firstSome (pieceError s w false) ps with
      | some (c, va, pa) => engineFault w c va (findEcc s pa)
      | none =>
        let row := storeRow s w.core ac fmt sat
        let left := ps.drop (per * w.done)
        if part == 0 then dropWord w (writeRows w x row per (rows - w.done) w.done left s)
        else
          let mask := part % 2 ^ per
          let s := writeRow w x mask 0 (left.take per) (row w.done) s
          if mask + 1 == 2 ^ per then
            if w.done + 1 == rows then dropWord w s
            else updWord w (fun e => { e with done := e.done + 1, started := true }) s
          else updWord w (fun e => { e with started := true }) s

/-- R281: MSTORE to a slot. -/
def doStoreSlot (w : EngineWord) (x : Stream) (ac fmt q : Nat) (s : State) : State :=
  if !x.claims.contains (w.core, 1, ac) || !x.claims.contains (w.core, 0, q) then engineFault w .slot 0 s
  else dropWord w (setSlotBytes w.core q fmt ((List.range 128).flatMap (storeRow s w.core ac fmt false)) s)

/-- Elements of an accumulator replaced by a function of their row and column. -/
def setAcc (core n : Nat) (f : Nat → Nat → Nat) (s : State) : State :=
  let base := accBase core n
  let new := (List.range 16384).filterMap fun k =>
    let v : Word := BitVec.ofNat 32 (f (k / 128) (k % 128))
    if v == 0 then none else some (base + k, v)
  { s with acc := replaceRange s.acc base 16384 new }

/-- Whether accumulators named by a mask are claimed. -/
def accClaimed (x : Stream) (core mask : Nat) : Bool := (claimsOf core 1 mask).all x.claims.contains

/-- An element-wise word on one accumulator. -/
def doMap (w : EngineWord) (x : Stream) (ac : Nat) (f : Nat → Nat) (s : State) : State :=
  if !x.claims.contains (w.core, 1, ac) then engineFault w .slot 0 s
  else dropWord w (setAcc w.core ac (fun i j => f (accElem s w.core ac i j)) s)

/-- R284: the tag of a slot, or none when it is NONE. -/
def slotTagOf (s : State) (core q : Nat) : Option Nat := match SMap.get 0 s.slotTag (16 * core + q) with
  | 0 => none
  | t + 1 => some t

/-- R284: whether two tags pair in MMA, or in MMAS. -/
def tagsPair (mmas : Bool) (a b : Nat) : Bool :=
  if a == 3 || a == 4 then b == 3 || b == 4
  else if a == 5 then mmas && b == 5
  else if a == 7 || a == 8 then !mmas && (b == 7 || b == 8)
  else !mmas && a ≤ 2 && a == b

/-- A byte of a row of a slot. -/
def slotByte (s : State) (core q r i : Nat) : Nat :=
  (readByte s.slotMem (slotBase core q + 256 * r + i)).toNat

/-- R266: the scale of element k of row r of an operand slot. -/
def scaleOf (s : State) (core : Nat) (qs : Option Nat) (q r k : Nat) : Nat := match qs with
  | none => 127
  | some t => (readByte s.slotMem (slotBase core t + 2048 * q + 16 * r + k / 32)).toNat

/-- R70: whether the results of a word may be perturbed: its cluster's island runs, ON or CLOSING, in approximate mode. -/
def perturbs (s : State) (core aq tag : Nat) : Bool :=
  aq != 0 && 3 ≤ tag && tag ≤ 5 && (s.island (core / 4)).state ≤ 1 && (s.island (core / 4)).approx

/-- MMA and MMAS as they take effect (R68, R69, R284). -/
def doMma (w : EngineWord) (x : Stream) (ac qa qb : Nat) (qs : Option Nat) (s : State) : State :=
  let core := w.core
  let slots := [qa, qb] ++ qs.toList
  let scaleOk := match qs with
    | none => true
    | some t => slotTagOf s core t == some 6
  match slotTagOf s core qa, slotTagOf s core qb with
  | some ta, some tb =>
    if !slots.all (fun q => x.claims.contains (core, 0, q)) || !x.claims.contains (core, 1, ac) || !scaleOk
        || !tagsPair qs.isSome ta tb then engineFault w .slot 0 s
    else
      let k := rowK ta
      let raw := fun (q t r i : Nat) => rowElem t (slotByte s core q r) i
      if ta == 7 || ta == 8 then
        dropWord w (setAcc core ac (fun i j =>
          accumulateInt k (fun n => intValue ta (raw qa ta i n) * intValue tb (raw qb tb j n)) (accElem s core ac i j)) s)
      else
        let val := fun (q t r n : Nat) => scaled (scaleOf s core qs q r n) (elemValue t (raw q t r n))
        let ch := chunkLen ta
        let free := perturbs s core w.aq ta
        let s1 := setAcc core ac (fun i j =>
          accumulate ch w.aq free (fun n => product (val qa ta i n) (val qb tb j n)) (s.fresh + 8 * (128 * i + j))
            (k / ch) 0 (accElem s core ac i j)) s
        dropWord w { s1 with fresh := s1.fresh + 131072 }
  | _, _ => engineFault w .slot 0 s

/-- The effect of an engine word (R279-R285). -/
def doEngine (w : EngineWord) (x : Stream) (part : Nat) (s : State) : State := match w.i with
  | .mload e q _ _ fmt sp => doLoad w x e q fmt sp part s
  | .mstore e ac _ _ fmt sp sat toq q =>
    if toq == 1 then doStoreSlot w x ac fmt q s else doStore w x e ac fmt sp (sat == 1) part s
  | .mzero _ mask =>
    if !accClaimed x w.core mask then engineFault w .slot 0 s
    else dropWord w ((claimsOf w.core 1 mask).foldl (fun s c => clearClaim c s) s)
  | .mma _ ac qa qb => doMma w x ac qa qb none s
  | .mmas _ ac qa qb qs => doMma w x ac qa qb (some qs) s
  | .mact _ ac fn sh => doMap w x ac (actElem fn sh) s
  | .mscale _ ac n => doMap w x ac (scaleElem (BitVec.ofNat 8 n).toInt) s
  | _ => dropWord w s

/-- R18, R289: a cohort whose stream has stopped may end with its last engine word. -/
def afterEngine (cid : Nat) (s : State) : State := if (s.stream cid).any (·.state == 1) then s else endCohort cid s

/-- R269: whether another context's MLOAD or MSTORE is part-way on the engine of a word. -/
def moveRuns (s : State) (w : EngineWord) : Bool :=
  isMove w.i && s.engine.any fun e => e.core == w.core && e.cohort != w.cohort && e.started && !e.lost

/-- R287: the places of the 16-byte pieces of a word's rows: scratch cells, or addresses and what they translate to. -/
def rowSpots (s : State) (w : EngineWord) (e len sp : Nat) (need : Need) : List (Nat × Nat) :=
  let rows := rowCount w.xs
  if sp == 1 then
    ((scratchRows s w e len (List.range rows)).getD []).flatMap fun a =>
      (List.range (len / 16)).map fun p => (0, a + 16 * p)
  else (pieceAddrs w len rows).flatMap fun va =>
    (1, va) :: (match checkAt s (engineUnit w.core) w.ctx w.tag { need := need } 16 va with
      | .ok leaf => [(2, leaf.addr va)]
      | _ => [])

/-- R287: what an engine word touches in memory. -/
def wordSpots (s : State) (w : EngineWord) : List (Nat × Nat) := match w.i with
  | .mload e _ _ _ _ sp => rowSpots s w e 256 sp .load
  | .mstore e _ _ _ fmt sp _ toq _ => if toq == 1 then [] else rowSpots s w e (128 * elemSize fmt) sp .store
  | _ => []

/-- R287: whether an MLOAD or MSTORE waits for one of its stream, sent before an MBARW that it follows, that touches one
location with it. -/
def barredBy (s : State) (w : EngineWord) : Bool :=
  isMove w.i && s.engine.any fun e =>
    isMove e.i && !e.lost && e.run == w.run && e.waits < w.waits && (wordSpots s e).any (wordSpots s w).contains

/-- R248, R249, R292: rows of a lost MSTORE reach banks that are no longer its team's; each is dropped and counted. -/
def countRows (core : Nat) : Nat → State → State
  | 0, s => s
  | n + 1, s => countRows core n (countDrop core s)

/-- ENGINE_WORD_TAKES_EFFECT (R269): the idx-th queued word of the matrix engine of a core takes effect, when no earlier
word of its context is queued there, its engine runs no other move (R269), and none that an MBARW orders before it is
left (R287). A word whose cohort is gone sends at most `part` of its remaining rows (R292). -/
def execEvEngineWordTakesEffect (core idx part : Nat) (s : State) : Out :=
  let q := s.engine.filter (·.core == core)
  .next (match q[idx]? with
    | none => s
    | some w =>
      if w.lost then countRows w.core (min part (rowCount w.xs - w.done)) (dropWord w s)
      else if (q.take idx).any (·.cohort == w.cohort) || w.parked.isSome || moveRuns s w || barredBy s w then s
      else match s.stream w.cohort with
        | none => s
        | some x => afterEngine w.cohort (doEngine w x part s))

/-! ## MFORK and MJOIN (R271, R272) -/

/-- R271: the stream context of the focused wave's cohort started. -/
def forkStream (f : SF) (s : State) : State :=
  let w := s.w
  updStream w.cohort (fun x => { x with
    state := 1, idx := (w.sreg f.sa).toNat, x := SMap.set 0 [] 0 (w.spair f.sb), loops := [], aq := fpAq w.fpmode
    version := w.version, leader := w.leader, forker := w.id, forkLanes := w.active, forkCore := w.core
    forkSlot := w.slot, forkPart := w.part, run := s.nextId, fetched := [], parked := none, waits := 0 })
    { s with nextId := s.nextId + 1 }

/-- MFORK (R271). -/
def execMfork (f : SF) (s : State) : Out :=
  let w := s.w
  .next (if w.idle then s
    else match s.myLaunch.map Launch.kernel with
      | none => s
      | some k =>
        if !k.matrix then raise .illegalOp w.active (destReg (.mfork f)) 0 s
        else if k.mlen ≤ (w.sreg f.sa).toNat then raise .rsvdField w.active (destReg (.mfork f)) 0 s
        else if (s.stream w.cohort).any (·.state == 1) then writeP (f.sd % 8) (fun _ => false) s
        else if !releaseReady s w.ops {} then holdAgain (.mfork f) s
        else writeP (f.sd % 8) (fun _ => true) (forkStream f (releaseNow 2 {} s)))

/-- MJOIN (R272). -/
def execMjoin (f : SF) (s : State) : Out :=
  let w := s.w
  .next (if w.idle then s
    else if !((s.myLaunch.map fun l => l.kernel.matrix).getD false) then raise .illegalOp w.active (dstOf 2 f.sd) 0 s
    else match s.stream w.cohort with
      | none => s
      | some x =>
        if x.state == 1 then holdAgain (.mjoin f) s
        else acquireNow w.core 2 {} (writeS f.sd (BitVec.ofNat 32 x.status) s))

end Sys2Proof.Machine
end

