-- ==== Sys2Proof/Machine/Memory.lean ====
section
/-!
DEFINITION. Meanings of the loads, stores, atomics, reductions, FENCE, bindings and cache control (R208-R210,
R222-R231).
-/

namespace Sys2Proof.Machine

/-- R86: the ACTIVE lanes store. -/
def storing (s : State) : State := { s with w := s.w.markStored s.w.active }

/-- A counted global operation issued (R203, R36): `va` and `data` give each lane's address and data. -/
def issueGlobal (i : Instr) (ctr kind : Nat) (ask : Ask) (lanes : List Nat) (va data : Nat → Nat) (stores : Bool)
    (s : State) : State :=
  if lanes.isEmpty then s
  else checked ask (accessBytes i) va lanes (destReg i) kind i
    (fun pages s => pushOp i ctr lanes (fun l => [va l, data l]) pages (if stores then storing s else s)) s

/-- A counted scratch operation issued. -/
def issueScratch (i : Instr) (ctr : Nat) (lanes : List Nat) (off data : Nat → Nat) (stores : Bool) (s : State) : State :=
  if lanes.isEmpty then s
  else checkedScratch (accessBytes i) off lanes (destReg i) i
    (fun pages s => pushOp i ctr lanes (fun l => [off l, data l]) pages (if stores then storing s else s)) s

/-- LD (R208). -/
def execLd (f : MF) (s : State) : Out :=
  .next (issueGlobal (.ld f) 0 0 { need := .load } s.w.lanes
    (globalAddr s.w f.a (f.offset (offUnit f.bytes))) (fun _ => 0) false s)

/-- ST (R208). -/
def execSt (f : MF) (s : State) : Out :=
  .next (issueGlobal (.st f) 1 1 { need := .store, write := true } s.w.lanes
    (globalAddr s.w f.a (f.offset (offUnit f.bytes))) (fun l => storeData s.w l f.d f.bytes) true s)

/-- LDS (R208). -/
def execLds (f : MF) (s : State) : Out :=
  .next (issueScratch (.lds f) 0 s.w.lanes (scratchOff s.w f.a (f.offset (offUnit f.bytes))) (fun _ => 0) false s)

/-- STS (R208). -/
def execSts (f : MF) (s : State) : Out :=
  .next (issueScratch (.sts f) 1 s.w.lanes (scratchOff s.w f.a (f.offset (offUnit f.bytes)))
    (fun l => storeData s.w l f.d f.bytes) true s)

/-- SLD (R208): one access, of the lowest-numbered ACTIVE lane. -/
def execSld (f : MF) (s : State) : Out :=
  .next (issueGlobal (.sld f) 0 0 { need := .load } (s.w.lanes.take 1)
    (fun _ => (s.w.spair f.a + f.offset (offUnit f.bytes)).toNat) (fun _ => 0) false s)

/-- FESET (R214). -/
def execFeset (f : MF) (s : State) : Out :=
  .next (if f.w == 1 then
      issueScratch (.feset f) 1 s.w.lanes (scratchOff s.w f.a (f.offset 4)) (fun l => (s.w.vreg l f.d).toNat) true s
    else issueGlobal (.feset f) 1 1 { need := .store, fe := true, write := true } s.w.lanes
      (globalAddr s.w f.a (f.offset 4)) (fun l => (s.w.vreg l f.d).toNat) true s)

/-- FEGET (R214). -/
def execFeget (f : MF) (s : State) : Out :=
  .next (if f.w == 1 then
      issueScratch (.feget f) 0 s.w.lanes (scratchOff s.w f.a (f.offset 4)) (fun _ => 0) false s
    else issueGlobal (.feget f) 0 0 { need := .load, fe := true } s.w.lanes
      (globalAddr s.w f.a (f.offset 4)) (fun _ => 0) false s)

/-! ## Atomics and reductions (R222-R226) -/

/-- The global addresses of an AM word. -/
def amAddr (w : Wave) (f : AM) : Nat → Nat := globalAddr w f.a f.offset
/-- The scratch offsets of an AM word. -/
def amOff (w : Wave) (f : AM) : Nat → Nat := scratchOff w f.a f.offset

/-- ATOM (R223). -/
def execAtom (f : AM) (s : State) : Out :=
  .next (issueGlobal (.atom f) 0 2 { need := .rmw, write := true, spec := true } s.w.lanes (amAddr s.w f)
    (fun l => storeData s.w l f.b (rmwBytes (.atom f))) true s)

/-- ATOMF (R224). -/
def execAtomf (f : AM) (s : State) : Out :=
  .next (issueGlobal (.atomf f) 0 2 { need := .rmw, write := true, spec := true } s.w.lanes (amAddr s.w f)
    (fun l => storeData s.w l f.b 4) true s)

/-- CAS (R225); the data are the expected value and, above it, the new one. -/
def execCas (f : AM) (s : State) : Out :=
  .next (issueGlobal (.cas f) 0 2 { need := .rmw, write := true, spec := true } s.w.lanes (amAddr s.w f)
    (fun l => storeData s.w l f.b (2 * rmwBytes (.cas f))) true s)

/-- RED (R223). -/
def execRed (f : AM) (s : State) : Out :=
  .next (issueGlobal (.red f) 1 2 { need := .rmw, write := true } s.w.lanes (amAddr s.w f)
    (fun l => storeData s.w l f.b (rmwBytes (.red f))) true s)

/-- REDF (R224). -/
def execRedf (f : AM) (s : State) : Out :=
  .next (issueGlobal (.redf f) 1 2 { need := .rmw, write := true } s.w.lanes (amAddr s.w f)
    (fun l => storeData s.w l f.b 4) true s)

/-- VISMIN (R226). -/
def execVismin (f : AM) (s : State) : Out :=
  .next (if f.ax.aop == 1 then
      issueScratch (.vismin f) 1 s.w.lanes (amOff s.w f) (fun l => storeData s.w l f.b 8) true s
    else issueGlobal (.vismin f) 1 2 { need := .rmw, write := true } s.w.lanes (amAddr s.w f)
      (fun l => storeData s.w l f.b 8) true s)

/-- ATOMS (R223). -/
def execAtoms (f : AM) (s : State) : Out :=
  .next (issueScratch (.atoms f) 0 s.w.lanes (amOff s.w f) (fun l => storeData s.w l f.b (rmwBytes (.atoms f))) true s)

/-- CASS (R225). -/
def execCass (f : AM) (s : State) : Out :=
  .next (issueScratch (.cass f) 0 s.w.lanes (amOff s.w f)
    (fun l => storeData s.w l f.b (2 * rmwBytes (.cass f))) true s)

/-! ## FENCE and bindings (R209, R210) -/

/-- FENCE (R209): the wave is held until its earlier accesses are performed; the combining buffers of the core drain
(R180); the release part, then the acquire part. -/
def execFence (f : MF) (s : State) : Out :=
  .next (if s.w.idle then s
    else if !releaseReady s s.w.ops {} then holdAgain (.fence f) s
    else
      let core := s.w.core
      let s := if releases f.m.order then releaseNow f.m.scope {} s
        else drain (fun p => p.core == core && p.buf != 0) s
      if acquires f.m.order then acquireNow s.w.core f.m.scope {} s else s)

/-- R210: the status of BIND. -/
def bindStatus (bs : List Binding) (base len word : Nat) : Nat :=
  let meets := fun (b : Binding) => base < b.base + b.len && b.base < base + len
  if base % 128 != 0 || len % 128 != 0 || len == 0 || 2 ^ 52 < base + len || word % 4 != 0 then 3
  else if 64 ≤ bs.length then 1
  else if bs.any (fun b => meets b || (base ≤ b.word && b.word < base + len)
      || (b.base ≤ word && word < b.base + b.len)) || (base ≤ word && word < base + len) then 2
  else 0

/-- R210: the bindings of the focused wave's context. -/
def myBindings (s : State) : List Binding := ((s.context s.ctxId).map Context.bindings).getD []

/-- BIND (R210). -/
def execBind (f : V3) (s : State) : Out :=
  let w := s.w
  let base := (w.spair f.a).toNat
  let len := (w.sreg f.d).toNat
  let word := (w.spair f.b).toNat
  let st := bindStatus (myBindings s) base len word
  .next (if w.idle then s
    else if w.version != 0 then raise .specExt w.active (dstOf 2 f.d) 0 s
    else
      let s1 := if st == 0 then
          updContext s.ctxId (fun c => { c with bindings := c.bindings ++ [{ base := base, len := len, word := word }] }) s
        else s
      writeS f.d (BitVec.ofNat 32 st) s1)

/-- UNBIND (R210). -/
def execUnbind (f : V3) (s : State) : Out :=
  let w := s.w
  let base := (w.spair f.a).toNat
  let found := (myBindings s).any (·.base == base)
  .next (if w.idle then s
    else if w.version != 0 then raise .specExt w.active (dstOf 2 f.d) 0 s
    else
      writeS f.d (if found then 0 else 4)
        (updContext s.ctxId (fun c => { c with bindings := c.bindings.filter (·.base != base) }) s))

/-! ## Cache and instruction-stream control (R227-R231) -/

/-- R227: the lines of a cache-range instruction, as the virtual addresses of their starts. -/
def rangeLines (w : Wave) (f : MF) : List Nat :=
  let a := (w.spair f.a + (match f.mx with
    | none => 0
    | some x => (BitVec.ofNat 24 x.off24).signExtend 64)).toNat
  let n := if f.mx.isSome then 1 else f.off + 1
  (List.range n).map fun k => a / 1024 * 1024 + 1024 * k

/-- R203, R227: the failure of the first line that fails. -/
def rangeFail (s : State) (need : Need) : List Nat → Option (Nat × Check)
  | [] => none
  | va :: vs => match checkGlobal s { need := need } 4 va with
    | .ok _ => rangeFail s need vs
    | r => some (va, r)

/-- The physical line numbers and pages of a range that passed its checks. -/
def rangePages (s : State) (need : Need) (vs : List Nat) : List (Nat × Leaf) :=
  vs.filterMap fun va => match checkGlobal s { need := need } 4 va with
    | .ok leaf => some (leaf.addr va / 1024, leaf)
    | _ => none

/-- R227: a cache-range instruction: once per issue, every page checked first; a trap names every ACTIVE lane (R97).
DESIGN CHOICE (log entry 74): TRAPADDR of a failed check is the start of the 1,024-byte line that fails. -/
def cacheRange (i : Instr) (f : MF) (need : Need) (dst : Nat) (act : List Nat → List (Nat × Leaf) → State → State)
    (s : State) : State :=
  let w := s.w
  if w.idle then s
  else
    let vs := rangeLines w f
    match rangeFail s need vs with
    | some (va, .trap c) => raise c w.active dst (BitVec.ofNat 64 va) s
    | some (va, .replay level) => holdFault (some i) va (if need.x then 3 else 0) level s
    | _ => act vs (rangePages s need vs) s

/-- R182: whether a set keeps a way free of pins and holds. -/
def setRoom (s : State) (num : Nat) : Bool :=
  let alive := ((List.range 12).filter fun w => !dieDead s (dieOf num w)).length
  ((setLines s num).filter fun l => !l.pins.isEmpty || l.held).length < alive

/-- R182: lines pinned for a context, fetched where absent; none when one cannot be. -/
def pinLines (ctx : Nat) : List Nat → State → Option State
  | [], s => some s
  | n :: ns, s =>
    let s := touchLine s n 0
    if s.lines.any (·.num == n) then
      let s := { s with lines := updFirst (·.num == n) (fun l => { l with pins := addOnce ctx l.pins }) s.lines }
      if setRoom s n then pinLines ctx ns s else none
    else none

/-- R182: the lines that a context holds pinned. -/
def pinCount (s : State) (ctx : Nat) : Nat := (s.lines.filter (·.pins.contains ctx)).length

/-- CPIN (R228). -/
def execCpin (f : MF) (s : State) : Out :=
  .next (cacheRange (.cpin f) f .load (dstOf 3 f.d) (fun _ ps s =>
    let quota := ((s.context s.ctxId).map Context.pinQuota).getD 0
    let r := if ps.all (fun p => p.2.cached) then pinLines s.ctxId (ps.map Prod.fst) s else none
    match r with
    | some t =>
      if pinCount t s.ctxId ≤ quota then writeP f.d (fun _ => true) t else writeP f.d (fun _ => false) s
    | none => writeP f.d (fun _ => false) s) s)

/-- CUNPIN (R227). -/
def execCunpin (f : MF) (s : State) : Out :=
  .next (cacheRange (.cunpin f) f .load 0 (fun _ ps s =>
    { s with lines := s.lines.map fun l =>
        if ps.any (·.1 == l.num) then { l with pins := l.pins.filter (· != s.ctxId) } else l }) s)

/-- R229: the committed dirty sectors of lines written back. -/
def writeBack (nums : List Nat) (s : State) : State :=
  { s with lines := s.lines.map fun l => if nums.contains l.num then { l with dirty := 0 } else l }

/-- CWB (R229). -/
def execCwb (f : MF) (s : State) : Out :=
  .next (cacheRange (.cwb f) f .load 0 (fun _ ps s =>
    let nums := ps.map Prod.fst
    let touches := fun (o : Op) => o.perf != o.lanes && o.ctr != 2 && writesMem o.i && !onScratch o.i
      && o.sites.any fun a => nums.contains (a.2 / 1024)
    if s.w.ops.any touches then holdAgain (.cwb f) s
    else
      let core := s.w.core
      let s := drain (fun p => p.core == core && nums.contains (p.pa / 1024)) s
      writeBack nums (flushUpdates (fun u => u.core == core && nums.contains (u.pa / 1024)) s)) s)

/-- CINV (R227). -/
def execCinv (f : MF) (s : State) : Out :=
  .next (cacheRange (.cinv f) f .load 0 (fun _ ps s =>
    let nums := ps.map Prod.fst
    let core := s.w.core
    let s := flushUpdates (fun u => u.core == core && nums.contains (u.pa / 1024)) s
    { s with l1 := s.l1.filter fun l => !(l.core == core && nums.contains (l.num / 8)) }) s)

/-- ICINV (R227). -/
def execIcinv (f : MF) (s : State) : Out :=
  .next (cacheRange (.icinv f) f .fetch 0 (fun _ ps s =>
    let nums := ps.map Prod.fst
    { s with icache := s.icache.filter fun l => !nums.contains (l.num / 8) }) s)

/-- FETCHBAR (R230): the words the wave holds fetched are dropped. -/
def execFetchbar (_ : SF) (s : State) : Out := .next { s with w := { s.w with fetched := [] } }

/-- R231: one lane's prefetch; a lane that fails a check is dropped. DESIGN CHOICE (log entry 74): OFF7 counts units of 4
bytes, and the address needs no alignment, as W names a level and the manual gives PREF no access width. -/
def prefetch (f : MF) (l : Nat) (s : State) : State :=
  let va := globalAddr s.w f.a (f.offset 4) l
  match checkGlobal s { need := .load } 1 va with
  | .ok leaf =>
    let pa := leaf.addr va
    if (viewError s s.ctxId s.w.version leaf.ver pa).isSome then s
    else if f.w == 1 then (if leaf.cached then touchLine s (pa / 1024) 0 else s)
    else (readL1 s.w.core s.ctxId s.w.version leaf va pa 1 false s).2
  | _ => s

/-- PREF (R231). -/
def execPref (f : MF) (s : State) : Out := .next (s.w.lanes.foldl (fun s l => prefetch f l s) s)

end Sys2Proof.Machine
end

