-- ==== Sys2Proof/Machine/Moves.lean ====
section
/-!
DEFINITION. Meanings of the immediate instructions, CVT, register access, the moves between lanes and scalars, the
cross-lane instructions and the scalar instructions (R128-R141).
-/

namespace Sys2Proof.Machine

/-- R128: the immediate of MOVI and SMOVI sign-extended for a pair. -/
def imm64 (imm : Nat) : DWord := (BitVec.ofNat 32 imm).signExtend 64

/-- MOVI (R128): an immediate into a register, or sign-extended into a pair. -/
def execMovi (f : RL) (s : State) : Out :=
  .next (if f.mod % 2 == 1 then writeVPair f.d (fun _ => imm64 f.imm) s
         else writeV f.d (fun _ => BitVec.ofNat 32 f.imm) s)

/-- IADDI (R128): a + imm. -/
def execIaddi (f : RI) (s : State) : Out := .next (writeV f.d (fun l => s.w.vreg l f.a + imm10 f.imm) s)

/-- LOGI (R128): a bitwise operation with an immediate. -/
def execLogi (f : RL) (s : State) : Out :=
  .next (writeV f.d (fun l => logiOp f.mod (s.w.vreg l f.a) (BitVec.ofNat 32 f.imm)) s)

/-- ICMPI (R128): a condition on a register and an immediate. -/
def execIcmpi (f : RI) (s : State) : Out :=
  .next (writeP (f.d % 8) (fun l => icond (f.d / 8) (s.w.vreg l f.a) (imm10 f.imm)) s)

/-- SMOVI (R128): an immediate into a scalar or a scalar pair. -/
def execSmovi (f : RL) (s : State) : Out :=
  .next (if f.mod % 2 == 1 then writeSPair f.d (imm64 f.imm) s else writeS f.d (BitVec.ofNat 32 f.imm) s)

/-- CVT (R129, R130): one element converted between formats. -/
def execCvt (f : RL) (s : State) : Out :=
  .next (fpResult f.d (fun l => cvtOp s.w.fpmode f.imm (s.w.vreg l f.a) (s.w.vreg l f.d)) s)

/-- SREG (R132): a special register read in every ACTIVE lane; a read of CLOCKLO latches CLOCKHI (R76). DESIGN CHOICE (log
entry 75): with ACTIVE empty nothing is read and nothing latched. -/
def execSreg (f : RI) (s : State) : Out :=
  let s1 := writeV f.d (fun l => specialReg s f.imm l) s
  .next (if f.imm == 0x00F && !s.w.idle then { s1 with w := { s1.w with clockHi := BitVec.ofNat 32 (s.now / 2 ^ 32) } }
         else s1)

/-- SRSET (R132, R60, R76): FPMODE or WAITBUDGET written; a read-only register raises PRIV, and FPMODE with an RND
outside 1-5 raises RSVD_FIELD. DESIGN CHOICE (log entry 75): with ACTIVE empty it writes and raises nothing. -/
def execSrset (f : RI) (s : State) : Out :=
  let v := s.w.sreg f.a
  .next (if s.w.idle then s
    else if f.imm == 0x011 then
      if fpRndOk v then { s with w := { s.w with fpmode := v &&& fpMask } } else raise .rsvdField s.w.active 0 0 s
    else if f.imm == 0x01B then { s with w := { s.w with waitBudget := v } }
    else raise .priv s.w.active 0 0 s)

/-- R133: the register number that VXRD or VXWR forms in a lane. -/
def indexedReg (w : Wave) (base : Nat) (f : V3) (l : Nat) : Nat := (BitVec.ofNat 32 base + w.srcB f l).toNat

/-- R133: the lanes whose register number is out of range or odd for a pair. -/
def indexedBad (w : Wave) (base : Nat) (f : V3) : Lanes :=
  laneSet fun l => w.active.getLsbD l &&
    (w.nregs ≤ indexedReg w base f l || (f.t == 1 && indexedReg w base f l % 2 == 1))

/-- VXRD (R133): a register named by a number held in a register is read. -/
def execVxrd (f : V3) (s : State) : Out :=
  let bad := indexedBad s.w f.a f
  .next (if bad != 0 then raise .regRange bad (dstOf 1 f.d) 0 s
    else if f.t == 1 then writeVPair f.d (fun l => s.w.vpair l (indexedReg s.w f.a f l)) s
    else writeV f.d (fun l => s.w.vreg l (indexedReg s.w f.a f l)) s)

/-- R133: each lane's own register written. -/
def writeIndexed (reg : Nat → Nat) (val : Nat → Word) : List Nat → Wave → Wave
  | [], w => w
  | l :: ls, w => writeIndexed reg val ls (w.setV l (reg l) (val l))

/-- VXWR (R133): a register named by a number held in a register is written. -/
def execVxwr (f : V3) (s : State) : Out :=
  let w := s.w
  let bad := indexedBad w f.d f
  let reg := indexedReg w f.d f
  .next (if bad != 0 then raise .regRange bad 0 0 s
    else
      if f.t == 1 then
        let v := fun l => w.pairA f l
        let w1 := writeIndexed reg (fun l => (v l).setWidth 32) w.lanes w
        { s with w := writeIndexed (fun l => reg l + 1) (fun l => (v l >>> 32).setWidth 32) w.lanes w1 }
      else { s with w := writeIndexed reg (fun l => w.srcA f l) w.lanes w })

/-- VMOVS (R134): a lane's value into a scalar. -/
def execVmovs (f : V3) (s : State) : Out :=
  let j := wbits (s.w.sreg f.b) 0 6
  let v := if f.t == 1 then s.w.vreg s.w.leader f.a
    else if s.w.live.getLsbD j then s.w.vreg j f.a else 0
  .next (writeS f.d v s)

/-- SMOVV (R134): a scalar into one ACTIVE lane, or into every one. -/
def execSmovv (f : V3) (s : State) : Out :=
  let j := wbits (s.w.sreg f.b) 0 6
  let v := s.w.sreg f.a
  .next (if f.t == 1 then writeV f.d (fun _ => v) s
    else if s.w.active.getLsbD j then { s with w := s.w.setV j f.d v } else s)

/-! ## Cross-lane instructions (R135-R139) -/

/-- R136: the source lane of SHFL, when it lies below WIDTH. -/
def shflLane (w : Wave) (f : V3) (l : Nat) : Option Nat :=
  let k := (w.srcB f l).toNat
  let j : Option Nat := match f.t with
    | 0 => some k
    | 1 => if k ≤ l then some (l - k) else none
    | 2 => some (l + k)
    | _ => some (Nat.xor l k)
  j.filter (· < w.width)

/-- R136: the value SHFL delivers and whether it is valid. -/
def shflValue (w : Wave) (f : V3) (l : Nat) : Word × Bool := match shflLane w f l with
  | none => (w.vreg l f.a, false)
  | some j => if (w.partSet f).getLsbD j then (w.vreg j f.a, true) else (0, false)

/-- SHFL (R136). -/
def execShfl (f : V3) (s : State) : Out :=
  .next (crossLane (.shfl f) f (fun s =>
    let s1 := writeV f.d (fun l => (shflValue s.w f l).1) s
    if f.xw.isSome && f.x.c / 16 != 7 then writeP (f.x.c / 16) (fun l => (shflValue s.w f l).2) s1 else s1) s)

/-- R137: the participating lanes in which the operand predicate of VOTE is true. -/
def ballot (w : Wave) (f : V3) : Lanes :=
  w.partSet f &&& (if f.x.nega then ~~~w.preds (f.a % 8) else w.preds (f.a % 8))

/-- VOTE (R137). -/
def execVote (f : V3) (s : State) : Out :=
  .next (crossLane (.vote f) f (fun s =>
    let yes := ballot s.w f
    let all := yes == s.w.partSet f
    match f.t with
    | 0 => writeP (f.d % 8) (fun _ => all) s
    | 1 => writeP (f.d % 8) (fun _ => yes != 0) s
    | 2 => writeVPair f.d (fun _ => yes) s
    | _ => writeP (f.d % 8) (fun _ => all || yes == 0) s) s)

/-- R138: one combination of two lanes' values; the floating-point ones raise exceptions. -/
def comb (m : Word) (f : V3) (a b : Word × Exc) : Word × Exc :=
  if f.b < 8 then (redInt f.b a.1 b.1, a.2 ||| b.2)
  else
    let r := redStep m f.x.rnd f.b a.1.toNat b.1.toNat
    (BitVec.ofNat 32 r.1, a.2 ||| b.2 ||| r.2)

/-- R138: a lane's value as REDUX and SCANX take it; the floating-point operations apply DAZ. -/
def redSource (m : Word) (f : V3) (x : Word) : Word × Exc :=
  if f.b < 8 then (x, 0) else (BitVec.ofNat 32 (FFmt.f32.source (fpDaz m) false false x.toNat), 0)

/-- R138: a combination with an absent entry gives the other. -/
def combOpt (m : Word) (f : V3) : Option (Word × Exc) → Option (Word × Exc) → Option (Word × Exc)
  | none, b => b
  | a, none => a
  | some a, some b => some (comb m f a b)

/-- R138: one level of the tree of REDUX. -/
def redLevel (m : Word) (f : V3) : List (Option (Word × Exc)) → List (Option (Word × Exc))
  | a :: b :: rest => combOpt m f a b :: redLevel m f rest
  | rest => rest

/-- R138: the result of REDUX over the participating lanes; the identity when there is none. DESIGN CHOICE (log entry
65): a signalling NaN that is the only value stays as it is and raises nothing, since no step combines it. -/
def reduxValue (w : Wave) (f : V3) : Word × Exc :=
  let p := w.partSet f
  let leaves := (List.range 64).map fun i =>
    if p.getLsbD i then some (redSource w.fpmode f (w.vreg i f.a)) else none
  let lv := redLevel w.fpmode f
  match (lv (lv (lv (lv (lv (lv leaves)))))).head? with
  | some (some r) => r
  | _ => (redIdentity f.b, 0)

/-- REDUX (R138). -/
def execRedux (f : V3) (s : State) : Out :=
  .next (crossLane (.redux f) f (fun s =>
    let r := reduxValue s.w f
    let s1 := if f.t == 1 then writeS f.d r.1 s else writeV f.d (fun _ => r.1) s
    if r.2 == 0 then s1 else completeFp (fun _ => r.2) (dstOf (if f.t == 1 then 2 else 1) f.d) s1) s)

/-- R138: the combination of a list of lanes in ascending order; the identity when it is empty. DESIGN CHOICE (log entry
65): a signalling NaN that is the only value stays as it is and raises nothing, since no step combines it. -/
def scanValue (w : Wave) (f : V3) (l : Nat) : Word × Exc :=
  let p := w.partSet f
  let js := (lanesOf p).filter fun j => if f.t == 1 then j < l else j ≤ l
  match js with
  | [] => (redIdentity f.b, 0)
  | j :: js => js.foldl (fun acc k => comb w.fpmode f acc (redSource w.fpmode f (w.vreg k f.a)))
      (redSource w.fpmode f (w.vreg j f.a))

/-- SCANX (R138). -/
def execScanx (f : V3) (s : State) : Out :=
  .next (crossLane (.scanx f) f (fun s =>
    let e := s.w.lanes.foldl (fun x l => x ||| (scanValue s.w f l).2) (0 : Exc)
    let s1 := writeV f.d (fun l => (scanValue s.w f l).1) s
    if e == 0 then s1 else completeFp (fun _ => e) (dstOf 1 f.d) s1) s)

/-- MATCH (R139): the participating lanes whose value equals this lane's. -/
def execMatchx (f : V3) (s : State) : Out :=
  .next (crossLane (.matchx f) f (fun s =>
    let w := s.w
    let same := fun l j => if f.t == 1 then w.pairA f l == w.pairA f j else w.srcA f l == w.srcA f j
    writeVPair f.d (fun l => laneSet fun j => (w.partSet f).getLsbD j && same l j) s) s)

/-- ELECT (R137): true in the lowest-numbered ACTIVE lane. -/
def execElect (f : V3) (s : State) : Out :=
  .next (crossLane (.elect f) f (fun s => writeP (f.d % 8) (fun l => l == s.w.leader) s) s)

/-! ## Scalar instructions (R140, R141) -/

/-- SALU (R140): once per issue. -/
def execSalu (f : SF) (s : State) : Out := .next (writeS f.sd (saluOp f.imm (s.w.sreg f.sa) (s.w.sreg f.sb)) s)

/-- SCMP (R141): a condition on two scalars into a predicate of every ACTIVE lane. -/
def execScmp (f : SF) (s : State) : Out :=
  .next (writeP (f.sd % 8) (fun _ => icond f.imm (s.w.sreg f.sa) (s.w.sreg f.sb)) s)

end Sys2Proof.Machine
end

