-- ==== Sys2Proof/Machine/Resolve.lean ====
section
/-!
DEFINITION. The resolution of translation faults (R173, R175, R283, R384).
-/

namespace Sys2Proof.Machine

/-- R173: the focused wave, held at a fetch, takes MEM_XLATE. -/
def refuseFetch (va : Nat) (s : State) : State :=
  let w := s.w
  match w.clause with
  | some c => headerTrap .memXlate c.issue c.hdr c.head va s
  | none =>
    let lanes := if w.fast then w.prev else ((w.compare).map Prod.snd).getD 0
    let pc := w.pcOf (lowest lanes)
    headerTrap .memXlate lanes pc (SMap.get 0 w.fetched pc.toNat) va s

/-- R173, R187: the focused wave, held at the re-evaluation of a lane, takes MEM_XLATE for it. -/
def refuseLane (lane : Nat) (s : State) : State :=
  let s := { s with w := { s.w with hold := .none } }
  match s.w.parks.find? (·.lane == lane) with
  | some p => parkTrap p .memXlate s
  | none => s

/-- R173: the focused wave is held at a fault that has been resolved. -/
def resolveWave (refuse : Bool) (s : State) : State := match s.w.hold with
  | .fault again _ va =>
    if !refuse then
      { s with w := { s.w with hold := match again with
          | some i => .again i
          | none => .none } }
    else match again with
      | none => refuseFetch va s
      | some (.evReevaluation lane) => refuseLane lane s
      | some i => { s with w := { s.w with hold := .again i, refused := some va } }
  | _ => s

/-- R273, R290: a stream parked at the fetch of the word at an address whose fault has been resolved. -/
def resolveStream (x : Stream) (addr : Nat) (refuse : Bool) (s : State) : State :=
  if refuse then streamFault x.cohort x.run .memXlate addr 0 addr s
  else updStream x.cohort (fun x => { x with parked := none }) s

/-- R283: an engine word parked at a fault that has been resolved. -/
def resolveEngine (w : EngineWord) (addr : Nat) (refuse : Bool) (s : State) : State :=
  if refuse then engineFault w .memXlate addr s else updWord w (fun e => { e with parked := none }) s

/-- Whether a wave is held at the fault of a token. -/
def heldAt (token : Nat) (w : Wave) : Bool := match w.hold with
  | .fault _ t _ => t == token
  | _ => false

/-- R173, R175: what a resolution does to the holder of a token, if it is still there. -/
def resolveHolder (token addr : Nat) (refuse : Bool) (s : State) : State :=
  if (allWaves s).any (heldAt token) then eachWave (heldAt token) (resolveWave refuse) s
  else match ((if s.st.on then [s.st] else []) ++ s.streams).find? (fun x => x.parked == some token) with
    | some x => resolveStream x addr refuse s
    | none => match s.engine.find? (fun e => e.parked == some token) with
      | some w => resolveEngine w addr refuse s
      | none => s

/-- R173, R175: the pending record of a token that satisfies a test is resolved; whether there was one. -/
def resolve (mine : FaultRec → Bool) (token : Nat) (refuse : Bool) (s : State) : Bool × State :=
  match s.faults.find? (fun r => r.replay && r.written && r.token == token && mine r) with
  | none => (false, s)
  | some r =>
    let s := { s with faults := s.faults.filter fun x => !(x.replay && x.written && x.token == token && mine x) }
    (true, resolveHolder token (field r.bytes 0 8) refuse s)

end Sys2Proof.Machine
end

