-- ==== Sys2Proof/Machine/Packets.lean ====
section
/-!
DEFINITION. Dispatch packets as the dispatcher takes them (R380-R384, R398) and continuation pools (R399-R402).
-/

namespace Sys2Proof.Machine

/-! ## Taking a packet (R380, R396) -/

/-- The packet that is the next work of a stack's dispatcher, when its type satisfies a test, leaves its ready list. -/
def takePacket (stack : Nat) (type : Nat → Bool) (act : Packet → State → State) (s : State) : State :=
  match nextWork s stack with
  | some (.packet p) => if type p.type then act p (leaveReady p s) else s
  | _ => s

/-- R396: a whole packet is one placement. -/
def takeWhole (stack : Nat) (type : Nat → Bool) (act : Packet → State → State) (s : State) : State :=
  takePacket stack type (fun p s => act p (countPlacement stack p s)) s

/-- A completion that waits at a stage (R383, R384). -/
def completeAt (p : Packet) (stage : Nat) (s : State) : State :=
  { s with completions := s.completions ++ [{ packet := p, status := 0, cause := 0, version := 0, stage := stage }] }

/-- NOP_PACKET (R380): a NOP completes at once; a packet of type 6 or above is refused. -/
def execEvNopPacket (stack : Nat) (s : State) : Out :=
  .next (takeWhole stack (fun t => t == 0 || 6 ≤ t) (fun p s => complete p (if p.type == 0 then 0 else 1) 0 0 s) s)

/-! ## Continuation pools (R399-R402) -/

/-- R399: RING of a pool descriptor. -/
def poolRing (d : List Nat) : Nat := field d 0 8
/-- R399: RINGLOG2 of a pool descriptor. -/
def poolLog2 (d : List Nat) : Nat := field d 8 1 % 32
/-- R399: NBINS of a pool descriptor. -/
def poolBins (d : List Nat) : Nat := field d 9 1 % 128

/-- R399: a descriptor with a reserved bit set or a field out of range. -/
def poolBad (d : List Nat) : Bool :=
  field d 8 1 / 32 != 0 || field d 9 1 / 128 != 0 || field d 10 2 != 0 || (d.drop 28).any (· != 0)
    || poolRing d % 65536 != 0 || poolLog2 d < 5 || 20 < poolLog2 d || poolBins d == 0 || 64 < poolBins d

/-- R399: the descriptor's page is unversioned and permits R and W, and the ring's pages track full/empty bits. -/
def poolPages (s : State) (stack ctx va : Nat) (d : List Nat) : Bool :=
  let leaf := fun (a : Nat) (need : Need) => if 2 ^ 52 ≤ a then none else leafOf s (cpUnit stack) ctx a need
  (leaf va .rmw).any (fun l => !l.ver)
    && (List.range ((32 * 2 ^ poolLog2 d + 65535) / 65536)).all fun k =>
      (leaf (poolRing d + 65536 * k) .rmw).any Leaf.fe

/-- R399, R400: the descriptor of a pool launch, read and checked. -/
def readPool (p : Packet) (poola : Nat) (s : State) : Option (List Nat × State) :=
  if poola % 64 != 0 then none
  else match cpRead p.stack p.ctx 0 poola 64 s with
    | .error _ => none
    | .ok (d, s) => if poolBad d || !poolPages s p.stack p.ctx poola d then none else some (d, s)

/-- R400, R402: a bin is emitted: its records form a wave. -/
def emitBin (id b : Nat) (s : State) : State := match s.launch id with
  | none => s
  | some l =>
    let recs := SMap.get [] l.bins b
    if recs.isEmpty then s
    else
      let s := updLaunch id (fun l =>
        { l with bins := l.bins.filter (·.1 != b), count := l.count + 1
                 formedQueue := l.formedQueue ++ [{ number := l.count, recs := recs }] }) s
      match cpWrite l.packet.stack l.ctx (l.poolA + 24) (toBytes 4 (l.count + 1)) s with
      | .ok s => s
      | .error b => noteBad b s

/-- R402: every bin that holds a record is emitted, in ascending order. -/
def emitAll (id : Nat) (s : State) : State := (List.range 64).foldl (fun s b => emitBin id b s) s

/-- R400: the bin that holds most records, the lowest on a tie. -/
def fullestBin (bins : List (Nat × List (Nat × List Nat))) : Nat → Option Nat
  | 0 => none
  | b + 1 =>
    let n := fun (k : Nat) => (SMap.get [] bins k).length
    match fullestBin bins b with
    | none => some b
    | some c => if n c < n b then some b else some c

/-- R400: a record is placed in a bin. -/
def placeInBin (id nbins : Nat) (r : Nat × List Nat) (s : State) : State := match s.launch id with
  | none => s
  | some l =>
    let held := (List.range nbins).find? fun b => ((SMap.get [] l.bins b).head?).any (·.1 == r.1)
    let empty := (List.range nbins).find? fun b => (SMap.get [] l.bins b).isEmpty
    let (b, s) := match held, empty with
      | some b, _ => (b, s)
      | none, some b => (b, s)
      | none, none => ((fullestBin l.bins nbins).getD 0, emitBin id ((fullestBin l.bins nbins).getD 0) s)
    let s := updLaunch id (fun l => { l with bins := SMap.set [] l.bins b (SMap.get [] l.bins b ++ [r]) }) s
    if ((s.launch id).map fun l => (SMap.get [] l.bins b).length) == some l.kernel.width then emitBin id b s else s

/-- R400: a record of 32 bytes: its PC and payload. -/
def readRec (bs : List Nat) : Nat × List Nat := (field bs 0 8, (List.range 6).map fun k => field bs (8 + 4 * k) 4)

/-- R400: the front end consumes the record at RIDX, when its gate is full and every access it makes is permitted. -/
def consumeRecord (l : Launch) (d : List Nat) (s : State) : State :=
  let stack := l.packet.stack
  let ridx := field d 16 4
  let va := poolRing d + 32 * (ridx % 2 ^ poolLog2 d)
  match leafOf s (cpUnit stack) l.ctx va .rmw with
  | none => s
  | some leaf =>
    let gate := leaf.addr va + 28
    if !leaf.fe || (cpBad s stack l.ctx l.version .rmw va 32).isSome || !viewFe s l.ctx l.version leaf.ver gate then s
    else
      let (bs, s) := readCp stack l.ctx l.version .rmw [(va, 32)] s
      let s := viewSetFe l.ctx l.version leaf.ver leaf.cached gate false s
      match cpWrite stack l.ctx (l.poolA + 16) (toBytes 4 (ridx + 1)) s with
      | .error b => noteBad b s
      | .ok s => placeInBin l.id (poolBins d) (readRec bs) s

/-- The descriptor of a pool as it stands. -/
def poolDesc (l : Launch) (s : State) : Option (List Nat) := match cpRead l.packet.stack l.ctx 0 l.poolA 64 s with
  | .ok (d, _) => some d
  | .error _ => none

/-- R371: whether a pool launch's version is LIVE. -/
def poolLive (s : State) (l : Launch) : Bool := live s l.ctx l.version && l.status != 3

/-- POOL_RECORD (R400): the front end of a pool launch consumes its next record. -/
def execEvPoolRecord (launch : Nat) (s : State) : Out :=
  .next (match s.launch launch with
    | none => s
    | some l =>
      if !l.pool || !poolLive s l then s
      else match poolDesc l s with
        | none => s
        | some d => consumeRecord l d s)

/-- POOL_FLUSH (R402): a FLUSH write is noticed. -/
def execEvPoolFlush (launch : Nat) (s : State) : Out :=
  .next (match s.launch launch with
    | none => s
    | some l =>
      if l.pool && l.flush then emitAll launch (updLaunch launch (fun l => { l with flush := false }) s) else s)

/-- R402: whether no wave of a launch is resident or awaits placement. -/
def poolIdle (s : State) (l : Launch) : Bool :=
  !s.cohorts.any (·.launch == l.id) && l.waiting.isEmpty && l.formedQueue.isEmpty

/-- POOL_QUIESCENCE (R402, R371): a quiescent pool emits its bins, or completes; one whose version is squashed completes
when no wave of it is resident. -/
def execEvPoolQuiescence (launch : Nat) (s : State) : Out :=
  .next (match s.launch launch with
    | none => s
    | some l =>
      if !l.pool then s
      else if !poolLive s l then
        if s.cohorts.any (·.launch == l.id) then s else endLaunch { l with status := 3, cause := 0, version := 0 } s
      else match poolDesc l s with
        | none => s
        | some d =>
          if field d 12 4 != field d 16 4 || !poolIdle s l then s
          else if l.bins.isEmpty then endLaunch l s
          else emitAll launch s)

/-! ## Kernel launches (R381, R398) -/

/-- R381: the launch group count of a packet. -/
def Packet.groups (p : Packet) : Nat := field p.bytes 4 4 * field p.bytes 8 2 * field p.bytes 10 2
/-- R381: POOL. -/
def Packet.pool (p : Packet) : Bool := flag (field p.bytes 1 1) 4
/-- R381: KHDR. -/
def Packet.khdr (p : Packet) : Nat := field p.bytes 16 8
/-- R381: POOLA. -/
def Packet.poola (p : Packet) : Nat := field p.bytes 32 8

/-- R381: a launch packet that is malformed. -/
def launchBad (p : Packet) : Bool :=
  field p.bytes 0 4 / 2 ^ 13 != 0 || field p.bytes 12 4 != 0 || field p.bytes 24 8 % 8 != 0 || field p.bytes 40 8 != 0
    || (if p.pool then field p.bytes 4 8 != 0 else p.poola != 0 || p.groups == 0 || 2 ^ 32 ≤ p.groups)

/-- R381, R93: the record of a launch. -/
def newLaunch (p : Packet) (k : Kernel) (version id : Nat) : Launch :=
  { id := id, ctx := p.ctx, packet := p, kernel := k, params := BitVec.ofNat 64 (field p.bytes 24 8), version := version
    pool := p.pool, gridX := field p.bytes 4 4, gridY := field p.bytes 8 2, gridZ := field p.bytes 10 2
    count := p.groups, nextGroup := 0, completed := 0, waiting := [], drained := false, status := 0, cause := 0
    poolA := p.poola, bins := [], formedQueue := [], flush := false, flushPa := 0, order := id }

/-- A launch accepted: a grid, or a pool whose descriptor passes its checks. -/
def acceptLaunch (p : Packet) (k : Kernel) (v : Nat) (s : State) : State :=
  let l := newLaunch p k v s.nextId
  let s := { s with nextId := s.nextId + 1 }
  if !p.pool then { s with launches := s.launches ++ [l] }
  else match readPool p p.poola s with
    | none => complete p 1 0 v s
    | some (d, s) =>
      let pa := ((leafOf s (cpUnit p.stack) p.ctx (p.poola + 20) .load).map fun x => x.addr (p.poola + 20) + 1).getD 0
      let n := field d 24 4
      { s with launches := s.launches ++ [{ l with count := n, nextGroup := n, completed := n, flushPa := pa }] }

/-- R47, R176, R381, R398: a launch packet is taken and its kernel header read and checked. -/
def takeLaunch (p : Packet) (s : State) : State :=
  match versionNow s p.ctx p.version with
  | .error st => complete p st 0 0 s
  | .ok v =>
    if launchBad p then complete p 1 0 v s
    else match cpRead p.stack p.ctx v p.khdr 64 s with
      | .error b => complete p 1 0 v (noteBad b s)
      | .ok (h, s) =>
        let code := kernelRefusal p.khdr h p.pool
        if code == 0 then acceptLaunch p (readKernel p.khdr h) v s
        else complete p 1 0 v
          (postFault p.stack { addr := p.khdr, ctx := p.ctx, version := v, kind := 7, cause := code, report := 1 } s)

/-- KERNEL_LAUNCH (R381). -/
def execEvKernelLaunch (stack : Nat) (s : State) : Out := .next (takePacket stack (· == 1) takeLaunch s)

/-! ## Copies (R382) -/

/-- R382, R398: a copy packet given to the copy engine of a core. -/
def takeCopy (core : Nat) (p : Packet) (s : State) : State :=
  match versionNow s p.ctx p.version, copyRefusal s p with
  | .error st, _ => complete p st 0 0 s
  | .ok v, some st => complete p st 0 v s
  | .ok v, none =>
    let id := s.nextId
    let c : Cmd :=
      { id := id, kind := 3, core := core, wave := 0, batch := 0, cohort := 0, ctx := p.ctx, tag := v, owner := 0, bar := 0
        nums := [field p.bytes 8 8, field p.bytes 16 8] ++ (List.range 5).map fun d => field p.bytes (24 + 4 * d) 4
        packet := some p }
    { s with nextId := id + 1, cmds := s.cmds ++ [c] }

/-- COPY_PACKET (R382). -/
def execEvCopyPacket (stack core : Nat) (s : State) : Out :=
  .next (match nextWork s stack with
    | some (.packet p) => if copyCore s p core || (copyRefusal s p).isSome then takeWhole stack (· == 2) (takeCopy core) s else s
    | _ => s)

/-! ## Commits, invalidations and resolutions (R383, R384) -/

/-- R383: a commit or squash packet performed. -/
def takeCommit (p : Packet) (s : State) : State :=
  let v := p.version
  let op := field p.bytes 1 1 / 16 % 4
  if field p.bytes 0 48 / 2 ^ 14 != 0 || 2 ≤ op || v == 0 || !live s p.ctx v then complete p 1 0 0 s
  else if op == 1 then complete p 0 0 0 (squashTree p.ctx v 1 s)
  else
    let parent := (tagOf s p.ctx v).parent
    completeAt p (if parent == 0 then 16 + v else 0) (commitPoint p.ctx v s)

/-- COMMIT_PACKET (R383). -/
def execEvCommitPacket (stack : Nat) (s : State) : Out := .next (takeWhole stack (· == 3) takeCommit s)

/-- R177: every TLB drops its entries for a range of a context. -/
def dropTlb (ctx base len : Nat) (s : State) : State :=
  { s with tlb := s.tlb.filter fun t => !(t.ctx == ctx && base ≤ 65536 * t.vpn && 65536 * t.vpn < base + len) }

/-- R177, R384: an invalidation packet performed; it completes once the accesses under the old entries have been
performed. -/
def takeInvalidation (p : Packet) (s : State) : State :=
  let base := field p.bytes 8 8
  let len := field p.bytes 16 8
  if field p.bytes 0 8 / 2 ^ 13 != 0 || field p.bytes 24 24 != 0 || base % 65536 != 0
      || len % 65536 != 0 then complete p 1 0 0 s
  else completeAt p 8 (dropTlb p.ctx base len s)

/-- INVALIDATION (R177, R384). -/
def execEvInvalidation (stack : Nat) (s : State) : Out := .next (takeWhole stack (· == 4) takeInvalidation s)

/-- R384: a resolution packet performed. -/
def takeResolution (p : Packet) (s : State) : State :=
  let act := field p.bytes 1 1 % 4
  if 2 ≤ act then complete p 1 0 0 s
  else
    let (ok, s) := resolve (·.ctx == p.ctx) (field p.bytes 4 4) (act == 1) s
    complete p (if ok then 0 else 1) 0 0 s

/-- FAULT_RESOLUTION (R384). -/
def execEvFaultResolution (stack : Nat) (s : State) : Out := .next (takeWhole stack (· == 5) takeResolution s)

end Sys2Proof.Machine
end

