-- ==== Sys2Proof/Machine/Replay.lean ====
section
/-!
DEFINITION. The replay of the log of a version committed into tag 0 (R369).
-/

namespace Sys2Proof.Machine

/-- R369, R440: the event of a dropped entry. -/
def dropEvent (e : LogEntry) (s : State) : State := postEvent 2 e.ctx e.tag 0 0 e.tag 0 s

/-- R174: KIND of the record of a dropped entry. -/
def entryKind : Instr → Nat
  | .red _ | .redf _ | .vismin _ | .hgscat _ => 2
  | .put _ => 6
  | _ => 1

/-- R369: an entry is dropped for an error: the record of an issuing thread, and the event. -/
def dropEntry (e : LogEntry) (b : Bad) (s : State) : State :=
  let s := noteBad b s
  let s := match b.rec_ with
    | none => s
    | some (level, reason) =>
      postFault (e.core / 32) { addr := b.va, ctx := e.ctx, core := e.core, wave := e.wave, part := e.part
                                kind := entryKind e.i, level := level, reason := reason } s
  dropEvent e s

/-- R369: what an entry's access needs, and its bytes. -/
def entryAsk : Instr → Ask × Nat
  | .st f => ({ need := .store }, f.bytes)
  | .feset _ => ({ need := .store, fe := true }, 4)
  | i => ({ need := .rmw }, rmwBytes i)

/-- The error of one access of an entry, made at tag 0 by the core that issued it. -/
def entryBad (s : State) (e : LogEntry) (ask : Ask) (va : Nat) : Option Bad :=
  match accessBad s e.core e.ctx 0 ask va with
  | some b => some { b with rec_ := some (b.rec_.getD (0, 1)) }
  | none => (leafOf s e.core e.ctx va ask.need).bind fun l => readBad s e.ctx 0 l.ver va (l.addr va)

/-- R369: one lane's store, FESET or reduction performed as committed data. -/
def replayLane (e : LogEntry) (s : State) : State :=
  let (ask, n) := entryAsk e.i
  let v := e.data.headD 0
  match entryBad s e ask e.va, leafOf s e.core e.ctx e.va ask.need with
  | some b, _ => dropEntry e b s
  | none, none => s
  | none, some leaf =>
    let pa := leaf.addr e.va
    let s := recallLine pa (settle e.core (pa / 128) (fillTlb e.core e.ctx e.va leaf s))
    match e.i with
    | .st _ => homeWrite leaf.cached pa n v (patchL1 e.core e.ctx 0 leaf.ver pa n v s)
    | .feset _ => homeSetFe leaf.cached pa (v % 2 == 1) s
    | _ =>
      let new := rmwNew e.i (readMem s.mem pa n) v
      homeWrite leaf.cached pa n new (patchL1 e.core e.ctx 0 leaf.ver pa n new s)

/-- R312, R369: a lane's HGSCAT performed with the SCALE that the bank holds now. -/
def replayScat (e : LogEntry) (s : State) : State :=
  let d := e.data.headD 0
  let adds := laneAdds d e.data.tail
  let addrs := gridGbase d :: (adds.map fun a => accumAddr d a.1 a.2.1)
  match firstSome (entryBad s e { need := .rmw }) addrs with
  | some b => dropEntry e b s
  | none =>
    let x : Access := { core := e.core, ctx := e.ctx, tag := 0, page := fun va => leafOf s e.core e.ctx va .rmw }
    (makeAdds x d adds s).2

/-- R333, R369, R374: a FLIP performed from its release onward; late, or with the ring full, it is dropped. -/
def replayFlip (e : LogEntry) (s : State) : State :=
  if e.late then dropEvent e s
  else match appendFrame e.ctx (e.data.headD 0) s with
    | some s => s
    | none => dropEvent e s

/-- R163, R369: an EVENT's record. -/
def replayEvent (e : LogEntry) (s : State) : State :=
  let d := fun (k : Nat) => e.data.getD k 0
  postEventAt (d 2) 1 e.ctx (d 4) e.core (d 3) (d 0) (d 1) s

/-- R263, R369: a PUT sent with the data it was logged with. -/
def replayPutEntry (e : LogEntry) (s : State) : State :=
  let (b, s) := replayPut e s
  match b with
  | some b => dropEntry e b s
  | none => s

/-- R369, R380: the status word of a completion written. -/
def replayStatus (e : LogEntry) (s : State) : State :=
  let stack := e.data.getD 1 0
  match cpWrite stack e.ctx e.va (toBytes 4 (e.data.headD 0)) s with
  | .ok s => s
  | .error b => dropEvent e (recordCp stack e.ctx 1 b (noteBad b s))

/-- R369, R393: the decrement of a completion made. -/
def replayDecrement (e : LogEntry) (s : State) : State :=
  let stack := e.data.headD 0
  match counterStep stack e.ctx (e.data.getD 1 0) e.va (2 ^ 32 - 1) s with
  | .ok s => s
  | .error b => dropEvent e (recordCp stack e.ctx 1 b (noteBad b s))

/-- R369: the scope and extent of the release that an entry performs first, if any: a FLIP's (R333), or that of its
ORDER. -/
def entryRelease (s : State) (e : LogEntry) : Option (Nat × Extent) := match e.i with
  | .flip _ => if e.late then none else some (4, {})
  | i =>
    if releases (orderOf i).1 then some ((orderOf i).2, { extentOf s e.ctx e.va with core := e.core }) else none

/-- R190, R206, R369: whether an entry's release must wait for earlier accesses of its thread's wave. -/
def entryWaits (s : State) (e : LogEntry) : Bool :=
  (entryRelease s e).isSome && (allWaves s).any fun w => w.id == e.wid &&
    w.ops.any fun o => o.num < e.num && o.perf != o.lanes && o.ctr != 2

/-- R369: an entry performed. -/
def performEntry (e : LogEntry) (s : State) : State := match e.i with
  | .flip _ => replayFlip e s
  | .event _ => replayEvent e s
  | .put _ => replayPutEntry e s
  | .hgscat _ => replayScat e s
  | .qwst _ _ _ _ _ => replayStatus e s
  | .qdepdec _ _ _ => replayDecrement e s
  | _ => replayLane e s

/-- R369: an entry replayed, after the release that its thread would perform. -/
def replayEntry (e : LogEntry) (s : State) : State :=
  performEntry e (match entryRelease s e with
    | some (scope, x) => releaseBy e.core e.wid scope x s
    | none => s)

/-- LOG_REPLAY (R369): the oldest entry that waits for replay is replayed or dropped. -/
def execEvLogReplay (s : State) : Out :=
  .next (match s.replay with
    | [] => s
    | e :: es => if entryWaits s e then s else replayEntry e { s with replay := es })

end Sys2Proof.Machine
end

