-- ==== Sys2Proof/Machine/Vertical.lean ====
section
/-!
DEFINITION. The vertical FIFO instructions (R407-R412) and the events of the voltage islands (R416-R419).
-/

namespace Sys2Proof.Machine

/-! ## VPUSH, VPOP, VFREE -/

/-- R408, R409: the result predicate of a FIFO instruction that names one. -/
def fifoPred (f : V3) (ok : Bool) (s : State) : State := match f.xw with
  | some x => writeP (x.c % 8) (fun _ => ok) s
  | none => s

/-- R408: the data of an entry. -/
def pushData (w : Wave) (r : Nat) : List Word :=
  (List.range 64).map fun l => if w.active.getLsbD l then w.vreg l r else 0

/-- R408, R417: an entry appended, or dropped as it arrives. -/
def appendEntry (k : Nat) (e : FifoEntry) (s : State) : State :=
  if pushDropped s k then countDrops (k / 2) 1 s
  else updFifo k (fun f => { f with entries := f.entries ++ [e] }) s

/-- VPUSH (R408). -/
def execVpush (f : V3) (s : State) : Out :=
  let w := s.w
  let k := outbound w.core
  let fifo := s.fifo k
  .next (if w.idle then s
    else if fifo.down then if f.xw.isSome then fifoPred f false s else holdAgain (.vpush f) s
    else if 16 ≤ fifo.entries.length || !releaseReady s w.ops {} then holdAgain (.vpush f) s
    else
      let s := releaseNow 3 {} s
      let s := appendEntry k { ctx := s.ctxId, data := pushData w f.a, ready := false } s
      fifoPred f true { s with w := s.w.markStored s.w.active })

/-- VPOP (R409). -/
def execVpop (f : V3) (s : State) : Out :=
  let w := s.w
  let k := inbound w.core
  let fifo := s.fifo k
  .next (if w.idle then s
    else match fifo.entries.find? (·.ctx == s.ctxId) with
      | none => if fifo.down && f.xw.isSome then fifoPred f false s else holdAgain (.vpop f) s
      | some e =>
        if !e.ready then holdAgain (.vpop f) s
        else
          let s := updFifo k (fun x => { x with entries := dropEntry1 (·.ctx == w.ctx) x.entries }) s
          let s := acquireNow w.core 3 {} (writeV f.d (fun l => e.data.getD l 0) s)
          fifoPred f true s)
where
  /-- A list without its first entry that satisfies a test. -/
  dropEntry1 (p : FifoEntry → Bool) : List FifoEntry → List FifoEntry
    | [] => []
    | e :: es => if p e then es else e :: dropEntry1 p es

/-- R410: the count that VFREE writes. -/
def vfreeValue (s : State) (input : Bool) : Word :=
  let k := if input then inbound s.w.core else outbound s.w.core
  let fifo := s.fifo k
  let n := if input then (fifo.entries.filter fun e => e.ready && e.ctx == s.ctxId).length else 16 - fifo.entries.length
  BitVec.ofNat 32 (n + if fifo.down then 2 ^ 31 else 0)

/-- VFREE (R410). -/
def execVfree (f : SF) (s : State) : Out := .next (writeS f.sd (vfreeValue s (f.imm % 2 == 1)) s)

/-- The first entry that is not available yet becomes so. -/
def readyFirst : List FifoEntry → List FifoEntry
  | [] => []
  | e :: es => if e.ready then e :: readyFirst es else { e with ready := true } :: es

/-- FIFO_ENTRY_AVAILABLE (R411). -/
def execEvFifoEntryAvailable (pair dir : Nat) (s : State) : Out :=
  .next (if pair < 64 && dir < 2 then updFifo (2 * pair + dir) (fun f => { f with entries := readyFirst f.entries }) s
    else s)

/-! ## Islands (R416-R419, R438) -/

/-- R416: the event of an island that reaches a state. -/
def powerEvent (cluster state : Nat) (s : State) : State := postEvent 5 0 0 0 0 (cluster + state * 2 ^ 8) 0 s

/-- R417, condition 3: whether an access or command of a cluster's cores is left. -/
def workLeft (s : State) (cluster : Nat) : Bool :=
  (allWaves s).any (fun w => w.core / 4 == cluster && !w.ops.isEmpty && w.ops.any fun o => o.perf != o.lanes)
    || s.cmds.any (fun c => c.core / 4 == cluster && c.kind != 4) || s.engine.any (·.core / 4 == cluster)

/-- ISLAND_GATED (R417): a CLOSING island becomes GATED once its conditions hold; what its cores have merged and stored
is brought to its home first. The gate ends an approximate mode granted since it began (R437). -/
def execEvIslandGated (cluster : Nat) (s : State) : Out :=
  let i := s.island cluster
  let mine := fun (core : Nat) => core / 4 == cluster
  .next (if i.state != 1 || !i.drained || s.cohorts.any (·.cluster == cluster) || inflight s cluster != 0
      || workLeft s cluster then s
    else
      let s := flushUpdates (fun u => mine u.core) (drain (fun p => mine p.core) s)
      let s := forFifos (fun k => updFifo k fun f => { f with down := true }) (clusterFifos cluster) s
      let s := updIsland cluster (fun i => { i with state := 2, gate := 0, drained := false, approx := false, wantApprox := false }) s
      if i.gate == 1 then powerEvent cluster 2 s else s)

/-- R416: the requested level of an island takes effect; approximate mode puts level 0 in force (R415). DESIGN CHOICE (log
entry 76): what the power cap has taken off (R438) stays off, down to level 5. -/
def applyLevel (cluster : Nat) (s : State) : State :=
  let approx (i : Island) := i.wantApprox && !throttled s (cluster / 8)
  updIsland cluster (fun i =>
    { i with base := i.want, approx := approx i, cut := if approx i then 0 else min i.cut (5 - i.want) }) s

/-- ISLAND_ON (R416, R419): an OPENING island reaches ON 20 µs after it began; a gate recorded meanwhile begins. -/
def execEvIslandOn (cluster : Nat) (s : State) : Out :=
  let i := s.island cluster
  .next (if i.state != 3 || s.now < i.since + 20000 then s
    else
      let s := applyLevel cluster (updIsland cluster (fun i => { i with state := 0, gate := 0, drained := false }) s)
      let s := powerEvent cluster 0 (raiseFifos cluster s)
      if i.gate == 1 then beginGate cluster s
      else if i.gate == 2 then updIsland cluster (fun i => { i with gate := 1 }) (forceGate cluster s)
      else s)

/-- LEVEL_CHANGE (R416): the requested level of an island takes effect. -/
def execEvLevelChange (cluster : Nat) (s : State) : Out :=
  let i := s.island cluster
  .next (if 2 ≤ i.state then s else applyLevel cluster s)

end Sys2Proof.Machine
end

