-- ==== Sys2Proof/Machine/Platform.lean ====
section
/-!
DEFINITION. Events of the platform: power, temperature, time, memory errors, links, and module reset (R183-R185, R424,
R427, R431, R435, R438, R439, R442).
-/

namespace Sys2Proof.Machine

/-! ## Power (R438) -/

/-- The clusters. -/
def clusters : List Nat := List.range 32

/-- A change of every island. -/
def mapIslands (f : Nat → Island → Island) (s : State) : State :=
  clusters.foldl (fun s c => updIsland c (f c) s) s

/-- R438, R440: a POWER event of capping; the island and state of its code are open (log entry 41). -/
def cappingEvent (on : Bool) (s : State) : State :=
  let s := { s with plat := { s.plat with capping := on }, fresh := s.fresh + 1 }
  postEvent 5 0 0 0 0 (Config.freeWord (s.fresh - 1)).toNat 0 s

/-- R438: an island lowered one level; approximate mode ends. -/
def lowerIsland (i : Island) : Island :=
  { i with cut := if i.base + i.cut < 5 then i.cut + 1 else i.cut, approx := false, wantApprox := false }

/-- POWER_MEASUREMENT (R438). -/
def execEvPowerMeasurement (watts : Nat) (s : State) : Out :=
  .next (if s.plat.cap < watts then
      let s := mapIslands (fun _ => lowerIsland) s
      if s.plat.capping then s else cappingEvent true s
    else if 100 * watts < 95 * s.plat.cap then
      let s := mapIslands (fun _ i => { i with cut := i.cut - 1 }) s
      if s.plat.capping && clusters.all (fun c => (s.island c).cut == 0) then cappingEvent false s else s
    else s)

/-! ## Temperature (R439, R183, R184) -/

/-- R439: the sensors: 128 cores, and the seven dies of each stack (log entry 15). -/
def sensors : Nat := 156

/-- R440: a THERMAL event; `trip` is 0 advise, 1 throttle, 2 shut-down. -/
def thermalEvent (sensor trip : Nat) (s : State) : State := postEvent 6 0 0 0 0 (sensor + trip * 2 ^ 16) 0 s

/-- A trip of a sensor in force, or clear. -/
def setTrip (sensor trip : Nat) (on : Bool) (s : State) : State :=
  let v := SMap.get 0 s.plat.trips sensor
  let bit := v / 2 ^ trip % 2
  let v := if on then v + (1 - bit) * 2 ^ trip else v - bit * 2 ^ trip
  { s with plat := { s.plat with trips := SMap.set 0 s.plat.trips sensor v } }

/-- ADVISE (R439). -/
def execEvAdvise (sensor : Nat) (s : State) : Out :=
  .next (if sensor < sensors then thermalEvent sensor 0 (setTrip sensor 0 true s) else s)

/-- THROTTLE (R439, R437): the islands of the stack leave approximate mode. -/
def execEvThrottle (sensor : Nat) (s : State) : Out :=
  .next (if sensor < sensors then
      let s := mapIslands (fun c i =>
        if c / 8 == sensorStack sensor then { i with approx := false, wantApprox := false } else i) s
      thermalEvent sensor 1 (setTrip sensor 1 true s)
    else s)

/-- TRIP_CLEAR (R439): a reading is 5 °C below a trip point (0 advise, 1 throttle, 2 shut-down). -/
def execEvTripClear (sensor level : Nat) (s : State) : Out :=
  .next (if sensor < sensors && level < 3 then setTrip sensor level false s else s)

/-- THROTTLE_FLUSH_WRITE_BACK (R183): a dirty line of a throttled cache die is written back. -/
def execEvThrottleFlushWriteBack (die line : Nat) (s : State) : Out :=
  let hit := fun (l : CacheLine) => l.num == line && dieOf l.num l.way == die
  .next (if dieThrottled s die then { s with lines := updFirst hit (fun l => { l with dirty := 0 }) s.lines } else s)

/-- The dirty sectors of a line. -/
def dirtySectors (l : CacheLine) : List Nat := ((List.range 8).filter l.dirty.getLsbD).map (8 * l.num + ·)

/-- R184: the waiters of the focused wave on words of poisoned sectors take MEM_POISON. -/
def poisonWaiters (bad : List Nat) (s : State) : State :=
  (s.w.parks.filter fun p => !p.scratch && p.level != 0 && bad.contains (p.pa / 128)).foldl
    (fun s p => parkTrap p .memPoison { s with mem := freeCloaks (s.w.parks.filter (· != p)) [p] s.mem }) s

/-- R184: a cache die (3 × stack + die) loses power. -/
def loseCacheDie (die : Nat) (s : State) : State :=
  let mine := fun (l : CacheLine) => dieOf l.num l.way == die
  let gone := s.lines.filter mine
  let bad := gone.flatMap dirtySectors
  let onDie := fun (x : Sector) => !x.spilled && gone.any fun l => l.num == x.num / 8
  let tags := ((s.sectors.filter onDie).map fun x => (x.ctx, x.tag)).eraseDups
  let s := { s with lines := s.lines.filter fun l => !mine l
                    poison := bad.foldl (fun p k => addOnce k p) s.poison }
  let s := ((tags.map Prod.fst).eraseDups).foldl (fun s ctx =>
    squashAll ctx 5 ((List.range 16).filter fun t => tags.contains (ctx, t) && live s ctx t) s) s
  eachWave (fun w => w.on && !w.ended) (poisonWaiters bad) s

/-- R439: the FIFOs of a stack become DOWN. -/
def stackFifosDown (stack : Nat) (s : State) : State :=
  forFifos (fun k => updFifo k fun f => { f with down := true }) ((List.range 32).map (32 * stack + ·)) s

/-- R439: the cohorts that satisfy a test are discarded with cause KILLED. -/
def killCohorts (p : Cohort → Bool) (s : State) : State :=
  ((s.cohorts.filter p).map Cohort.id).foldl (fun s id => discardCohort id Cause.killed.code 0 0 none s) s

/-- R439: one die of a stack loses its power. -/
def losePower (stack die : Nat) (s : State) : State :=
  let s := { s with plat := { s.plat with deadDies := addOnce (7 * stack + die) s.plat.deadDies } }
  let column := fun (c : Cohort) => ((s.launch c.launch).map fun l => l.kernel.column != 0).getD false
  match die with
  | 0 => s
  | 1 => stackFifosDown stack (killCohorts (fun c => c.cluster / 8 == stack && c.cluster % 8 < 4) s)
  | 2 => stackFifosDown stack (killCohorts (fun c => c.cluster / 8 == stack && 4 ≤ c.cluster % 8) s)
  | 3 => killCohorts (fun c => c.cluster / 8 == stack && column c) s
  | d => loseCacheDie (3 * stack + (d - 4)) s

/-- SHUT_DOWN (R439): the die of a sensor loses power until module reset; a base die takes its stack with it. -/
def execEvShutDown (sensor : Nat) (s : State) : Out :=
  let stack := sensorStack sensor
  let die := sensorDie sensor
  .next (if sensor < sensors then
      let s := (if die == 0 then List.range 7 else [die]).foldl (fun s d => losePower stack d s) s
      thermalEvent sensor 2 (setTrip sensor 2 true s)
    else s)

/-! ## Time, memory errors and links -/

/-- TIME_SYNC (R427): the 802.1AS time is synchronised to a value, or synchronisation is lost. -/
def execEvTimeSync (sync : Bool) (time : Nat) (s : State) : Out :=
  let was := s.plat.sync
  let off := if sync then (time : Int) - s.now else s.plat.timeOffset
  let s := { s with plat := { s.plat with sync := sync, timeOffset := off } }
  .next (if was == sync then s else postEvent 8 0 0 0 0 0 0 s)

/-- SERVICE_FIRMWARE_RESTART (R431): held waves stay held. -/
def execEvServiceFirmwareRestart (s : State) : Out := .next s

/-- RPTR_ADVANCE (R175): the service firmware advances RPTR past records it has read; records that wait are written. -/
def execEvRptrAdvance (stack rptr : Nat) (s : State) : Out :=
  .next (match SMap.get 0 s.faultBase stack with
    | 0 => s
    | b + 1 =>
      let wptr := readMem s.mem (b + 0x2000) 4
      let old := readMem s.mem (b + 0x2004) 4
      let dist := fun (r : Nat) => (wptr + 2 ^ 32 - r) % 2 ^ 32
      if 2 ^ 32 ≤ rptr || dist old < dist rptr then s else flushFaults (homeWrite true (b + 0x2004) 4 rptr s))

/-- SOFT_ERROR (R185): an uncorrectable error strikes a sector of home memory; a correctable one changes nothing. -/
def execEvSoftError (addr : Nat) (uncorrectable : Bool) (s : State) : Out :=
  .next (if uncorrectable && addr < homeEnd && !s.poison.contains (addr / 128) then
      { s with ecc := addOnce (addr / 128) s.ecc }
    else s)

/-- COMBINING_BUFFER_DRAIN (R180): one combining buffer of a core drains. -/
def execEvCombiningBufferDrain (core buf : Nat) (s : State) : Out :=
  .next (if buf == 0 then s else drain (fun p => p.core == core && p.buf == buf) s)

/-- HOST_PORT_TRAINING (R424): a host port trains (1 10GBASE-T1, 2 1000BASE-T1), or loses its link (0). -/
def execEvHostPortTraining (port speed : Nat) (s : State) : Out :=
  .next (if port < 2 && speed < 3 then
      { s with plat := { s.plat with hostPorts := SMap.set 0 s.plat.hostPorts port speed } }
    else s)

/-- MACSEC_FAILURE (R424): a frame that fails MACsec is dropped. -/
def execEvMacsecFailure (_port : Nat) (s : State) : Out := .next s

/-! ## Module reset (R442) -/

/-- R432: an image whose version is below a record's MINVER. -/
def belowMinver (cfg : ConfigRecord) (image : List Host.Cell) : Bool :=
  cfg.minver != 0 && Config.imageVersion image < cfg.minver

/-- R442: module reset. A record installed takes effect, and the image in the slot is verified against it (R432): when it
is refused the boot ROM waits, with steps 2 to 5 not begun and every island without power. Otherwise the image runs. The
data bytes of home memory and its poisoned sectors stay (R185), its full/empty and waiters bits are cleared. The schedule
of outside events, the record of what was sent and the counter of free values go on (log entry 43). -/
def moduleReset (s : State) : State :=
  let cfg := s.plat.nextConfig.getD s.plat.config
  let wait := belowMinver cfg s.plat.imageSlot
  { State.reset with
    plat := { State.reset.plat with config := cfg, cap := cfg.cap, imageSlot := s.plat.imageSlot
                                    recordSlot := s.plat.recordSlot, waiting := wait, boots := s.plat.boots + 1
                                    running := if wait then [] else s.plat.imageSlot
                                    islands := if wait then clusters.map fun c => (c, { state := 2 }) else [] }
    mem := if wait then s.mem else s.mem.filter (fun c => c.1 < homeEnd)
    poison := s.poison, ecc := s.ecc, out := s.out, fresh := s.fresh, agenda := s.agenda }

/-- MODULE_RESET (R442). -/
def execEvModuleReset (s : State) : Out := .next (moduleReset s)

end Sys2Proof.Machine
end

