-- ==== Sys2Proof/Machine/Ray.lean ====
section
/-!
DEFINITION. The ray engine (R336-R354): entries and records, the box and triangle tests, the instance transform, the
short stack and the restart trail.
-/

namespace Sys2Proof.Machine

/-! ## Entries (R336) -/

/-- TYPE. -/
def entType (e : Nat) : Nat := e % 4
/-- DEPTH. -/
def entDepth (e : Nat) : Nat := bits e 54 4
/-- SLOT. -/
def entSlot (e : Nat) : Nat := bits e 52 2
/-- The address of the record that an entry names. -/
def entAddr (e : Nat) : Nat := bits e 6 46 * 64
/-- The entry with SLOT and DEPTH 0. -/
def entBare (e : Nat) : Nat := e % 2 ^ 52 + bits e 58 6 * 2 ^ 58
/-- R336: a malformed entry. -/
def entBad (e : Nat) : Bool :=
  bits e 58 6 != 0 || match entType e with
    | 0 => e != 0 && e != 4
    | 1 => bits e 2 4 != 0 || flag e 6
    | 2 => false
    | _ => bits e 2 4 != 0
/-- The restart marker (R336). -/
def entMarker : Nat := 4

/-- R344, item 2: the bytes of records that an entry of a type names, as accesses of 16 bytes (R340). -/
def entSpans (type e : Nat) : List (Nat × Nat) :=
  let n := match type with
    | 1 => 8
    | 2 => 4 * (bits e 2 4 + 1)
    | _ => 4
  if entType e == type then (List.range n).map fun k => (entAddr e + 16 * k, 16) else []

/-- A record of n pieces of 16 bytes as one number. -/
def pieces16 (vs : List (Nat × Nat)) (a : Nat) : Nat → Nat
  | 0 => 0
  | n + 1 => pieces16 vs a n + valueAt vs (a + 16 * n) * 2 ^ (128 * n)

/-! ## Exact arithmetic (R345, R346) -/

/-- An extended number: an infinity, or the quotient of two exact numbers n × 2^e with a positive divisor. -/
inductive Ext where
  | inf (neg : Bool)
  | quot (n d : Int × Int)

/-- Whether an extended number is less than another. -/
def Ext.lt : Ext → Ext → Bool
  | .inf s, .inf t => s && !t
  | .inf s, .quot _ _ => s
  | .quot _ _, .inf t => !t
  | .quot n d, .quot m c => (dyAdd (n.1 * c.1, n.2 + c.2) (-(m.1 * d.1), m.2 + d.2)).1 < 0

/-- The greater of two extended numbers. -/
def Ext.max (a b : Ext) : Ext := if a.lt b then b else a
/-- The lesser of two extended numbers. -/
def Ext.min (a b : Ext) : Ext := if b.lt a then b else a
/-- An extended number from a value that is not a NaN. -/
def extOf : FV → Ext
  | .inf s => .inf s
  | .fin s m e => .quot (signed s m, e) (1, 0)
  | .nan _ => .quot (0, 0) (1, 0)

/-- R345: (bound − o) / d for d not zero; none where it is undefined. -/
def slabAt (bound o d : FV) : Option Ext :=
  let num : Option Ext := match bound, o with
    | .inf s, .inf t => if s == t then none else some (.inf s)
    | .inf s, _ => some (.inf s)
    | _, .inf t => some (.inf (!t))
    | .fin s m e, .fin t n f => some (.quot (dyAdd (signed s m, e) (-(signed t n), f)) (1, 0))
    | _, _ => none
  match num, d with
  | some (.inf _), .inf _ => none
  | some (.inf s), .fin t _ _ => some (.inf (s != t))
  | some (.quot _ _), .inf _ => some (.quot (0, 0) (1, 0))
  | some (.quot n _), .fin t m e => some (.quot (if t then -n.1 else n.1, n.2) (m, e))
  | _, _ => none

/-- R345: near and far of one axis; none for MISS. -/
def slab (lo hi o d : FV) : Option (Ext × Ext) :=
  if d.isZero then
    if fvCmp lo o != .gt && fvCmp o hi != .gt then some (.inf true, .inf false) else none
  else match slabAt lo o d, slabAt hi o d with
    | some a, some b => some (a.min b, a.max b)
    | _, _ => none

/-- An F32 field of a record as a value. -/
def recF32 (r bit : Nat) : FV := FFmt.f32.read (bits r bit 32)
/-- Whether a value is a NaN. -/
def fvNan : FV → Bool
  | .nan _ => true
  | _ => false
/-- Whether a value is finite. -/
def fvFinite : FV → Bool
  | .fin _ _ _ => true
  | _ => false

/-- R337, R345: the KEYT of a defined child c of a node and whether the ray hits it; none when it is not defined. -/
def childKey (r : Nat) (ray : Nat → FV) (c : Nat) : Option (Ext × Bool) :=
  let lo := fun (a : Nat) => recF32 r (192 * c + 32 * a)
  let hi := fun (a : Nat) => recF32 r (192 * c + 96 + 32 * a)
  let axes := [0, 1, 2]
  if bits r (768 + 64 * c) 2 == 0 || (List.range 8).any (fun k => fvNan (ray k))
      || axes.any (fun a => fvNan (lo a) || fvNan (hi a) || fvCmp (lo a) (hi a) == .gt) then none
  else
    let sl := axes.filterMap fun a => slab (lo a) (hi a) (ray a) (ray (4 + a))
    if sl.length != 3 then none
    else
      let key := sl.foldl (fun m x => m.max x.1) (extOf (ray 3))
      let far := sl.foldl (fun m x => m.min x.2) (extOf (ray 7))
      some (key, !far.lt key)

/-- R345: the order of (KEYT, slot). -/
def keyLt (a b : Ext × Nat) : Bool := a.1.lt b.1 || (!b.1.lt a.1 && a.2 < b.2)
/-- A child placed in the order of (KEYT, slot). -/
def keyInsert (x : Ext × Nat) : List (Ext × Nat) → List (Ext × Nat)
  | [] => [x]
  | y :: ys => if keyLt x y then x :: y :: ys else y :: keyInsert x ys

/-- R345: the slots of the children of a node that RBOX returns, in order; `key` is the trail field, 0 without one. -/
def boxHits (r : Nat) (ray : Nat → FV) (key : Nat) : List Nat :=
  let kids := [0, 1, 2, 3].filterMap fun c => (childKey r ray c).map fun x => (x.1, x.2, c)
  let hits := (kids.filter (·.2.1)).map fun x => (x.1, x.2.2)
  let kept := if !flag key 3 then hits
    else match childKey r ray (key % 4) with
      | some x => hits.filter fun h => !keyLt h (x.1, key % 4)
      | none => []
  (kept.foldl (fun l x => keyInsert x l) []).map Prod.snd

/-! ## Triangles (R346) -/

/-- A vector of three exact numbers. -/
abbrev Vec := (Int × Int) × (Int × Int) × (Int × Int)

/-- The product of two exact numbers. -/
def dyMul (a b : Int × Int) : Int × Int := (a.1 * b.1, a.2 + b.2)
/-- The difference of two exact numbers. -/
def dySub (a b : Int × Int) : Int × Int := dyAdd a (-b.1, b.2)
/-- The difference of two vectors. -/
def Vec.sub (a b : Vec) : Vec := (dySub a.1 b.1, dySub a.2.1 b.2.1, dySub a.2.2 b.2.2)
/-- The cross product. -/
def Vec.cross (a b : Vec) : Vec :=
  (dySub (dyMul a.2.1 b.2.2) (dyMul a.2.2 b.2.1), dySub (dyMul a.2.2 b.1) (dyMul a.1 b.2.2),
   dySub (dyMul a.1 b.2.1) (dyMul a.2.1 b.1))
/-- The scalar product. -/
def Vec.dot (a b : Vec) : Int × Int := dyAdd (dyAdd (dyMul a.1 b.1) (dyMul a.2.1 b.2.1)) (dyMul a.2.2 b.2.2)

/-- An exact number of a finite value; 0 for the others. -/
def fvExact : FV → Int × Int
  | .fin s m e => (signed s m, e)
  | _ => (0, 0)

/-- The vector of three values. -/
def vecOf (f : Nat → FV) : Vec := (fvExact (f 0), fvExact (f 1), fvExact (f 2))

/-- A hit: the numerators of t, u and v over DET, made positive. -/
structure TriHit where
  t : Int × Int
  u : Int × Int
  v : Int × Int
  det : Int × Int

/-- R346: the test of a triangle record. -/
def triTest (r : Nat) (ray : Nat → FV) : Option TriHit :=
  let vert := fun (n : Nat) (a : Nat) => recF32 r (96 * n + 32 * a)
  if (List.range 8).any (fun k => fvNan (ray k)) || [0, 1, 2, 4, 5, 6].any (fun k => !fvFinite (ray k))
      || [0, 1, 2].any (fun n => [0, 1, 2].any fun a => !fvFinite (vert n a)) then none
  else
    let o := vecOf ray
    let d := vecOf fun a => ray (4 + a)
    let v0 := vecOf (vert 0)
    let v1 := vecOf (vert 1)
    let v2 := vecOf (vert 2)
    let n := (v1.sub v0).cross (v2.sub v0)
    let det := d.dot n
    let e0 := d.dot ((v1.sub o).cross (v2.sub o))
    let e1 := d.dot ((v2.sub o).cross (v0.sub o))
    let e2 := d.dot ((v0.sub o).cross (v1.sub o))
    let side := fun (e : Int × Int) => e.1 == 0 || e.1.sign == det.1.sign
    if det.1 == 0 || !(side e0 && side e1 && side e2) || (flag r 320 && 0 < det.1) || (flag r 321 && det.1 < 0) then none
    else
      let pos := fun (x : Int × Int) => if det.1 < 0 then (-x.1, x.2) else x
      some { t := pos (n.dot (v0.sub o)), u := pos e1, v := pos e2, det := pos det }

/-- RoundF32 of a quotient, RNE; an exact zero gives +0. -/
def quotF32 (n d : Int × Int) : Nat :=
  (FFmt.f32.deliver 1 false false (exDiv (decide (n.1 < 0)) n.1.natAbs n.2 d.1.natAbs d.2)).1

/-! ## Checks at issue (R344) -/

/-- R344, item 1 and R350: the trap of the lowest failing lane's cause, or the instruction goes on. -/
def laneChecks (fails : List (Nat × Cause × Nat)) (dst : Nat) (go : State → State) (s : State) : State := match fails with
  | [] => go s
  | (_, c, a) :: _ =>
    raise c (laneSet fun k => fails.any fun x => x.1 == k && x.2.1 == c) dst (BitVec.ofNat 64 a) s

/-- The lanes that fail a test, with the cause. -/
def failing (lanes : List Nat) (f : Nat → Option Cause) : List (Nat × Cause × Nat) :=
  lanes.filterMap fun l => (f l).map fun c => (l, c, 0)

/-- R344, item 1, on one operand entry. -/
def entCause (e : Nat) : Option Cause := if entBad e then some .rsvdField else none

/-- R342-R344: RBOX, RTRI or RXFM issued: `extra` is the operand of the lane beside its entry and ray. -/
def issueRay (i : Instr) (f : V3) (type : Nat) (extra : Nat → Nat) (check : Nat → Option Cause) (s : State) : State :=
  let w := s.w
  let ent := fun (l : Nat) => (w.vpair l f.b).toNat
  let src := fun (l : Nat) => ent l :: extra l :: (List.range 8).map fun k => (w.vreg l (f.a + k)).toNat
  if w.idle then s
  else
    laneChecks (failing w.lanes fun l => match entCause (ent l) with
        | some c => some c
        | none => check l) (dstOf 1 f.d)
      (fun s => checkedSpans { need := .load } 0 (dstOf 1 f.d) i (fun l => entSpans type (ent l)) w.lanes
        (fun sp s => pushEngine i w.lanes src [] sp s) s) s

/-- A register of the ray in a lane's operands, as a value. -/
def rayOf (src : List Nat) (k : Nat) : FV := FFmt.f32.read (src.getD (k + 2) 0)

/-! ## RBOX (R345) -/

/-- The trail of a stack group (R349). -/
def trailOf (w : Wave) (l s : Nat) : Nat := (w.vpair l (s + 18)).toNat

/-- RBOX (R342, R345). -/
def execRbox (f : V3) (s : State) : Out :=
  let w := s.w
  let field := fun (l : Nat) => bits (trailOf w l f.x.c) (4 * entDepth (w.vpair l f.b).toNat) 4
  .next (issueRay (.rbox f) f 1 (fun l => if f.xw.isSome then field l else 0) (fun l =>
    let e := (w.vpair l f.b).toNat
    if f.xw.isSome && entType e == 1 && (entDepth e == 15 || flag (field l) 2) then some .stackSpill else none) s)

/-- R345: the entries that RBOX returns. -/
def boxEntry (r depth : Nat) (hits : List Nat) (i : Nat) : Nat := match hits[i]? with
  | some c => bits r (768 + 64 * c) 64 + c * 2 ^ 52 + min (depth + 1) 15 * 2 ^ 54
  | none => 0

/-- R340: a malformed node record. -/
def nodeBad (r : Nat) : Bool :=
  [0, 1, 2, 3].any fun c =>
    let e := bits r (768 + 64 * c) 64
    entBad e || bits e 52 6 != 0

/-- One lane of RBOX performed. -/
def performRbox (o : Op) (f : V3) (l : Nat) (s : State) : Done × State :=
  let src := o.args l
  let e := src.headD 0
  if entType e != 1 then ({ res := landV l f.d 0 8 }, s)
  else match readSpans o (SMap.get [] o.spans l) s with
    | (.error x, s) => ({ errs := [x] }, s)
    | (.ok vs, s) =>
      let r := pieces16 vs (entAddr e) 8
      if nodeBad r then ({ errs := [(.rsvdField, entAddr e)] }, s)
      else
        let hits := boxHits r (rayOf src) (src.getD 1 0)
        let word := fun (k : Nat) => boxEntry r (entDepth e) hits (k / 2) / 2 ^ (32 * (k % 2))
        ({ res := landV l f.d (joinWords word 8) 8 }, s)

/-! ## RTRI (R347) -/

/-- RTRI (R342, R347). -/
def execRtri (f : V3) (s : State) : Out := .next (issueRay (.rtri f) f 2 (fun _ => 0) (fun _ => none) s)

/-- What a leaf has given so far: the current tmax and the registers of the nearest hit. -/
structure LeafHit where
  tmax : Nat
  regs : Option Nat := none

/-- R347: one triangle record tested against the current tmax. -/
def leafStep (r : Nat) (src : List Nat) (h : LeafHit) : LeafHit := match triTest r (rayOf src) with
  | none => h
  | some x =>
    let t := Ext.quot x.t x.det
    if t.lt (extOf (rayOf src 3)) || !t.lt (extOf (FFmt.f32.read h.tmax)) then h
    else
      let tr := quotF32 x.t x.det
      { tmax := tr
        regs := some (tr + quotF32 x.u x.det * 2 ^ 32 + quotF32 x.v x.det * 2 ^ 64 + bits r 288 32 * 2 ^ 96) }

/-- R347: the records of a leaf read and tested in order; .ANY ends at the first hit. -/
def leafLoop (o : Op) (any : Bool) (src : List Nat) (spans : List Span) (a : Nat) :
    Nat → LeafHit → State → Except (Cause × Nat) LeafHit × State
  | 0, h, s => (.ok h, s)
  | n + 1, h, s => match readSpans o (spans.take 4) s with
    | (.error e, s) => (.error e, s)
    | (.ok vs, s) =>
      let r := pieces16 vs a 4
      if bits r 322 190 != 0 then (.error (.rsvdField, a), s)
      else
        let h := leafStep r src h
        if any && h.regs.isSome then (.ok h, s) else leafLoop o any src (spans.drop 4) (a + 64) n h s

/-- One lane of RTRI performed. -/
def performRtri (o : Op) (f : V3) (l : Nat) (s : State) : Done × State :=
  let src := o.args l
  let e := src.headD 0
  let n := if entType e == 2 then bits e 2 4 + 1 else 0
  match leafLoop o (f.t == 1) src (SMap.get [] o.spans l) (entAddr e) n { tmax := src.getD 9 0 } s with
  | (.error x, s) => ({ errs := [x] }, s)
  | (.ok h, s) =>
    let vs := match h.regs with
      | some v =>
        landV l f.d v 4 ++ [{ kind := 1, lane := l, reg := f.a + 7, slot := 4, val := BitVec.ofNat 32 h.tmax }]
      | none => []
    let p : List Land := if f.xw.isSome then
        [{ kind := 3, lane := l, reg := f.x.c % 8, slot := 5, val := if h.regs.isSome then 1 else 0 }] else []
    ({ res := vs ++ p }, s)

/-! ## RXFM (R348) -/

/-- RXFM (R342, R348). -/
def execRxfm (f : V3) (s : State) : Out :=
  .next (issueRay (.rxfm f) f 3 (fun l => if f.xw.isSome then (s.w.vreg l f.x.c).toNat % 256 else 255)
    (fun _ => none) s)

/-- R340: a malformed instance record. -/
def instBad (r : Nat) : Bool :=
  let root := bits r 384 64
  bits r 480 32 != 0 || !(entType root == 1 || entType root == 2) || entBad root

/-- R348: a transformed component: row k of M by the values from `base` on, with the translation for the origin. -/
def rowSum (r k : Nat) (ray : Nat → FV) (base : Nat) : Nat :=
  let m := fun (c : Nat) => recF32 r (128 * k + 32 * c)
  let terms := [0, 1, 2].map fun c => product (m c) (ray (base + c))
  roundQuot (if base == 0 then terms ++ [m 3] else terms) 1 0

/-- R348: register k of the result. -/
def xfmWord (r mask : Nat) (src : List Nat) (k : Nat) : Nat :=
  let root := entBare (bits r 384 64)
  let rejected := Nat.land (bits r 472 8) mask == 0
  if k == 10 then bits r 448 24
  else if rejected then (if k < 8 then src.getD (k + 2) 0 else 0)
  else if k == 8 then root % 2 ^ 32
  else if k == 9 then root / 2 ^ 32
  else if k == 3 || k == 7 then src.getD (k + 2) 0
  else if k < 3 then rowSum r k (rayOf src) 0
  else rowSum r (k - 4) (rayOf src) 4

/-- One lane of RXFM performed. -/
def performRxfm (o : Op) (f : V3) (l : Nat) (s : State) : Done × State :=
  let src := o.args l
  let e := src.headD 0
  if entType e != 3 then ({}, s)
  else match readSpans o (SMap.get [] o.spans l) s with
    | (.error x, s) => ({ errs := [x] }, s)
    | (.ok vs, s) =>
      let r := pieces16 vs (entAddr e) 4
      if instBad r then ({ errs := [(.rsvdField, entAddr e)] }, s)
      else ({ res := landV l f.d (joinWords (xfmWord r (src.getD 1 0) src) 11) 11 }, s)

/-! ## The short stack (R349-R353) -/

/-- The fields of the state word (R349). -/
structure StackWord where
  head : Nat
  count : Nat
  mode : Nat
  lost : Bool
  spill : Nat

/-- The state word read. -/
def readStack (v : Nat) : StackWord :=
  { head := v % 8, count := bits v 3 4, mode := bits v 7 2, lost := flag v 9, spill := bits v 16 16 }
/-- The state word packed. -/
def StackWord.pack (t : StackWord) : Nat :=
  t.head + t.count * 2 ^ 3 + t.mode * 2 ^ 7 + (if t.lost then 2 ^ 9 else 0) + t.spill * 2 ^ 16
/-- R349: a malformed state word. -/
def stackBad (v : Nat) : Bool :=
  let t := readStack v
  t.mode == 3 || bits v 10 6 != 0 || 8 < t.count || (t.spill != 0 && t.mode != 1) || (t.lost && t.mode != 2)

/-- R350, R353: the scratch offset of spill entry k. -/
def spillOff (sb k : Nat) : Nat := (sb + 8 * k) % 2 ^ 32
/-- Orders 1 and 2 of R203 for a spill entry. -/
def spillCause (s : State) (off : Nat) : Option (Cause × Nat) := match checkScratch s 8 off with
  | .trap c => some (c, off)
  | _ => none

/-- A stack group as a lane holds it: its ring, its state and the spill writes made. -/
structure Stack where
  ring : SMap Nat
  w : StackWord
  writes : List (Nat × Nat) := []

/-- R350: one push; a cause and an address when it fails. -/
def push (s : State) (sb : Nat) (x : Nat) (k : Stack) : Except (Cause × Nat) Stack :=
  let t := k.w
  let set := fun (t : StackWord) (ws : List (Nat × Nat)) =>
    Except.ok { ring := SMap.set 0 k.ring t.head x, w := { t with head := (t.head + 1) % 8 }, writes := k.writes ++ ws }
  if entType x == 0 then .ok k
  else if t.count != 8 then set { t with count := t.count + 1 } []
  else match t.mode with
    | 0 => .error (.stackSpill, 0)
    | 1 =>
      let off := spillOff sb t.spill
      if t.spill == 65535 then .error (.stackSpill, 0)
      else match spillCause s off with
        | some e => .error e
        | none => set { t with spill := t.spill + 1 } [(off, SMap.get 0 k.ring t.head)]
    | _ => set { t with lost := true } []

/-- R350: pushes in order. -/
def pushes (s : State) (sb : Nat) : List Nat → Stack → Except (Cause × Nat) Stack
  | [], k => .ok k
  | x :: xs, k => match push s sb x k with
    | .error e => .error e
    | .ok k => pushes s sb xs k

/-- The stack group of a lane. -/
def stackOf (w : Wave) (l r : Nat) : Stack :=
  { ring := (List.range 8).foldl (fun m i => SMap.set 0 m i (w.vpair l (r + 2 * i)).toNat) []
    w := readStack (w.vreg l (r + 16)).toNat }

/-- R350: the entries that RSTKP names in a lane, in order. -/
def pushed (w : Wave) (f : V3) (l : Nat) : List Nat :=
  if f.t == 0 then [(w.vpair l f.a).toNat]
  else [(w.vpair l (f.a + 6)).toNat, (w.vpair l (f.a + 4)).toNat, (w.vpair l (f.a + 2)).toNat]

/-- R344, R350: a lane's pushes, or the cause that it fails with. -/
def pushLane (s : State) (f : V3) (l : Nat) : Except (Cause × Nat) Stack :=
  let w := s.w
  if (pushed w f l).any entBad then .error (.rsvdField, 0)
  else if stackBad (w.vreg l (f.d + 16)).toNat then .error (.stackSpill, 0)
  else pushes s (w.vreg l (f.d + 17)).toNat (pushed w f l) (stackOf w l f.d)

/-- R350: a lane's stack written back with its spill writes. -/
def storeStack (f : V3) (s : State) (x : Nat × Stack) : State :=
  let (l, k) := x
  let ring := fun (w : Wave) (i : Nat) =>
    let v := SMap.get 0 k.ring i
    (w.setV l (f.d + 2 * i) (BitVec.ofNat 32 v)).setV l (f.d + 2 * i + 1) (BitVec.ofNat 32 (v / 2 ^ 32))
  let w := ((List.range 8).foldl ring s.w).setV l (f.d + 16) (BitVec.ofNat 32 k.w.pack)
  let w := if k.writes.isEmpty then w else w.markStored (laneBit l)
  k.writes.foldl (fun s p => match scratchCell s p.1 8 with
    | some a => storeScratch a 8 p.2 s
    | none => s) { s with w := w }

/-- The failing lanes of a list of outcomes. -/
def outcomesBad {α : Type} (rs : List (Nat × Except (Cause × Nat) α)) : List (Nat × Cause × Nat) :=
  rs.filterMap fun r => match r.2 with
    | .error e => some (r.1, e.1, e.2)
    | .ok _ => none

/-- The outcomes of the lanes that do not fail. -/
def outcomesOk {α : Type} (rs : List (Nat × Except (Cause × Nat) α)) : List (Nat × α) :=
  rs.filterMap fun r => match r.2 with
    | .error _ => none
    | .ok x => some (r.1, x)

/-- RSTKP (R350). -/
def execRstkp (f : V3) (s : State) : Out :=
  let rs := s.w.lanes.map fun l => (l, pushLane s f l)
  .next (laneChecks (outcomesBad rs) (dstOf 1 f.d) (fun s =>
    let ks := outcomesOk rs
    if ks.any (fun x => x.2.writes.any fun p => scratchBusy s (laneBit x.1) p.1 8) then holdAgain (.rstkp f) s
    else ks.foldl (storeStack f) s) s)

/-- R351: the outcome of RSTKO in a lane: the entry, the state word and the trail. -/
structure Popped where
  entry : Nat
  word : Nat
  trail : Nat
  read : Option Nat := none

/-- R351: the trail after an entry is popped in trail mode. -/
def trailPop (trail x : Nat) : Nat :=
  let d := entDepth x
  if d == 0 then trail else trail % 2 ^ (4 * (d - 1)) + (8 + entSlot x) * 2 ^ (4 * (d - 1))

/-- R351: Pop. -/
def pop (s : State) (f : V3) (l : Nat) : Except (Cause × Nat) Popped :=
  let w := s.w
  let k := stackOf w l f.a
  let t := k.w
  let trail := trailOf w l f.a
  if 0 < t.count then
    let h := (t.head + 7) % 8
    let x := SMap.get 0 k.ring h
    .ok { entry := x, word := { t with head := h, count := t.count - 1 }.pack
          trail := if t.mode == 2 then trailPop trail x else trail }
  else if t.mode == 1 && 0 < t.spill then
    let off := spillOff (w.vreg l (f.a + 17)).toNat (t.spill - 1)
    match spillCause s off with
    | some e => .error e
    | none =>
      .ok { entry := readScratch s.scratch ((scratchCell s off 8).getD 0) 8
            word := { t with spill := t.spill - 1 }.pack, trail := trail, read := some off }
  else .ok { entry := if t.mode == 2 && t.lost then entMarker else 0, word := t.pack, trail := trail }

/-- R344, R349, R351: RSTKO in a lane. -/
def popLane (s : State) (f : V3) (l : Nat) : Except (Cause × Nat) Popped :=
  let w := s.w
  let next := if f.t == 1 then (w.vpair l f.b).toNat else 0
  let word := (w.vreg l (f.a + 16)).toNat
  let trail := trailOf w l f.a
  let takes := entType next != 0
  if entBad next then .error (.rsvdField, 0)
  else if stackBad word || (!takes && (readStack word).mode == 2 && (List.range 16).any fun k => flag trail (4 * k + 2)) then
    .error (.stackSpill, 0)
  else if takes then .ok { entry := next, word := word, trail := trail }
  else pop s f l

/-- A 64-bit value written to a pair of a lane. -/
def Wave.setPair (w : Wave) (l r v : Nat) : Wave :=
  (w.setV l r (BitVec.ofNat 32 v)).setV l (r + 1) (BitVec.ofNat 32 (v / 2 ^ 32))

/-- R351: what RSTKO writes in a lane. -/
def storePop (f : V3) (s : State) (x : Nat × Popped) : State :=
  let (l, p) := x
  { s with w := ((s.w.setPair l f.d p.entry).setV l (f.a + 16) (BitVec.ofNat 32 p.word)).setPair l (f.a + 18) p.trail }

/-- RSTKO (R351). -/
def execRstko (f : V3) (s : State) : Out :=
  let rs := s.w.lanes.map fun l => (l, popLane s f l)
  .next (laneChecks (outcomesBad rs) (dstOf 1 f.d) (fun s =>
    let ks := outcomesOk rs
    if ks.any (fun x => x.2.read.any fun off => scratchBusy s (laneBit x.1) off 8) then holdAgain (.rstko f) s
    else ks.foldl (storePop f) s) s)

/-- RTRAIL (R343, R352): its results land later. -/
def execRtrail (f : V3) (s : State) : Out :=
  let w := s.w
  let cur := fun (l : Nat) => (w.vpair l f.d).toNat
  let root := fun (l : Nat) => (w.vpair l f.b).toNat
  let word := fun (l : Nat) => (w.vreg l (f.a + 16)).toNat
  .next (if w.idle then s
    else laneChecks (failing w.lanes fun l =>
        if entBad (cur l) || entBad (root l) then some .rsvdField
        else if stackBad (word l) then some .stackSpill else none) (dstOf 1 f.d)
      (fun s => pushEngine (.rtrail f) w.lanes (fun l => [cur l, root l, word l]) [] [] s) s)

/-- One lane of RTRAIL performed. -/
def performRtrail (o : Op) (f : V3) (l : Nat) (s : State) : Done × State :=
  let src := o.args l
  let t := readStack (src.getD 2 0)
  if src.headD 0 != entMarker then ({}, s)
  else ({ res := landV l f.d (entBare (src.getD 1 0)) 2
                  ++ [{ kind := 1, lane := l, reg := f.a + 16, slot := 2
                        val := BitVec.ofNat 32 { t with lost := false }.pack }] }, s)

end Sys2Proof.Machine
end

