-- ==== Sys2Proof/Machine/Results.lean ====
section
/-!
DEFINITION. Counted operations after their issue (R36-R38, R189, R202-R206): the lanes performed, the late traps found,
and the results landed.
-/

namespace Sys2Proof.Machine

/-- One lane of a counted operation performed. -/
def performOne (o : Op) (inL1 : Bool) (l : Nat) (s : State) : Done × State := match o.i with
  | .tex f | .texl f | .texg f | .tld f | .tquery f => performTex o f l s
  | .hgfetch f => performFetch o f l s
  | .hgscat _ => performScat o l s
  | .rbox f => performRbox o f l s
  | .rtri f => performRtri o f l s
  | .rxfm f => performRxfm o f l s
  | .rtrail f => performRtrail o f l s
  | _ => performLane o inL1 l s

/-- The lanes of an operation to perform when some are asked for: those not yet performed, with every lane of a location
that one of them writes (R205). An asynchronous command (WCP) is performed by its engine. -/
def wanted (o : Op) (lanes : Lanes) : Lanes :=
  if o.ctr == 2 then 0
  else (if o.ctr == 3 then lanes &&& o.lanes else closure o lanes) &&& ~~~o.perf

/-- Whether a result is named to land. -/
def landsNow (lanes regs : Nat) (r : Land) : Bool := (64 ≤ r.lane || flag lanes r.lane) && flag regs r.slot

/-- R204: late traps found: held by the wave, or, when it has ended, taken by nobody. -/
def holdLate (ts : List LateTrap) (s : State) : State :=
  if s.w.ended then lateUntaken s.w (s.w.core / 4) s.w.ctx ts s
  else { s with w := { s.w with late := s.w.late ++ ts } }

/-- R38, R316: results of an operation land; the DONE token of a walk frees its slot. -/
def landResults (o : Op) (lanes regs : Nat) (s : State) : Op × State :=
  let (now, later) := o.res.partition (landsNow lanes regs)
  let s := { s with w := landAll o.act now s.w }
  ({ o with res := later }, if now.any (·.slot == 4) then freeSlot o.aux s else s)

/-- COUNTED_RESULT (R36-R38, R204): the k-th operation of a counter of the focused wave performs lanes and lands
results. -/
def execEvCountedResult (ctr k lanes regs : Nat) (inL1 : Bool) (s : State) : Out :=
  .next (match splitOps ctr k s.w.ops with
    | none => s
    | some (pre, o, post) =>
      let id := s.w.id
      let ls := lanesOf (wanted o (BitVec.ofNat 64 lanes))
      let (o, late, s) :=
        if ls.isEmpty || !canPerform s pre o ls then (o, [], s) else performOp (performOne o inL1) o ls s
      if !(s.w.on && s.w.id == id) then s
      else
        let (o, s) := landResults o lanes regs s
        retire (holdLate late { s with w := { s.w with ops := pre ++ o :: post } }))

end Sys2Proof.Machine
end

