-- ==== Sys2Proof/Machine/Zcp.lean ====
section
/-!
DEFINITION. The requests of ZCP (R424-R435): admission, replies, ownership, contexts (R375, R376), queues (R377-R379,
R388), the rings of the owner (R175, R440), inputs (R426), telemetry, and images and configuration records (R432, R433).
-/

namespace Sys2Proof.Machine

/-! ## Admission, replies and the lapse of ownership (R424, R425, R428-R430) -/

/-- R425: the service firmware's own RESOLVE (log entry 16). -/
def isService (h : ZcpHdr) : Bool := h.master == 0x200 && h.port == 18

/-- R428: whether a request reaches ZCP: from a key holder over a host port that is up, from the admitted peer of an
optical port that is up, or from the service firmware. -/
def admitted (h : ZcpHdr) (s : State) : Bool :=
  let p := h.port - 2
  if isService h then true
  else if h.master < 8 then h.port < 2 && SMap.get 0 s.plat.hostPorts h.port != 0
  else 2 ≤ h.port && h.port < 18 && h.master == 0x100 + s.plat.config.peers.getD p 0
    && flag s.plat.config.fabadmit p && portUp s p

/-- Whether a master is the owner. -/
def isOwner (h : ZcpHdr) (s : State) : Bool := s.plat.owner == some h.master

/-- R429: the better of two claims. -/
def Claim.better (a b : Claim) : Claim :=
  if a.rank != b.rank then if a.rank < b.rank then a else b
  else if a.nonce != b.nonce then if a.nonce < b.nonce then a else b
  else if a.master ≤ b.master then a else b

/-- R429: a roll call closes: the winner becomes owner and every claimant hears of it. -/
def closeRoll (open_ : Nat) (s : State) : State := match s.plat.claims with
  | [] => { s with plat := { s.plat with roll := none } }
  | c :: cs =>
    let winner := cs.foldl Claim.better c
    let s := (c :: cs).foldl (fun s x => send 1 x.master [7, winner.master] s) s
    { s with plat := { s.plat with roll := none, claims := [], owner := some winner.master, successor := none
                                   lastRequest := open_ + 20000000 } }

/-- R429: a roll call closes 20 ms after it opened. -/
def settleRoll (s : State) : State := match s.plat.roll with
  | some t => if t + 20000000 ≤ s.now then closeRoll t s else s
  | none => s

/-- R430: ownership lapses 500 ms after the last request. -/
def settleOwner (s : State) : State :=
  if s.plat.owner.isSome && s.plat.lastRequest + 500000000 ≤ s.now then
    { s with plat := { s.plat with owner := none, successor := none } }
  else s

/-- R424: the reply to a request; it is kept for a repetition. -/
def answer (h : ZcpHdr) (status : Nat) (extra : List Nat) (s : State) : State :=
  let r : Reply := { master := h.master, seq := h.seq, port := h.port, data := status :: extra }
  send 4 h.master (h.port :: h.seq :: r.data) { s with plat := { s.plat with replies := r :: s.plat.replies } }

/-- The reply that a (MASTER, SEQ) has had. -/
def firstReply (h : ZcpHdr) (s : State) : Option Reply :=
  s.plat.replies.find? fun r => r.master == h.master && r.seq == h.seq

/-- R430: a request of the owner keeps its ownership. -/
def keepOwner (h : ZcpHdr) (s : State) : State :=
  if isOwner h s then { s with plat := { s.plat with lastRequest := s.now } } else s

/-- R424, R425: a request whose effect gives a status and what follows it in the reply; `after` is what happens, by its
status, once it has been answered. -/
def requestThen (who : State → Bool) (h : ZcpHdr) (f : State → (Nat × List Nat) × State) (after : Nat → State → State)
    (s : State) : Out :=
  .next (if !admitted h s then s
    else
      let s := keepOwner h (settleOwner (settleRoll s))
      match firstReply h s with
      | some r => send 4 h.master (h.port :: h.seq :: r.data) s
      | none =>
        if who s then
          let (r, s) := f s
          after r.1 (answer h r.1 r.2 s)
        else answer h 2 [] s)

/-- R432: a request that is not IMAGE or CONFIG: the boot ROM, while it waits for those, does not serve it. -/
def served (s : State) (act : Out) : Out := if s.plat.waiting then .next s else act

/-- A request after which nothing more happens. -/
def requestWith (who : State → Bool) (h : ZcpHdr) (f : State → (Nat × List Nat) × State) (s : State) : Out :=
  served s (requestThen who h f (fun _ s => s) s)

/-- A request whose reply is its status. -/
def request (who : State → Bool) (h : ZcpHdr) (f : State → Nat × State) (s : State) : Out :=
  requestWith who h (fun s => let r := f s; ((r.1, []), r.2)) s

/-- CLAIM (R429). -/
def execEvClaim (h : ZcpHdr) (rank nonce : Nat) (s : State) : Out :=
  request (fun s => s.plat.owner.isNone && !(isService h)) h (fun s =>
    let c : Claim := { master := h.master, rank := rank % 2 ^ 16, nonce := nonce % 2 ^ 64 }
    let t := s.plat.roll.getD s.now
    (0, { s with plat := { s.plat with roll := some t, claims := s.plat.claims ++ [c] } })) s

/-- ROLL_CALL_CLOSE (R429). -/
def execEvRollCallClose (s : State) : Out := .next (settleRoll s)

/-- OWNERSHIP_LAPSE (R430). -/
def execEvOwnershipLapse (s : State) : Out := .next (settleOwner s)

/-- HANDOVER (R430). -/
def execEvHandover (h : ZcpHdr) (successor : Nat) (s : State) : Out :=
  request (isOwner h) h (fun s => (0, { s with plat := { s.plat with successor := some (successor, s.now) } })) s

/-- ACCEPT (R430): in time, ownership passes. -/
def execEvAccept (h : ZcpHdr) (s : State) : Out :=
  request (fun s => !(isService h) && s.plat.successor.any (·.1 == h.master)) h (fun s =>
    match s.plat.successor with
    | some (m, t) =>
      if s.now ≤ t + 100000000 then
        (0, { s with plat := { s.plat with owner := some m, successor := none, lastRequest := s.now } })
      else (1, { s with plat := { s.plat with successor := none } })
    | none => (1, s)) s

/-! ## Contexts (R375, R376) -/

/-- R375: a context record read field by field. -/
def readContext (r : Nat) : Context :=
  { id := bits r 64 12, ptroot := bits r 0 64, classMax := bits r 76 2, pwr := flag r 78, pinQuota := bits r 96 32
    cloakPa := bits r 128 64, egressPa := bits r 192 64, vspillPa := bits r 256 64, vlogPa := bits r 320 64
    cloakLog2 := bits r 384 5, egressLog2 := bits r 392 4, vspillLog2 := bits r 400 5, vlogLog2 := bits r 408 5
    fabric := bits r 512 256, tags := [], bindings := [], append := 0, take := 0 }

/-- R23, R376: an area of a context, aligned to 64 KiB and within the mappable range. -/
def areaOk (base size : Nat) : Bool := base % 2 ^ 16 == 0 && base + size ≤ homeEnd

/-- R376: whether a context record may be started. -/
def contextOk (s : State) (r : Nat) : Bool :=
  let c := readContext r
  bits r 79 17 == 0 && bits r 389 3 == 0 && bits r 396 4 == 0 && bits r 405 3 == 0 && bits r 413 99 == 0
    && bits r 768 256 == 0 && (s.context c.id).isNone && c.ptroot % 2 ^ 16 == 0
    && 4 ≤ c.cloakLog2 && c.cloakLog2 ≤ 20 && areaOk c.cloakPa (256 * 2 ^ c.cloakLog2)
    && 8 ≤ c.vspillLog2 && c.vspillLog2 ≤ 24 && areaOk c.vspillPa (256 * 2 ^ c.vspillLog2)
    && 8 ≤ c.vlogLog2 && c.vlogLog2 ≤ 20 && areaOk c.vlogPa (64 * 2 ^ c.vlogLog2)
    && (c.egressPa == 0 || (4 ≤ c.egressLog2 && c.egressLog2 ≤ 12 && areaOk c.egressPa (64 * 2 ^ c.egressLog2)))

/-- R375, R376: a context started from the record at a physical address. -/
def startContext (addr : Nat) (s : State) : Nat × State :=
  if homeEnd < addr + 128 then (1, s)
  else if (memError s addr).isSome then (1, findEcc s addr)
  else if (memError s (addr + 127)).isSome then (1, findEcc s (addr + 127))
  else
    let s1 := recallLine (addr + 127) (recallLine addr s)
    let r := readMem s1.mem addr 128
    if contextOk s1 r then (0, { s1 with contexts := s1.contexts ++ [readContext r] }) else (1, s)

/-- CTXSTART (R375, R376). -/
def execEvCtxstart (h : ZcpHdr) (addr : Nat) (s : State) : Out := request (isOwner h) h (startContext addr) s

/-- R376, R370: the LIVE versions of a context are squashed with reason CONTEXT. -/
def squashContext (ctx : Nat) (s : State) : State :=
  squashAll ctx 7 ((List.range 16).filter fun t => t != 0 && live s ctx t) s

/-- R376: what the queues and launches of an ended context leave; armed packets of other contexts enter the ready lists
that now have room (R395). -/
def dropWork (ctx : Nat) (s : State) : State :=
  let s := { s with
    launches := s.launches.filter (·.ctx != ctx)
    q := if s.q.ctx == ctx then {} else s.q
    queues := s.queues.filter (·.ctx != ctx)
    ready := s.ready.filter (·.ctx != ctx)
    armed := s.armed.filter (·.packet.ctx != ctx)
    watches := s.watches.filter (·.ctx != ctx)
    logs := s.logs.filter (·.ctx != ctx) }
  (List.range 16).foldl (fun s k => pushDue (k / 4) (k % 4) 1024 s) s

/-- R376, R182, R409: what units hold for a context is dropped. -/
def dropHeldData (ctx : Nat) (s : State) : State :=
  dropContextEntries ctx { s with
    sectors := s.sectors.filter (·.ctx != ctx)
    l1 := s.l1.filter fun l => l.tag == 0 || l.ctx != ctx
    tlb := s.tlb.filter (·.ctx != ctx)
    icache := s.icache.filter (·.ctx != ctx)
    lines := s.lines.map fun l => { l with pins := l.pins.filter (· != ctx) } }

/-- A packet of a context that has ended. -/
def Packet.moved (ctx z : Nat) (p : Packet) : Packet := if p.ctx == ctx then { p with ctx := z } else p

/-- R104, R26: what has been issued in a context and is not complete goes on after its end, under the number z, until it
is complete: writes, commands, frames queued, entries in replay and completions (log entry 60). -/
def moveIssued (ctx z : Nat) (s : State) : State :=
  let own := fun (c : Nat) => if c == ctx then z else c
  let s := mapWaves (fun w => { w with ctx := own w.ctx }) s
  { s with
    cmds := s.cmds.map fun c => { c with ctx := own c.ctx, packet := c.packet.map (Packet.moved ctx z) }
    pending := s.pending.map fun p => { p with ctx := own p.ctx }
    updates := s.updates.map fun u => { u with ctx := own u.ctx }
    replay := s.replay.map fun e => { e with ctx := own e.ctx }
    completions := s.completions.map fun c => { c with packet := c.packet.moved ctx z }
    plat := { s.plat with frames := s.plat.frames.map fun x => { x with ctx := own x.ctx } }
    contexts := s.contexts.map fun c => { c with id := own c.id } }

/-- R376: a context ends. -/
def endContext (ctx : Nat) (s : State) : Nat × State :=
  if 4096 ≤ ctx || (s.context ctx).isNone then (1, s)
  else
    let s := (s.cohorts.filter (·.ctx == ctx)).foldl (fun s c => dropCohort c s) s
    let s := dropHeldData ctx (dropWork ctx (squashContext ctx (abandonWaits ctx s)))
    (0, moveIssued ctx (ctx + 4096 * (s.nextId + 1)) s)

/-- CTXEND (R376). -/
def execEvCtxend (h : ZcpHdr) (ctx : Nat) (s : State) : Out := request (isOwner h) h (endContext ctx) s

/-! ## Queues (R377, R379, R388) -/

/-- R377: the windows of a descriptor. -/
def readWindow (d w : Nat) : Window :=
  { base := bits d (384 + 128 * w) 64, len2 := bits d (384 + 128 * w + 64) 5, wr := flag d (384 + 128 * w + 69) }

/-- R377: whether a window's fields are in range. -/
def windowOk (d w : Nat) : Bool :=
  let x := readWindow d w
  bits d (384 + 128 * w + 70) 58 == 0 && (x.len2 == 0 || (8 ≤ x.len2 && x.len2 ≤ 31 && x.base % 2 ^ x.len2 == 0))

/-- R377: a queue as its descriptor gives it, but for its program. -/
def readQueueDesc (ctx desc d : Nat) : Queue :=
  { on := true, ctx := ctx, num := bits d 84 6, desc := desc, ring := bits d 0 64, ringLog2 := bits d 64 4
    cls := bits d 68 2, weight := bits d 70 8, stackSet := bits d 78 4, home := bits d 82 2, wdog := bits d 160 32
    windows := (List.range 4).map (readWindow d), ridx := bits d 128 32 }

/-- R377: whether a descriptor's fields are in range and free. -/
def descOk (s : State) (c : Context) (d : Nat) (q : Queue) : Bool :=
  bits d 90 6 == 0 && bits d 266 118 == 0 && bits d 896 128 == 0 && q.ring % 64 == 0 && 2 ≤ q.ringLog2
    && q.ringLog2 ≤ 12 && c.classMax ≤ q.cls && q.weight != 0 && q.stackSet != 0 && q.wdog != 0
    && bits d 192 64 % 4 == 0 && 1 ≤ bits d 256 10 && (List.range 4).all (windowOk d)
    && (s.queue q.ctx q.num).isNone && ((allQueues s).filter (·.home == q.home)).length < 256

/-- R387: the words of a program as instructions, each with its place. -/
def parseProg (k : Nat) : List Nat → Option (List (Nat × Instr))
  | [] => some []
  | [w] => match decodeQueue w none with
    | .ok i => some [(k, i)]
    | .error _ => none
  | w :: e :: rest => match decodeQueue w (some e) with
    | .error _ => none
    | .ok i =>
      if queueSize w == 2 then (parseProg (k + 2) rest).map ((k, i) :: ·)
      else (parseProg (k + 1) (e :: rest)).map ((k, i) :: ·)

/-- R388: the loop bodies of a program, as first word and ENDL; none when they nest, one is empty or not matched. -/
def loopBodies : Option Nat → List (Nat × Instr) → Option (List (Nat × Nat))
  | none, [] => some []
  | some _, [] => none
  | o, (k, i) :: rest => match i, o with
    | .qloop _ _, none => loopBodies (some (k + 1)) rest
    | .qloop _ _, some _ => none
    | .qendl, some b => if b == k then none else (loopBodies none rest).map ((b, k) :: ·)
    | .qendl, none => none
    | _, o => loopBodies o rest

/-- R388: a branch target: an instruction word after the branch, in no body that the branch does not stand in. -/
def branchOk (prog : List (Nat × Instr)) (bodies : List (Nat × Nat)) (k imm : Nat) : Bool :=
  let t := k + imm
  imm != 0 && prog.any (·.1 == t)
    && bodies.all fun b => !(b.1 ≤ t && t ≤ b.2) || (b.1 ≤ k && k ≤ b.2)

/-- R388: what an instruction asks of the windows and of its branch target. -/
def progWordOk (ws : List Window) (prog : List (Nat × Instr)) (bodies : List (Nat × Nat)) (k : Nat) (i : Instr) : Bool :=
  let win := fun (n : Nat) (wr : Bool) => match ws[n]? with
    | some x => x.len2 != 0 && (!wr || x.wr)
    | none => false
  match i with
  | .qbz _ imm | .qbnz _ imm | .qjmp imm => branchOk prog bodies k imm
  | .qwld _ _ _ _ n => win n false
  | .qwst _ _ _ _ n => win n true
  | .qwadd _ _ _ _ n => win n true
  | .qdepset _ _ _ n => win n true
  | .qdepdec _ _ n => win n true
  | _ => true

/-- R388: whether the last word ends a run. -/
def endsRun : Option (Nat × Instr) → Bool
  | some (_, .qdone) | some (_, .qretry) | some (_, .qfault _) => true
  | _ => false

/-- R388: a program verified at creation. -/
def progOk (ws : List Window) (words : List Nat) : Bool := match parseProg 0 words with
  | none => false
  | some prog => match loopBodies none prog with
    | none => false
    | some bodies => prog.all (fun e => progWordOk ws prog bodies e.1 e.2) && endsRun prog.getLast?

/-- R377: the words of a program read by the home command processor. -/
def readProg (stack ctx : Nat) : Nat → Nat → State → Option (List Nat × State)
  | 0, _, s => some ([], s)
  | n + 1, va, s => match cpRead stack ctx 0 va 4 s with
    | .error _ => none
    | .ok (bs, s) => (readProg stack ctx n (va + 4) s).map fun r => (ofBytes bs :: r.1, r.2)

/-- R377: a queue created from the descriptor at an address of a context. -/
def createQueue (ctx addr : Nat) (s : State) : Nat × State := match s.context ctx with
  | none => (1, s)
  | some c => match cpRead 0 ctx 0 addr 128 s with
    | .error b => (1, noteBad b s)
    | .ok (bs, t) =>
      let d := ofBytes bs
      let q := readQueueDesc ctx addr d
      if !descOk t c d q then (1, s)
      else match readProg q.home ctx (bits d 256 10) (bits d 192 64) t with
        | none => (1, s)
        | some (words, t) =>
          if progOk q.windows words then
            let q := { q with prog := words }
            let pa := ((leafOf t (cpUnit 0) ctx (addr + 12) .load).map fun l => l.addr (addr + 12) + 1).getD 0
            (0, { t with queues := t.queues ++ [{ q with widxPa := pa }] })
          else (1, s)

/-- QCREATE (R377, R388). -/
def execEvQcreate (h : ZcpHdr) (ctx addr : Nat) (s : State) : Out := request (isOwner h) h (createQueue ctx addr) s

/-- DOORBELL (R378): a queue is notified. -/
def execEvDoorbell (h : ZcpHdr) (ctx q : Nat) (s : State) : Out :=
  request (isOwner h) h (fun s =>
    if (s.queue ctx q).isNone then (1, s) else (0, updQueue ctx q (fun x => { x with notified := true }) s)) s

/-- The queues that a request names: one, or with q = 64 every queue of the context. -/
def named (ctx q : Nat) (x : Queue) : Bool := x.on && x.ctx == ctx && (q == 64 || x.num == q)

/-- A change of every queue that satisfies a test. -/
def mapQueues (p : Queue → Bool) (f : Queue → Queue) (s : State) : State :=
  { s with q := if p s.q then f s.q else s.q, queues := s.queues.map fun x => if p x then f x else x }

/-- R379, R100: queues are suspended; their runs stop and their grids are pre-empted. -/
def suspend (ctx q : Nat) (s : State) : State :=
  let hit := (allQueues s).filter (named ctx q)
  let s := hit.foldl (fun s x => endTurn (runSlot x.home x.cls) x.key s) s
  let s := mapQueues (named ctx q) (fun x => { x with state := .suspended, run := none }) s
  let grids := s.launches.filter fun l => hit.any (·.key == l.packet.key)
  let mine := fun (c : Cohort) => restarts s c && grids.any (·.id == c.launch)
  let s := (s.cohorts.filter mine).foldl (fun s c => preempt c s) s
  (grids.filter (!·.kernel.restartMode)).foldl (fun s l => drainLaunch l s) s

/-- Whether a request on queues names one. -/
def namesQueue (ctx q : Nat) (s : State) : Bool :=
  (q == 64 && (s.context ctx).isSome) || (s.queue ctx q).isSome

/-- SUSPEND (R100, R379). -/
def execEvSuspend (h : ZcpHdr) (ctx q : Nat) (s : State) : Out :=
  request (isOwner h) h (fun s => if namesQueue ctx q s then (0, suspend ctx q s) else (1, s)) s

/-- R379: a suspended or faulted queue reads WIDX again when it next looks. -/
def Queue.resume (q : Queue) : Queue :=
  if q.state == .suspended || q.state == .faulted then { q with state := .idle, notified := true } else q

/-- RESUME (R379). -/
def execEvResume (h : ZcpHdr) (ctx q : Nat) (s : State) : Out :=
  request (isOwner h) h (fun s =>
    if namesQueue ctx q s then (0, mapQueues (named ctx q) Queue.resume s) else (1, s)) s

/-! ## Faults, versions and power -/

/-- RESOLVE (R175, R425). -/
def execEvResolve (h : ZcpHdr) (stack token : Nat) (refuse : Bool) (s : State) : Out :=
  request (fun s => isService h || isOwner h s) h (fun s =>
    match resolve (fun r => r.stack == stack) token refuse s with
    | (true, t) => (0, t)
    | (false, _) => (1, s)) s

/-- SQUASH_REQUEST (R370): a LIVE version is squashed with reason OWNER. -/
def execEvSquashRequest (h : ZcpHdr) (ctx tag : Nat) (s : State) : Out :=
  request (isOwner h) h (fun s =>
    if (s.context ctx).isSome && tag != 0 && tag < 16 && live s ctx tag then (0, squashTree ctx tag 6 s)
    else (1, s)) s

/-- ISLAND (R414, R418, R425): a request word, whose status word follows in the reply. -/
def execEvIsland (h : ZcpHdr) (island word : Nat) (s : State) : Out :=
  requestWith (isOwner h) h (fun s =>
    let (r, s) := powerRequest island word (fun _ => false) s
    ((0, [r]), s)) s

/-- CAP (R438). -/
def execEvCap (h : ZcpHdr) (watts : Nat) (s : State) : Out :=
  request (isOwner h) h (fun s =>
    if 300 ≤ watts && watts ≤ 800 then (0, { s with plat := { s.plat with cap := watts } }) else (1, s)) s

/-! ## The owner's rings (R175, R440) -/

/-- EVENTRING (R440): a ring of 2^size records. -/
def execEvEventring (h : ZcpHdr) (base size : Nat) (s : State) : Out :=
  request (isOwner h) h (fun s =>
    if 8 ≤ size && size ≤ 16 && areaOk base (32 * 2 ^ size) then
      (0, { s with eventRing := some (base, size), eventNext := 0 })
    else (1, s)) s

/-- R175: whether a stack's ring holds records that have not been read. -/
def ringUnread (s : State) (stack : Nat) : Bool := match SMap.get 0 s.faultBase stack with
  | 0 => false
  | b + 1 => readMem s.mem (b + 0x2000) 4 != readMem s.mem (b + 0x2004) 4

/-- FAULTRING (R175): both indices start at 0, and records that wait are written. -/
def execEvFaultring (h : ZcpHdr) (stack base : Nat) (s : State) : Out :=
  request (isOwner h) h (fun s =>
    if stack < 4 && areaOk base (2 ^ 16) && !ringUnread s stack then
      let s := homeWrite true (base + 0x2000) 8 0 s
      (0, flushFaults { s with faultBase := SMap.set 0 s.faultBase stack (base + 1) })
    else (1, s)) s

/-! ## Inputs and telemetry (R425, R426) -/

/-- R426: an input that cannot be written; a QUEUE event says why. -/
def refuseInput (q : Queue) (code : Nat) (s : State) : Nat × State := (1, queueEvent q.ctx q.num code s)

/-- R426: the write of WIDX after the packet. -/
def finishInput (q : Queue) (widx : Nat) (s : State) : Nat × State :=
  match cpWrite q.home q.ctx (q.desc + 12) (toBytes 4 (widx + 1)) s with
  | .error b => refuseInput q 9 (noteBad b s)
  | .ok s => (0, updQueue q.ctx q.num (fun x => { x with notified := true }) s)

/-- R426: an input written into the ring of a queue. -/
def putInput (q : Queue) (data : List Nat) (s : State) : Nat × State :=
  match cpRead q.home q.ctx 0 (q.desc + 12) 4 s with
  | .error b => refuseInput q 9 (noteBad b s)
  | .ok (bs, s) =>
    let widx := ofBytes bs
    if 2 ^ q.ringLog2 ≤ (widx + 2 ^ 32 - q.ridx) % 2 ^ 32 then refuseInput q 8 s
    else
      let packet := data ++ List.replicate (56 - data.length) 0 ++ toBytes 8 (timeNow s % 2 ^ 64).toNat
      match cpWrite q.home q.ctx ((q.ring + 64 * (widx % 2 ^ q.ringLog2)) % 2 ^ 64) packet s with
      | .error b => refuseInput q 9 (noteBad b s)
      | .ok s => finishInput q widx s

/-- INPUT (R426). -/
def execEvInput (h : ZcpHdr) (ctx q : Nat) (data : List Nat) (s : State) : Out :=
  request (fun s => isOwner h s || s.plat.inputMasters.contains h.master) h (fun s =>
    match s.queue ctx q with
    | none => (1, s)
    | some x => if 56 < data.length then (3, s) else putInput x data s) s

/-- R413, R436: the state of the uncore island of a die: ON, or GATED once the die has lost its power (R439). -/
def uncoreState (s : State) (die : Nat) : Nat := if s.plat.deadDies.contains die then 2 else 0

/-- R425, R434: what TELEMETRY returns, in an order of the model's (log entry 61): the island states by island number,
CPDIAG, VFDIAG, the overflow count, the sensor readings, and the identity. -/
def telemetry (s : State) : List Nat :=
  (clusters.map fun c => (s.island c).state) ++ ((List.range 28).map (uncoreState s))
    ++ ((List.range 128).map fun c => SMap.get 0 s.cpdiag c)
    ++ ((List.range 64).map fun p => SMap.get 0 s.plat.vfdiag p)
    ++ s.overflow :: ((List.range sensors).map fun k => Config.freeSensor k s.fresh) ++ [Config.publicKey s.plat.boots, Config.signature s.plat.boots s.plat.running]

/-- TELEMETRY (R425, R428). -/
def execEvTelemetry (h : ZcpHdr) (s : State) : Out :=
  requestWith (fun _ => true) h (fun s => ((0, telemetry s), { s with fresh := s.fresh + 1 })) s

/-! ## Images and configuration records (R432, R433, R435) -/

/-- R433: a fragment that breaks a rule of its form. -/
def fragmentBad (off total : Nat) (data : List Nat) : Bool :=
  let n := data.length
  total == 0 || 16777216 < total || off % 8 != 0 || n == 0 || 1392 < n || (n % 8 != 0 && off + n != total)

/-- Bytes written into a staging area. -/
def stage (m : List Host.Cell) (a : Nat) : List Nat → List Host.Cell
  | [] => m
  | b :: bs => stage (writeByte m a (BitVec.ofNat 8 b)) (a + 1) bs

/-- How far the pieces received reach without a gap from a point. -/
def coveredTo (got : List (Nat × Nat)) : Nat → Nat → Nat
  | 0, r => r
  | n + 1, r => coveredTo got n (got.foldl (fun r p => if p.1 ≤ r then max r (p.1 + p.2) else r) r)

/-- R433: the transfer after a fragment; none when it is refused. -/
def addFragment (h : ZcpHdr) (off total : Nat) (data : List Nat) (old : Option Staging) : Option Staging :=
  if total < off + data.length then none
  else
    let base : Option Staging := if off == 0 then some { master := h.master, total := total } else
      old.filter fun t => t.master == h.master && t.total == total
    base.map fun t => { t with data := stage t.data off data, got := t.got ++ [(off, data.length)] }

/-- R433: whether every byte of a transfer has been received. -/
def Staging.full (t : Staging) : Bool := coveredTo t.got t.got.length 0 == t.total

/-- R425, R432: who may send IMAGE and CONFIG: the owner, or any master while the boot ROM waits. -/
def mayInstall (h : ZcpHdr) (s : State) : Bool := isOwner h s || (s.plat.waiting && !isService h)

/-- R433: what follows an answer once a transfer may have been installed: at boot the reset starts again. -/
def bootAgain (open_ : State → Bool) (status : Nat) (s : State) : State :=
  if s.plat.waiting && status == 0 && !open_ s then moduleReset s else s

/-- IMAGE (R432, R433): `good` says whether both signatures verify. -/
def execEvImage (h : ZcpHdr) (off total : Nat) (data : List Nat) (good : Bool) (s : State) : Out :=
  requestThen (mayInstall h) h (fun s =>
    if fragmentBad off total data then ((3, []), s)
    else match addFragment h off total data s.plat.image with
      | none => ((1, []), s)
      | some t =>
        if !t.full then ((0, []), { s with plat := { s.plat with image := some t } })
        else if good && !belowMinver s.plat.config t.data then
          ((0, []), { s with plat := { s.plat with image := none, imageSlot := t.data } })
        else ((4, []), { s with plat := { s.plat with image := none } })) (bootAgain (·.plat.image.isSome)) s

/-- R435: a configuration record read field by field. -/
def readConfig (m : List Host.Cell) : ConfigRecord :=
  let at_ := fun (k n : Nat) => readMem m k n
  { node := at_ 0 1, cver := at_ 1 1, minver := at_ 2 2, peers := (List.range 16).map fun p => at_ (4 + p) 1
    approxOk := at_ 20 4, trip := at_ 24 3, cap := at_ 27 2, fabadmit := at_ 29 2
    cak := (List.range 8).map fun k => at_ (32 + 32 * k) 32 }

/-- R435: whether a record's fields are in range. -/
def configOk (total : Nat) (m : List Host.Cell) : Bool :=
  let c := readConfig m
  288 ≤ total && c.cver == 1 && 300 ≤ c.cap && c.cap ≤ 800 && readMem m 31 1 == 0

/-- CONFIG (R432, R433, R435): `good` says whether both signatures verify. -/
def execEvConfig (h : ZcpHdr) (off total : Nat) (data : List Nat) (good : Bool) (s : State) : Out :=
  requestThen (mayInstall h) h (fun s =>
    if fragmentBad off total data then ((3, []), s)
    else match addFragment h off total data s.plat.record with
      | none => ((1, []), s)
      | some t =>
        if !t.full then ((0, []), { s with plat := { s.plat with record := some t } })
        else if good && configOk t.total t.data then
          let cfg := readConfig t.data
          ((0, []), { s with plat := { s.plat with record := none, recordSlot := t.data, nextConfig := some cfg } })
        else ((4, []), { s with plat := { s.plat with record := none } })) (bootAgain (·.plat.record.isSome)) s

/-- RESET (R442): the reply, then the module reset. -/
def execEvReset (h : ZcpHdr) (s : State) : Out :=
  served s (requestThen (isOwner h) h (fun s => ((0, []), s)) (fun _ s => moduleReset s) s)

end Sys2Proof.Machine
end

