-- ==== Sys2Proof/Machine/Dispatch.lean ====
section
/-!
DEFINITION. What each instruction does: one arm per constructor, one direct call of its meaning.
-/

namespace Sys2Proof.Machine

/-- The meaning of an instruction. -/
def exec (i : Instr) (s : State) : Host.Outcome State Fault Refusal :=
  match i with
  | .clauseHeader w => Sys2Proof.Machine.execClauseHeader w s
  | .fadd f => Sys2Proof.Machine.execFadd f s
  | .fsub f => Sys2Proof.Machine.execFsub f s
  | .fmul f => Sys2Proof.Machine.execFmul f s
  | .ffma f => Sys2Proof.Machine.execFfma f s
  | .fmin f => Sys2Proof.Machine.execFmin f s
  | .fmax f => Sys2Proof.Machine.execFmax f s
  | .fminp f => Sys2Proof.Machine.execFminp f s
  | .fmaxp f => Sys2Proof.Machine.execFmaxp f s
  | .frcp f => Sys2Proof.Machine.execFrcp f s
  | .frsq f => Sys2Proof.Machine.execFrsq f s
  | .fsqrt f => Sys2Proof.Machine.execFsqrt f s
  | .fdiv f => Sys2Proof.Machine.execFdiv f s
  | .fexp2 f => Sys2Proof.Machine.execFexp2 f s
  | .flog2 f => Sys2Proof.Machine.execFlog2 f s
  | .fsin f => Sys2Proof.Machine.execFsin f s
  | .fcos f => Sys2Proof.Machine.execFcos f s
  | .frint f => Sys2Proof.Machine.execFrint f s
  | .ffrac f => Sys2Proof.Machine.execFfrac f s
  | .fdot2 f => Sys2Proof.Machine.execFdot2 f s
  | .fclass f => Sys2Proof.Machine.execFclass f s
  | .fscale f => Sys2Proof.Machine.execFscale f s
  | .fcmp f => Sys2Proof.Machine.execFcmp f s
  | .iadd f => Sys2Proof.Machine.execIadd f s
  | .isub f => Sys2Proof.Machine.execIsub f s
  | .imul f => Sys2Proof.Machine.execImul f s
  | .imulh f => Sys2Proof.Machine.execImulh f s
  | .imad f => Sys2Proof.Machine.execImad f s
  | .imin f => Sys2Proof.Machine.execImin f s
  | .imax f => Sys2Proof.Machine.execImax f s
  | .idiv f => Sys2Proof.Machine.execIdiv f s
  | .irem f => Sys2Proof.Machine.execIrem f s
  | .iand f => Sys2Proof.Machine.execIand f s
  | .ior f => Sys2Proof.Machine.execIor f s
  | .ixor f => Sys2Proof.Machine.execIxor f s
  | .shl f => Sys2Proof.Machine.execShl f s
  | .shr f => Sys2Proof.Machine.execShr f s
  | .rot f => Sys2Proof.Machine.execRot f s
  | .bfe f => Sys2Proof.Machine.execBfe f s
  | .bfi f => Sys2Proof.Machine.execBfi f s
  | .popc f => Sys2Proof.Machine.execPopc f s
  | .clz f => Sys2Proof.Machine.execClz f s
  | .brev f => Sys2Proof.Machine.execBrev f s
  | .icmp f => Sys2Proof.Machine.execIcmp f s
  | .iadd64 f => Sys2Proof.Machine.execIadd64 f s
  | .imadw f => Sys2Proof.Machine.execImadw f s
  | .ihash f => Sys2Proof.Machine.execIhash f s
  | .lea f => Sys2Proof.Machine.execLea f s
  | .sel f => Sys2Proof.Machine.execSel f s
  | .mov f => Sys2Proof.Machine.execMov f s
  | .movi f => Sys2Proof.Machine.execMovi f s
  | .iaddi f => Sys2Proof.Machine.execIaddi f s
  | .logi f => Sys2Proof.Machine.execLogi f s
  | .icmpi f => Sys2Proof.Machine.execIcmpi f s
  | .cvt f => Sys2Proof.Machine.execCvt f s
  | .pack f => Sys2Proof.Machine.execPack f s
  | .prmt f => Sys2Proof.Machine.execPrmt f s
  | .sreg f => Sys2Proof.Machine.execSreg f s
  | .srset f => Sys2Proof.Machine.execSrset f s
  | .vxrd f => Sys2Proof.Machine.execVxrd f s
  | .vxwr f => Sys2Proof.Machine.execVxwr f s
  | .vmovs f => Sys2Proof.Machine.execVmovs f s
  | .smovv f => Sys2Proof.Machine.execSmovv f s
  | .shfl f => Sys2Proof.Machine.execShfl f s
  | .vote f => Sys2Proof.Machine.execVote f s
  | .redux f => Sys2Proof.Machine.execRedux f s
  | .scanx f => Sys2Proof.Machine.execScanx f s
  | .matchx f => Sys2Proof.Machine.execMatchx f s
  | .elect f => Sys2Proof.Machine.execElect f s
  | .salu f => Sys2Proof.Machine.execSalu f s
  | .smovi f => Sys2Proof.Machine.execSmovi f s
  | .scmp f => Sys2Proof.Machine.execScmp f s
  | .ld f => Sys2Proof.Machine.execLd f s
  | .st f => Sys2Proof.Machine.execSt f s
  | .lds f => Sys2Proof.Machine.execLds f s
  | .sts f => Sys2Proof.Machine.execSts f s
  | .ldw f => Sys2Proof.Machine.execLdw f s
  | .ldc f => Sys2Proof.Machine.execLdc f s
  | .stf f => Sys2Proof.Machine.execStf f s
  | .ldsw f => Sys2Proof.Machine.execLdsw f s
  | .ldsc f => Sys2Proof.Machine.execLdsc f s
  | .stsf f => Sys2Proof.Machine.execStsf f s
  | .feset f => Sys2Proof.Machine.execFeset f s
  | .feget f => Sys2Proof.Machine.execFeget f s
  | .sld f => Sys2Proof.Machine.execSld f s
  | .fence f => Sys2Proof.Machine.execFence f s
  | .bind f => Sys2Proof.Machine.execBind f s
  | .unbind f => Sys2Proof.Machine.execUnbind f s
  | .waita f => Sys2Proof.Machine.execWaita f s
  | .cpin f => Sys2Proof.Machine.execCpin f s
  | .cunpin f => Sys2Proof.Machine.execCunpin f s
  | .cwb f => Sys2Proof.Machine.execCwb f s
  | .cinv f => Sys2Proof.Machine.execCinv f s
  | .icinv f => Sys2Proof.Machine.execIcinv f s
  | .fetchbar f => Sys2Proof.Machine.execFetchbar f s
  | .pref f => Sys2Proof.Machine.execPref f s
  | .atom f => Sys2Proof.Machine.execAtom f s
  | .atomf f => Sys2Proof.Machine.execAtomf f s
  | .cas f => Sys2Proof.Machine.execCas f s
  | .red f => Sys2Proof.Machine.execRed f s
  | .redf f => Sys2Proof.Machine.execRedf f s
  | .vismin f => Sys2Proof.Machine.execVismin f s
  | .atoms f => Sys2Proof.Machine.execAtoms f s
  | .cass f => Sys2Proof.Machine.execCass f s
  | .bra f => Sys2Proof.Machine.execBra f s
  | .brx f => Sys2Proof.Machine.execBrx f s
  | .call f => Sys2Proof.Machine.execCall f s
  | .callx f => Sys2Proof.Machine.execCallx f s
  | .ret f => Sys2Proof.Machine.execRet f s
  | .exit f => Sys2Proof.Machine.execExit f s
  | .join f => Sys2Proof.Machine.execJoin f s
  | .leave f => Sys2Proof.Machine.execLeave f s
  | .waitm f => Sys2Proof.Machine.execWaitm f s
  | .mset f => Sys2Proof.Machine.execMset f s
  | .mtest f => Sys2Proof.Machine.execMtest f s
  | .yield => Sys2Proof.Machine.execYield s
  | .nop => Sys2Proof.Machine.execNop s
  | .wait f => Sys2Proof.Machine.execWait f s
  | .trap f => Sys2Proof.Machine.execTrap f s
  | .bkpt => Sys2Proof.Machine.execBkpt s
  | .bara f => Sys2Proof.Machine.execBara f s
  | .barw f => Sys2Proof.Machine.execBarw f s
  | .bars f => Sys2Proof.Machine.execBars f s
  | .barm f => Sys2Proof.Machine.execBarm f s
  | .copy f => Sys2Proof.Machine.execCopy f s
  | .cwait f => Sys2Proof.Machine.execCwait f s
  | .cseal f => Sys2Proof.Machine.execCseal f s
  | .cbwait f => Sys2Proof.Machine.execCbwait f s
  | .layout f => Sys2Proof.Machine.execLayout f s
  | .put f => Sys2Proof.Machine.execPut f s
  | .grow f => Sys2Proof.Machine.execGrow f s
  | .mfork f => Sys2Proof.Machine.execMfork f s
  | .mjoin f => Sys2Proof.Machine.execMjoin f s
  | .vpush f => Sys2Proof.Machine.execVpush f s
  | .vpop f => Sys2Proof.Machine.execVpop f s
  | .vfree f => Sys2Proof.Machine.execVfree f s
  | .tex f => Sys2Proof.Machine.execTex f s
  | .texl f => Sys2Proof.Machine.execTexl f s
  | .texg f => Sys2Proof.Machine.execTexg f s
  | .tld f => Sys2Proof.Machine.execTld f s
  | .tquery f => Sys2Proof.Machine.execTquery f s
  | .hgfetch f => Sys2Proof.Machine.execHgfetch f s
  | .hgscat f => Sys2Proof.Machine.execHgscat f s
  | .hgsettle f => Sys2Proof.Machine.execHgsettle f s
  | .rast f => Sys2Proof.Machine.execRast f s
  | .attr f => Sys2Proof.Machine.execAttr f s
  | .flip f => Sys2Proof.Machine.execFlip f s
  | .triset f => Sys2Proof.Machine.execTriset f s
  | .rbox f => Sys2Proof.Machine.execRbox f s
  | .rtri f => Sys2Proof.Machine.execRtri f s
  | .rxfm f => Sys2Proof.Machine.execRxfm f s
  | .rstkp f => Sys2Proof.Machine.execRstkp f s
  | .rstko f => Sys2Proof.Machine.execRstko f s
  | .rtrail f => Sys2Proof.Machine.execRtrail f s
  | .vfork f => Sys2Proof.Machine.execVfork f s
  | .vcommit f => Sys2Proof.Machine.execVcommit f s
  | .vsquash f => Sys2Proof.Machine.execVsquash f s
  | .vset f => Sys2Proof.Machine.execVset f s
  | .vquery f => Sys2Proof.Machine.execVquery f s
  | .vdeadl f => Sys2Proof.Machine.execVdeadl f s
  | .tret => Sys2Proof.Machine.execTret s
  | .sleep f => Sys2Proof.Machine.execSleep f s
  | .pgreq f => Sys2Proof.Machine.execPgreq f s
  | .rstlbl f => Sys2Proof.Machine.execRstlbl f s
  | .event f => Sys2Proof.Machine.execEvent f s
  | .mnop fen => Sys2Proof.Machine.execMnop fen s
  | .mclaim e kind mask => Sys2Proof.Machine.execMclaim e kind mask s
  | .mrel e kind mask => Sys2Proof.Machine.execMrel e kind mask s
  | .mload e q xa xs fmt sp => Sys2Proof.Machine.execMload e q xa xs fmt sp s
  | .mzero e mask => Sys2Proof.Machine.execMzero e mask s
  | .mma e ac qa qb => Sys2Proof.Machine.execMma e ac qa qb s
  | .mmas e ac qa qb qs => Sys2Proof.Machine.execMmas e ac qa qb qs s
  | .mstore e ac xa xs fmt sp sat toq q => Sys2Proof.Machine.execMstore e ac xa xs fmt sp sat toq q s
  | .mbara b x => Sys2Proof.Machine.execMbara b x s
  | .mbarw b x => Sys2Proof.Machine.execMbarw b x s
  | .mloop reg xc cnt => Sys2Proof.Machine.execMloop reg xc cnt s
  | .mend => Sys2Proof.Machine.execMend s
  | .msetStream xd q16 keep imm => Sys2Proof.Machine.execMsetStream xd q16 keep imm s
  | .maddImm xd xa imm => Sys2Proof.Machine.execMaddImm xd xa imm s
  | .maddReg xd xa xb => Sys2Proof.Machine.execMaddReg xd xa xb s
  | .mact e ac fn sh => Sys2Proof.Machine.execMact e ac fn sh s
  | .mscale e ac n => Sys2Proof.Machine.execMscale e ac n s
  | .mhalt => Sys2Proof.Machine.execMhalt s
  | .qpld d off w => Sys2Proof.Machine.execQpld d off w s
  | .qpst b off w => Sys2Proof.Machine.execQpst b off w s
  | .qwld d a off w n => Sys2Proof.Machine.execQwld d a off w n s
  | .qwst a b off w n => Sys2Proof.Machine.execQwst a b off w n s
  | .qwadd d a b off n => Sys2Proof.Machine.execQwadd d a b off n s
  | .qadd d a b => Sys2Proof.Machine.execQadd d a b s
  | .qsub d a b => Sys2Proof.Machine.execQsub d a b s
  | .qand d a b => Sys2Proof.Machine.execQand d a b s
  | .qor d a b => Sys2Proof.Machine.execQor d a b s
  | .qxor d a b => Sys2Proof.Machine.execQxor d a b s
  | .qshl d a b => Sys2Proof.Machine.execQshl d a b s
  | .qshr d a b => Sys2Proof.Machine.execQshr d a b s
  | .qaddi d a imm => Sys2Proof.Machine.execQaddi d a imm s
  | .qli d imm32 => Sys2Proof.Machine.execQli d imm32 s
  | .qlih d imm32 => Sys2Proof.Machine.execQlih d imm32 s
  | .qcmp d a b c => Sys2Proof.Machine.execQcmp d a b c s
  | .qbz a imm => Sys2Proof.Machine.execQbz a imm s
  | .qbnz a imm => Sys2Proof.Machine.execQbnz a imm s
  | .qjmp imm => Sys2Proof.Machine.execQjmp imm s
  | .qloop a imm => Sys2Proof.Machine.execQloop a imm s
  | .qendl => Sys2Proof.Machine.execQendl s
  | .qlaunch => Sys2Proof.Machine.execQlaunch s
  | .qdepset a b off n => Sys2Proof.Machine.execQdepset a b off n s
  | .qdepdec a off n => Sys2Proof.Machine.execQdepdec a off n s
  | .qsignal a => Sys2Proof.Machine.execQsignal a s
  | .qdone => Sys2Proof.Machine.execQdone s
  | .qretry => Sys2Proof.Machine.execQretry s
  | .qfault imm => Sys2Proof.Machine.execQfault imm s
  | .evLateTrap => Sys2Proof.Machine.execEvLateTrap s
  | .evCountedResult ctr k lanes regs inL1 => Sys2Proof.Machine.execEvCountedResult ctr k lanes regs inL1 s
  | .evReevaluation lane => Sys2Proof.Machine.execEvReevaluation lane s
  | .evSleepEnd => Sys2Proof.Machine.execEvSleepEnd s
  | .evYieldEnd => Sys2Proof.Machine.execEvYieldEnd s
  | .evCombiningBufferDrain core buf => Sys2Proof.Machine.execEvCombiningBufferDrain core buf s
  | .evPlacement stack => Sys2Proof.Machine.execEvPlacement stack s
  | .evRelaunch stack => Sys2Proof.Machine.execEvRelaunch stack s
  | .evWatchdog idx => Sys2Proof.Machine.execEvWatchdog idx s
  | .evCopyAccept id => Sys2Proof.Machine.execEvCopyAccept id s
  | .evLayoutStart cluster => Sys2Proof.Machine.execEvLayoutStart cluster s
  | .evChunkComplete id chunk part => Sys2Proof.Machine.execEvChunkComplete id chunk part s
  | .evPutMessage m => Sys2Proof.Machine.execEvPutMessage m s
  | .evPutack id err => Sys2Proof.Machine.execEvPutack id err s
  | .evFrameSend ctx => Sys2Proof.Machine.execEvFrameSend ctx s
  | .evFrameack id ok => Sys2Proof.Machine.execEvFrameack id ok s
  | .evFrameMessage src => Sys2Proof.Machine.execEvFrameMessage src s
  | .evNoRoute idx => Sys2Proof.Machine.execEvNoRoute idx s
  | .evFibreDown port fibre => Sys2Proof.Machine.execEvFibreDown port fibre s
  | .evLogReplay => Sys2Proof.Machine.execEvLogReplay s
  | .evDeadlineExpiry ctx tag => Sys2Proof.Machine.execEvDeadlineExpiry ctx tag s
  | .evTagReclaim ctx tag => Sys2Proof.Machine.execEvTagReclaim ctx tag s
  | .evQueueTimer ctx q => Sys2Proof.Machine.execEvQueueTimer ctx q s
  | .evRun ctx q => Sys2Proof.Machine.execEvRun ctx q s
  | .evBudget => Sys2Proof.Machine.execEvBudget s
  | .evNopPacket stack => Sys2Proof.Machine.execEvNopPacket stack s
  | .evKernelLaunch stack => Sys2Proof.Machine.execEvKernelLaunch stack s
  | .evCopyPacket stack core => Sys2Proof.Machine.execEvCopyPacket stack core s
  | .evCommitPacket stack => Sys2Proof.Machine.execEvCommitPacket stack s
  | .evInvalidation stack => Sys2Proof.Machine.execEvInvalidation stack s
  | .evFaultResolution stack => Sys2Proof.Machine.execEvFaultResolution stack s
  | .evPacketCompletion idx => Sys2Proof.Machine.execEvPacketCompletion idx s
  | .evPoolRecord launch => Sys2Proof.Machine.execEvPoolRecord launch s
  | .evPoolFlush launch => Sys2Proof.Machine.execEvPoolFlush launch s
  | .evPoolQuiescence launch => Sys2Proof.Machine.execEvPoolQuiescence launch s
  | .evFifoEntryAvailable pair dir => Sys2Proof.Machine.execEvFifoEntryAvailable pair dir s
  | .evIslandGated cluster => Sys2Proof.Machine.execEvIslandGated cluster s
  | .evIslandOn cluster => Sys2Proof.Machine.execEvIslandOn cluster s
  | .evLevelChange cluster => Sys2Proof.Machine.execEvLevelChange cluster s
  | .evClaim h rank nonce => Sys2Proof.Machine.execEvClaim h rank nonce s
  | .evRollCallClose => Sys2Proof.Machine.execEvRollCallClose s
  | .evOwnershipLapse => Sys2Proof.Machine.execEvOwnershipLapse s
  | .evHandover h successor => Sys2Proof.Machine.execEvHandover h successor s
  | .evAccept h => Sys2Proof.Machine.execEvAccept h s
  | .evCtxstart h addr => Sys2Proof.Machine.execEvCtxstart h addr s
  | .evCtxend h ctx => Sys2Proof.Machine.execEvCtxend h ctx s
  | .evQcreate h ctx addr => Sys2Proof.Machine.execEvQcreate h ctx addr s
  | .evDoorbell h ctx q => Sys2Proof.Machine.execEvDoorbell h ctx q s
  | .evSuspend h ctx q => Sys2Proof.Machine.execEvSuspend h ctx q s
  | .evResume h ctx q => Sys2Proof.Machine.execEvResume h ctx q s
  | .evResolve h stack token refuse => Sys2Proof.Machine.execEvResolve h stack token refuse s
  | .evSquashRequest h ctx tag => Sys2Proof.Machine.execEvSquashRequest h ctx tag s
  | .evIsland h island request => Sys2Proof.Machine.execEvIsland h island request s
  | .evCap h watts => Sys2Proof.Machine.execEvCap h watts s
  | .evEventring h base size => Sys2Proof.Machine.execEvEventring h base size s
  | .evFaultring h stack base => Sys2Proof.Machine.execEvFaultring h stack base s
  | .evInput h ctx q data => Sys2Proof.Machine.execEvInput h ctx q data s
  | .evTelemetry h => Sys2Proof.Machine.execEvTelemetry h s
  | .evImage h off total data good => Sys2Proof.Machine.execEvImage h off total data good s
  | .evConfig h off total data good => Sys2Proof.Machine.execEvConfig h off total data good s
  | .evReset h => Sys2Proof.Machine.execEvReset h s
  | .evPowerMeasurement watts => Sys2Proof.Machine.execEvPowerMeasurement watts s
  | .evAdvise sensor => Sys2Proof.Machine.execEvAdvise sensor s
  | .evThrottle sensor => Sys2Proof.Machine.execEvThrottle sensor s
  | .evShutDown sensor => Sys2Proof.Machine.execEvShutDown sensor s
  | .evTripClear sensor level => Sys2Proof.Machine.execEvTripClear sensor level s
  | .evTimeSync sync time => Sys2Proof.Machine.execEvTimeSync sync time s
  | .evServiceFirmwareRestart => Sys2Proof.Machine.execEvServiceFirmwareRestart s
  | .evModuleReset => Sys2Proof.Machine.execEvModuleReset s
  | .evEngineWordTakesEffect core idx part => Sys2Proof.Machine.execEvEngineWordTakesEffect core idx part s
  | .evRptrAdvance stack rptr => Sys2Proof.Machine.execEvRptrAdvance stack rptr s
  | .evSoftError addr uncorrectable => Sys2Proof.Machine.execEvSoftError addr uncorrectable s
  | .evThrottleFlushWriteBack die line => Sys2Proof.Machine.execEvThrottleFlushWriteBack die line s
  | .evPortComesUp port => Sys2Proof.Machine.execEvPortComesUp port s
  | .evHostPortTraining port speed => Sys2Proof.Machine.execEvHostPortTraining port speed s
  | .evMacsecFailure port => Sys2Proof.Machine.execEvMacsecFailure port s

end Sys2Proof.Machine
end

