-- ==== Sys2Proof/Machine/Agenda.lean ====
section
/-!
DEFINITION. Turns (log entry 1): what one turn of a wave, a matrix sequencer, a queue's interpreter, an outside event or
a background agent does, and the turn taken when the agenda names none.
-/

namespace Sys2Proof.Machine

/-! ## What a turn does -/

/-- What is left of a turn once its instruction has been found: nothing, an instruction, or a word of a clause (which
may end it, R149). -/
inductive Act where
  | done (s : State)
  | run (i : Instr) (s : State)
  | word (i : Instr) (s : State)

/-- The wave that a turn names brought into focus. -/
def focusOn (wid : Option Nat) (s : State) : State := match wid with
  | some id => focusWave id s
  | none => s

/-- R79, R83: a turn of a wave. -/
def waveTurn (s : State) : Act := match issueTurn s with
  | .done t => .done t
  | .run i t => .word i t

/-- R276, order 1: a stream word that the loop stack makes illegal. -/
def loopIllegal (x : Stream) (w : Nat) : Bool :=
  (w % 256 == 0x0B && x.loops.isEmpty) || (w % 256 == 0x0A && 4 ≤ x.loops.length)

/-- The stream fault of a word that does not decode (R276). -/
def streamCause : DecodeError → Cause
  | .illegalOp => .illegalOp
  | _ => .rsvdField

/-- R269, R273, R276: a turn of the sequencer for a cohort's stream: the next word is fetched and checked. -/
def streamTurn (cohort : Nat) (s : State) : Act :=
  let s := focusStream cohort s
  if !(s.st.runs && s.st.cohort == cohort) then .done s
  else match streamFetch s.st.idx s with
    | (.word w, t) =>
      if loopIllegal t.st w then .done (faultHere .illegalOp t)
      else match decodeStream w with
        | .ok i => .run i t
        | .error e => .done (faultHere (streamCause e) t)
    | (r, t) => .done (streamFetchFailed t.st.idx r t)

/-- R385, R389: a turn of the interpreter: the next word of the run of a queue, or the end of its budget. -/
def queueTurn (ctx q : Nat) (s : State) : Act :=
  let s := focusQueue ctx q s
  match s.q.run with
  | none => .done s
  | some r =>
    if !(s.q.on && s.q.ctx == ctx && s.q.num == q) then .done s
    else if 256 ≤ r.used then .run .evBudget s
    else match s.q.prog.drop r.pc with
      | [] => .done s
      | w :: rest => match decodeQueue w rest.head? with
        | .ok i => .run i s
        | .error _ => .done s

/-- Whether a constructor stands for an event, not for a word. -/
def isEvent (i : Instr) : Bool := (encode i).isEmpty

/-! ## Background agents -/

/-- R374: how far the reference count may advance before the expiry of a deadline that has passed is performed: a check
falls at least once every 128 ns. -/
def tickLimit (s : State) (n : Nat) : Nat :=
  let due : List Nat := s.contexts.flatMap fun c => (c.tags.filter fun e =>
    e.2.state == 1 && e.2.dset && !e.2.expired).map fun e => e.2.deadline
  due.foldl (fun (n d : Nat) => min n (Int.ofNat d + 128 - timeNow s).toNat) n

/-- R188: whether an earlier store of the same core that overlaps a pending one has not been performed; those of one
instruction to one location are performed together (R205). -/
def storeBlocked (p : Pending) : List Pending → Bool
  | [] => false
  | x :: xs =>
    if x.id == p.id then false
    else (x.core == p.core && !x.joins p && x.pa < p.pa + p.n && p.pa < x.pa + x.n) || storeBlocked p xs

/-- A list with the elements at a place and the next changed over. -/
def swapAt {α : Type} : Nat → List α → List α
  | 0, a :: b :: r => b :: a :: r
  | n + 1, a :: r => a :: swapAt n r
  | _, l => l

/-- R198: two pending floating reductions of one location combined into one. -/
def mergeUpdates (u v : Update) : Option Update := match u.i, v.i with
  | .redf f, .redf g =>
    if f.t == g.t && f.ax.aop == g.ax.aop && u.core == v.core && u.pa == v.pa && u.ctx == v.ctx && u.tag == v.tag
        && u.ver == v.ver then
      some { u with data := aopFloat f.t f.ax.aop u.data v.data, orgs := u.orgs ++ v.orgs }
    else none
  | _, _ => none

/-- A list with an element and the next replaced by one that they make together, if they do. -/
def mergeAt {α : Type} (f : α → α → Option α) : Nat → List α → List α
  | 0, a :: b :: r => match f a b with
    | some c => c :: r
    | none => a :: b :: r
  | n + 1, a :: r => a :: mergeAt f n r
  | _, l => l

/-- R197: the write-throughs of a core's atomics on a location, executed in its L1, lose the race with one at the home:
all of them, as each built on the one before; the core drops the line that holds their result. -/
def loseStore (id : Nat) (s : State) : State := match s.pending.find? (·.id == id) with
  | some p =>
    if p.atom && p.raced then
      let lost := fun (x : Pending) => x.atom && x.core == p.core && x.pa < p.pa + p.n && p.pa < x.pa + x.n
      retire { s with pending := s.pending.filter fun x => !lost x
                      l1 := s.l1.filter fun l => !(l.core == p.core && l.num == p.pa / 128) }
    else s
  | none => s

/-- One step of a background agent. -/
def backgroundStep (b : Background) (s : State) : State := match b with
  | .tick n =>
    let n := tickLimit s n
    mapWaves (fun w => w.passYield n (islandMhz s (w.core / 4))) { s with now := s.now + n }
  | .storeHome id => match s.pending.find? (·.id == id) with
    | some p => if p.buf != 0 || storeBlocked p s.pending then s else drain (fun x => x.id == id) s
    | none => s
  | .l1Evict core num ctx tag =>
    { s with l1 := s.l1.filter fun l => !(l.core == core && l.num == num && l.ctx == ctx && l.tag == tag) }
  | .updateSwap idx => { s with updates := swapAt idx s.updates }
  | .updateMerge idx => { s with updates := mergeAt mergeUpdates idx s.updates }
  | .storeLost id => loseStore id s
  | .scrub num => if s.plat.owner.isSome then { s with poison := s.poison.filter (· != num) } else s
  | .updateFlush idx => match s.updates[idx]? with
    | some u => applyUpdate u { s with updates := s.updates.eraseIdx idx }
    | none => s
  | .tlbEvict core ctx vpn => { s with tlb := s.tlb.filter fun t => !(t.core == core && t.ctx == ctx && t.vpn == vpn) }
  | .icacheEvict core num ctx tag =>
    { s with icache := s.icache.filter fun l => !(l.core == core && l.num == num && l.ctx == ctx && l.tag == tag) }
  | .fetchDrop va => { s with w := { s.w with fetched := SMap.erase s.w.fetched va } }
  | .fetchAhead va =>
    if s.w.on && !s.w.ended && va % 4 == 0 && aheadOk s va then
      match fetchWord va s with
      | (.word _, t) => t
      | _ => s
    else s
  | .readPiece ctr k lane va off => readAhead ctr k lane va off s
  | .lineEvict num =>
    let gone := s.lines.filter fun l => l.num == num && l.pins.isEmpty && !l.held
    if gone.isEmpty then s else spillLine num { s with lines := s.lines.filter fun l => !gone.contains l }
  | .spill ctx tag num => spillSector ctx tag num s
  | .nameMasters ms => if s.plat.owner.isSome then { s with plat := { s.plat with inputMasters := ms } } else s
  | .loadKey key => if 1 ≤ key && key ≤ 15 then { s with keys := addOnce key s.keys } else s

/-! ## Taking a turn -/

/-- What a turn comes to. -/
def turnAct (t : Turn) (s : State) : Act := match t with
  | .issue wid => waveTurn (focusOn wid s)
  | .stream cohort => streamTurn cohort s
  | .queue ctx q => queueTurn ctx q s
  | .event wid i => if isEvent i then .run i (focusOn wid s) else .done s
  | .background wid b => .done (backgroundStep b (focusOn wid s))

/-- R149: a word's outcome, then the end of its clause. -/
def endWord : Host.Outcome State Fault Refusal → Host.Outcome State Fault Refusal
  | .next s => .next (afterWord s)
  | o => o

/-- One turn. -/
def takeTurn (t : Turn) (s : State) : Host.Outcome State Fault Refusal := match turnAct t s with
  | .done s => .next s
  | .run i s => exec i s
  | .word i s => endWord (exec i s)

/-- R360: the end of a turn: the speculative sectors of the lines that it replaced are spilled. -/
def finishTurn : Host.Outcome State Fault Refusal → Host.Outcome State Fault Refusal
  | .next s => .next (if s.evicted.isEmpty then s else spillEvicted s)
  | o => o

/-! ## The turn taken when the agenda is empty (log entry 1) -/

/-- What an agent does when its turn comes. -/
abbrev Agent := State → Host.Outcome State Fault Refusal

/-- An agent of a wave. -/
def onWave (w : Wave) (f : Agent) : Agent := fun s => f (focusWave w.id s)

/-- Agents of the waves: issue, results, wakes. -/
def waveAgents (s : State) : List Agent :=
  (allWaves s).flatMap fun w =>
    takeTurn (.issue (some w.id))
      :: ([0, 1, 3].map fun c => onWave w (execEvCountedResult c 0 (2 ^ 64 - 1) (2 ^ 64 - 1) false))
      ++ (w.parks.filter (·.woken)).map fun p => onWave w (execEvReevaluation p.lane)

/-- The engines. -/
def engineAgents (s : State) : List Agent :=
  ((heldStreams s).map fun x => takeTurn (.stream x.cohort))
    ++ ((s.engine.map (·.core)).eraseDups.map fun c => execEvEngineWordTakesEffect c 0 0)
    ++ (s.cmds.flatMap fun c =>
      execEvCopyAccept c.id :: execEvLayoutStart (c.core / 4) :: c.todo.map fun k => execEvChunkComplete c.id k 0)
    ++ (s.contexts.map fun c => execEvFrameSend c.id)

/-- The command processors, the dispatchers and the completion engine. -/
def packetAgents (s : State) : List Agent :=
  ((allQueues s).flatMap fun q =>
      [execEvQueueTimer q.ctx q.num, execEvRun q.ctx q.num, takeTurn (.queue q.ctx q.num)])
    ++ ((List.range 4).flatMap fun k =>
      [execEvPlacement k, execEvRelaunch k, execEvNopPacket k, execEvKernelLaunch k, execEvCommitPacket k
      , execEvInvalidation k, execEvFaultResolution k]
        ++ (List.range 32).map fun c => execEvCopyPacket k (32 * k + c))
    ++ ((s.launches.filter (·.pool)).flatMap fun l =>
      [execEvPoolRecord l.id, execEvPoolFlush l.id, execEvPoolQuiescence l.id])
    ++ ((List.range s.completions.length).map fun k => execEvPacketCompletion k)
    ++ ((List.range s.watches.length).map fun k => execEvWatchdog k)

/-- Memory, the version order, the platform and time. -/
def otherAgents (s : State) : List Agent :=
  (s.pending.map fun p => takeTurn (.background none (.storeHome p.id)))
    ++ ((s.pending.filter (·.buf != 0)).map fun p => execEvCombiningBufferDrain p.core p.buf)
    ++ (if s.updates.isEmpty then [] else [takeTurn (.background none (.updateFlush 0))])
    ++ (if s.replay.isEmpty then [] else [execEvLogReplay])
    ++ (s.contexts.flatMap fun c => c.tags.flatMap fun e => [execEvDeadlineExpiry c.id e.1, execEvTagReclaim c.id e.1])
    ++ (s.plat.fifos.map fun e => execEvFifoEntryAvailable (e.1 / 2) (e.1 % 2))
    ++ (s.plat.islands.flatMap fun e => [execEvIslandGated e.1, execEvIslandOn e.1, execEvLevelChange e.1])
    ++ ((List.range s.plat.held.length).map fun k => execEvNoRoute k)
    ++ [execEvRollCallClose, execEvOwnershipLapse, takeTurn (.background none (.tick 1))]

/-- Every agent inside the module. -/
def allAgents (s : State) : List Agent := waveAgents s ++ engineAgents s ++ packetAgents s ++ otherAgents s

/-- The first agent of a list that changes the state acts. -/
def firstChange (s : State) : List Agent → Host.Outcome State Fault Refusal
  | [] => .next s
  | f :: fs => match f s with
    | .next u => if u = s then firstChange s fs else .next u
    | o => o

/-- A list with its first n elements moved to its end. -/
def rotate {α : Type} (n : Nat) (l : List α) : List α := l.drop n ++ l.take n

/-- With an empty agenda the agents inside the module take turns: the first that changes the state, in an order that
rotates from step to step. -/
def defaultStep (s : State) : Host.Outcome State Fault Refusal :=
  let fs := allAgents s
  firstChange { s with rota := s.rota + 1 } (rotate (s.rota % fs.length) fs)

end Sys2Proof.Machine
end

