-- ==== Sys2Proof/Machine/Step.lean ====
section
/-!
DEFINITION. One step of the machine, and the placing of an instruction where the next step fetches it.
-/

namespace Sys2Proof.Machine

/-- One step: the first turn of the agenda, or, when it is empty, a turn of an agent inside the module. -/
def step (s : State) : Host.Outcome State Fault Refusal :=
  finishTurn (match s.agenda with
    | [] => defaultStep s
    | t :: ts => takeTurn t { s with agenda := ts })

/-- The kernel that placed words run in (log entry 9). -/
def seatKernel : Kernel :=
  { addr := 0, entry := 0, regs := 128, width := 8, restartMode := false, matrix := true, teamSize := 8, teams := 1
    scratch := 0x50000, column := 0, restart := 0, traph := none, mstream := 0, mlen := 1, params := 0, fpmode0 := 1
    waitBudget0 := 0 }

/-- The packet that launched it. -/
def seatPacket : Packet := { ctx := 0, q := 0, stack := 0, cls := 0, bytes := List.replicate 64 0 }

/-- Its launch. -/
def seatLaunch (id : Nat) : Launch :=
  { id := id, ctx := 0, packet := seatPacket, kernel := seatKernel, params := 0, version := 0, pool := false, gridX := 1
    gridY := 1, gridZ := 1, count := 1, nextGroup := 1, completed := 0, waiting := [], drained := false, status := 0
    cause := 0, poolA := 0, bins := [], formedQueue := [], flush := false, flushPa := 0, order := 0 }

/-- Its cohort, of one wave. -/
def seatCohort (id : Nat) : Cohort :=
  { id := id, ctx := 0, launch := id, group := 0, cluster := 0, cores := [0], tags := [id], label := 0, restarts := 0
    version := 0, bars := List.replicate 8 { count := false, expected := 8, arrived := 0, gen := 0 }, formed := none
    order := 0, waves := 1 }

/-- Its context. -/
def seatContext : Context :=
  { id := 0, ptroot := 0, classMax := 0, pwr := true, pinQuota := 0, cloakPa := 0, egressPa := 0, vspillPa := 0
    vlogPa := 0, cloakLog2 := 4, egressLog2 := 4, vspillLog2 := 8, vlogLog2 := 8, fabric := 0, tags := []
    bindings := [], append := 0, take := 0 }

/-- A resident cohort for placed words, when there is no focused wave to run them. -/
def seat (s : State) : State :=
  let id := s.nextId
  { s with
    contexts := if (s.context 0).isSome then s.contexts else s.contexts ++ [seatContext]
    launches := s.launches ++ [seatLaunch id]
    cohorts := s.cohorts ++ [seatCohort id]
    w := { on := true, id := id, cohort := id, nregs := 128 }
    waves := (if s.w.on then [s.w] else []) ++ s.waves
    nextId := id + 1 }

/-- The state with a focused wave that can issue. -/
def seatWave (s : State) : State := if s.w.on && !s.w.ended then s else seat s

/-- The focused wave made the one whose last issue is oldest, so that its partition chooses it (R79). -/
def putFirst (s : State) : State :=
  { s with w := { s.w with last := 0 }, waves := s.waves.map fun x => { x with last := x.last + 1 }, slots := s.slots + 1 }

/-- R31: the header of a clause of class ANY that holds n words. -/
def anyHeader (n : Nat) : Nat := n + 7 * 2 ^ 4 + 0xB * 2 ^ 28

/-- A clause of the focused wave that holds the words and nothing else, about to issue its first word. -/
def placeWords (ws : List Nat) (s : State) : State :=
  let s := putFirst (seatWave s)
  let lanes := s.w.ready
  let c : Clause := { hdr := s.w.pcOf (lowest lanes), head := anyHeader ws.length, words := ws, idx := 0, at_ := 0
                      issue := lanes, active := lanes }
  { s with w := { s.w with clause := some c, hold := .none }, agenda := [.issue (some s.w.id)] }

/-- A header, with words of zeros after it, held fetched by the focused wave at its PC. -/
def placeHeader (h : Nat) (s : State) : State :=
  let s := putFirst (seatWave s)
  let pc := (s.w.pcOf (lowest s.w.ready)).toNat
  let words := (h :: List.replicate 15 0).zipIdx.map fun e => (pc + 4 * e.2, e.1)
  { s with w := { s.w with clause := none, hold := .none, handler := false, squash := false, late := [], fast := false
                           fetched := words }
           agenda := [.issue (some s.w.id)] }

/-- A running stream of the focused wave's cohort whose next word is held fetched. -/
def placeStream (w : Nat) (s : State) : State :=
  let s := seatWave s
  let x : Stream := { on := true, cohort := s.w.cohort, state := 1, status := 0, forker := s.w.id
                      forkLanes := s.w.ready, fetched := [(0, w)] }
  { s with st := x, streams := (heldStreams s).filter (·.cohort != s.w.cohort), agenda := [.stream s.w.cohort] }

/-- A run of queue 0 of context 0 whose program is the words. -/
def placeQueue (ws : List Nat) (s : State) : State :=
  let s := seatWave s
  let x : Queue :=
    { on := true, windows := List.replicate 4 { base := 0, len2 := 8, wr := true }, state := .ready, prog := ws
      buf := List.replicate 64 0, run := some { pc := 0, used := 0, loop := none } }
  { s with q := x, queues := (allQueues s).filter (fun y => !(y.ctx == 0 && y.num == 0)), agenda := [.queue 0 0] }

/-- The state with an instruction of the opcode table placed where the next step fetches it (log entries 9 and 10): its
words are laid out and read by the decoders in the order of `decodeTableWord`. -/
def State.withFetchWord (s : State) (nbits w : Nat) : State :=
  if nbits == 0 then s
  else
    let w0 := bits w 0 32
    let e := bits w 32 32
    match decodeBytes (wordBytes w0 ++ wordBytes e) with
    | .ok _ => placeWords (if simtSize w0 == 2 then [w0, e] else [w0]) s
    | .error _ => match decodeStream w0 with
      | .ok _ => placeStream w0 s
      | .error _ => match decodeQueue w0 (some e) with
        | .ok _ => placeQueue (if queueSize w0 == 2 then [w0, e] else [w0]) s
        | .error _ => placeHeader w0 s

end Sys2Proof.Machine
end

