-- ==== Sys2Proof/Safety.lean ====
section
/-!
DEFINITION. What a safe run is, and the terms in which the statements speak of one step: that it answers a next state,
which fields an instruction writes, and that every other one is as before.
-/

namespace Sys2Proof.Safety

open Sys2Proof.Machine

/-- The outcome is a next state that has a property. -/
def Gives (o : Host.Outcome State Fault Refusal) (P : State → Prop) : Prop := ∃ t, o = .next t ∧ P t

/-- The canonical form of home memory (R3). -/
def MemOk (s : State) : Prop := Memory.wf s.mem = true

/-! ## What a register-writing instruction leaves

Each of these says that everything but the named files of the focused wave, and the CHANGED bits of R86, is as before:
every other register, the flags, the special and trap registers, the program counters, every other unit and every byte
of memory. -/

/-- Only vector registers (and CHANGED) of the focused wave are written. -/
def OnlyVector (s t : State) : Prop := t = { s with w := { s.w with v := t.w.v, changed := t.w.changed } }

/-- Only vector registers and FPMODE are written. -/
def OnlyVectorFp (s t : State) : Prop :=
  t = { s with w := { s.w with v := t.w.v, changed := t.w.changed, fpmode := t.w.fpmode } }

/-- Only predicates are written. -/
def OnlyPredicate (s t : State) : Prop := t = { s with w := { s.w with p := t.w.p, changed := t.w.changed } }

/-- Only predicates and FPMODE are written. -/
def OnlyPredicateFp (s t : State) : Prop :=
  t = { s with w := { s.w with p := t.w.p, changed := t.w.changed, fpmode := t.w.fpmode } }

/-- Only vector registers and predicates are written. -/
def OnlyVectorPredicate (s t : State) : Prop :=
  t = { s with w := { s.w with v := t.w.v, p := t.w.p, changed := t.w.changed } }

/-- Only scalar registers and FPMODE are written. -/
def OnlyScalarFp (s t : State) : Prop :=
  t = { s with w := { s.w with s := t.w.s, changed := t.w.changed, fpmode := t.w.fpmode } }

/-- Only scalar registers are written. -/
def OnlyScalar (s t : State) : Prop := t = { s with w := { s.w with s := t.w.s, changed := t.w.changed } }

/-- Whether a lane is ACTIVE. -/
abbrev Active (s : State) (l : Nat) : Prop := s.w.active.getLsbD l = true

/-- Vector register d holds a value in every ACTIVE lane; every other register of every lane is as before. -/
def VectorIs (d : Nat) (val : Nat → Word) (s t : State) : Prop :=
  ∀ l r, r < 128 → t.w.vreg l r = if Active s l ∧ r = d then val l else s.w.vreg l r

/-- The pair of registers d and d + 1 holds a 64-bit value in every ACTIVE lane, low half in d (R73). -/
def PairIs (d : Nat) (val : Nat → DWord) (s t : State) : Prop :=
  ∀ l r, r < 128 → t.w.vreg l r =
    if Active s l ∧ r = d then (val l).setWidth 32
    else if Active s l ∧ r = d + 1 then (val l >>> 32).setWidth 32
    else s.w.vreg l r

/-- Predicate p holds a truth value in every ACTIVE lane; p7 discards the write (R73); every other predicate of every
lane is as before. -/
def PredicateIs (p : Nat) (val : Nat → Bool) (s t : State) : Prop :=
  ∀ q l, t.w.pred q l = if Active s l ∧ q = p ∧ p ≠ 7 then val l else s.w.pred q l

/-- R107: scalar d holds a value, written once; nothing is written when ACTIVE is empty. -/
def ScalarIs (d : Nat) (val : Word) (s t : State) : Prop :=
  ∀ r, t.w.sreg r = if r = d ∧ s.w.active ≠ 0 then val else s.w.sreg r

/-- R107: the scalar pair d, d + 1 holds a 64-bit value. -/
def ScalarPairIs (d : Nat) (val : DWord) (s t : State) : Prop :=
  ∀ r, t.w.sreg r =
    if r = d ∧ s.w.active ≠ 0 then val.setWidth 32
    else if r = d + 1 ∧ s.w.active ≠ 0 then (val >>> 32).setWidth 32 else s.w.sreg r

/-- R66 step 2: each sticky flag of FPMODE (bits 16 to 20) is set when an ACTIVE lane raised its exception; every other
bit of FPMODE is as before. -/
def FlagsRaised (exc : Nat → Exc) (s t : State) : Prop :=
  ∀ n, t.w.fpmode.getLsbD n = true ↔
    s.w.fpmode.getLsbD n = true ∨ (16 ≤ n ∧ n < 32 ∧ ∃ l, Active s l ∧ (exc l).getLsbD (n - 16) = true)

/-- A vector result: the registers and the frame. -/
def VectorResult (d : Nat) (val : Nat → Word) (s t : State) : Prop := OnlyVector s t ∧ VectorIs d val s t

/-- A 64-bit vector result. -/
def PairResult (d : Nat) (val : Nat → DWord) (s t : State) : Prop := OnlyVector s t ∧ PairIs d val s t

/-- A floating-point result: the delivered values, the flags and the frame. -/
def FpResult (d : Nat) (r : Nat → Word × Exc) (s t : State) : Prop :=
  OnlyVectorFp s t ∧ VectorIs d (fun l => (r l).1) s t ∧ FlagsRaised (fun l => (r l).2) s t

/-- A predicate result. -/
def PredicateResult (p : Nat) (val : Nat → Bool) (s t : State) : Prop := OnlyPredicate s t ∧ PredicateIs p val s t

/-- A scalar result. -/
def ScalarResult (d : Nat) (val : Word) (s t : State) : Prop := OnlyScalar s t ∧ ScalarIs d val s t

/-- A 64-bit scalar result. -/
def ScalarPairResult (d : Nat) (val : DWord) (s t : State) : Prop := OnlyScalar s t ∧ ScalarPairIs d val s t

/-- R121: an operand under T: unsigned for T = 0, two's-complement otherwise. -/
def num (t : Nat) (x : Word) : Int := if t = 0 then (x.toNat : Int) else x.toInt

/-- R121: an exact result modulo 2^32, or clamped by SAT to the range T names. -/
def fit (t : Nat) (sat : Bool) (v : Int) : Word :=
  if sat = false then BitVec.ofInt 32 v
  else if t = 0 then BitVec.ofInt 32 (max 0 (min (2 ^ 32 - 1) v))
  else BitVec.ofInt 32 (max (-2 ^ 31) (min (2 ^ 31 - 1) v))

/-- R135: whether a lane belongs to the member set of a cross-lane instruction. -/
def Member (f : V3) (s : State) (l : Nat) : Prop := match f.xw with
  | none => Active s l
  | some x => if x.c % 16 = 15 then Active s l else (s.w.mreg (x.c % 16)).getLsbD l = true

/-- R135: whether a lane takes part in a cross-lane instruction: a member that has not exited. -/
def Participates (f : V3) (s : State) (l : Nat) : Prop :=
  Member f s l ∧ l < s.w.width ∧ s.w.exited.getLsbD l = false

/-- R90: no ACTIVE lane leaves itself out of the member mask. -/
def NoSelfOmission (f : V3) (s : State) : Prop := ∀ l, Active s l → Member f s l

/-- No floating-point exception of FPMODE is enabled (bits 5 to 9, R59). -/
def Quiet (s : State) : Prop := ∀ n, 5 ≤ n → n < 10 → s.w.fpmode.getLsbD n = false

/-- R144: a branch target that does not trap. -/
def GoodTarget (next t : DWord) : Prop := t = next ∨ (t.toNat < 2 ^ 52 ∧ t.toNat % 4 = 0)

/-- R66: a floating-point instruction. When no enabled exception is raised it completes. With one raised, it first
completes, results and flags; the wave then takes the trap of the first enabled exception raised, in the order of R66,
for exactly the lanes that raised it, with its destination in TRAPDST. -/
def FpCompletes (i : Instr) (exc : Nat → Exc) (dst : Nat) (done : State → State → Prop) (s : State) : Prop :=
  ((∀ k l, k < 5 → s.w.fpmode.getLsbD (5 + k) = true → Active s l → (exc l).getLsbD k = false) →
    Gives (exec i s) (done s)) ∧
  ∀ (k : Nat) (cause : Cause),
    [Cause.fpInvalid, .fpDivzero, .fpOverflow, .fpUnderflow, .fpInexact][k]? = some cause →
    s.w.fpmode.getLsbD (5 + k) = true → (∃ l, Active s l ∧ (exc l).getLsbD k = true) →
    (∀ j, j < k → s.w.fpmode.getLsbD (5 + j) = true → ∀ l, Active s l → (exc l).getLsbD j = false) →
    ∃ (u : State) (mask : Lanes), done s u ∧
      (∀ l, mask.getLsbD l = true ↔ Active s l ∧ (exc l).getLsbD k = true) ∧
      exec i s = .next (raise cause mask dst 0 u)

/-- A floating-point instruction with the results of a computation over its sources. -/
def FpRuns (i : V3 → Instr) (value : Word → V3 → Word → Word → Word → Word × Exc) : Prop :=
  ∀ (f : V3) (s : State), f.d < 128 →
    let r := fun l => value s.w.fpmode f (s.w.srcA f l) (s.w.srcB f l) (s.w.srcC f l)
    FpCompletes (i f) (fun l => (r l).2) (128 + f.d) (FpResult f.d r) s

/-! ## What floating-point results are (R53-R65, R113-R119, R129, R130) -/

/-- The number of a sign, a magnitude and an exponent. -/
def ratOf (neg : Bool) (m : Nat) (e : Int) : Rat := if neg then -((m : Rat) * 2 ^ e) else (m : Rat) * 2 ^ e

/-- The magnitude that an exact result stands for: m units of 2^e, or, with the mark, one strictly between m and m + 1
units. -/
def Denotes (x : Ex) (v : Rat) : Prop :=
  if x.sticky then (x.m : Rat) * 2 ^ x.e < v ∧ v < ((x.m : Rat) + 1) * 2 ^ x.e else v = (x.m : Rat) * 2 ^ x.e

/-- An operation gives an exact number, of the sign given when it is a zero. -/
def GivesExact (r : OpRes) (v : Rat) (zneg : Bool) : Prop :=
  ∃ x : Ex, r = .num x ∧ x.sticky = false ∧ ratOf x.neg x.m x.e = v ∧ (x.m = 0 → x.neg = zneg)

/-- An operation gives a number of a sign whose magnitude is known to far more bits than any format holds. -/
def GivesNear (r : OpRes) (neg : Bool) (P : Ex → Prop) : Prop :=
  ∃ x : Ex, r = .num x ∧ x.neg = neg ∧ (x.sticky = true → 2 ^ 25 ≤ x.m) ∧ P x

/-- R61: n units of u are what a magnitude v of a sign rounds to under a mode. -/
def RoundsTo (mode : Nat) (neg : Bool) (v u : Rat) (n : Nat) : Prop :=
  let a := (n : Rat) * u
  let below := a ≤ v ∧ v < a + u
  let above := v ≤ a ∧ a < v + u
  if mode = 1 then 2 * a ≤ 2 * v + u ∧ 2 * v ≤ 2 * a + u ∧ ((2 * a = 2 * v + u ∨ 2 * v = 2 * a + u) → n % 2 = 0)
  else if mode = 2 then below
  else if mode = 3 then (if neg then below else above)
  else if mode = 4 then (if neg then above else below)
  else if mode = 5 then 2 * a ≤ 2 * v + u ∧ 2 * v < 2 * a + u
  else a = v ∨ (n % 2 = 1 ∧ a < v + u ∧ v < a + u)

/-- R61: rounding to a multiple of 2^q. -/
def RoundingRight : Prop :=
  ∀ (mode : Nat) (x : Ex) (q : Int) (v : Rat), 1 ≤ mode → mode ≤ 6 → Denotes x v → (x.sticky = true → x.e < q) →
    RoundsTo mode x.neg v (2 ^ q) (roundAt mode x q).1 ∧
    ((roundAt mode x q).2 = true ↔ ((roundAt mode x q).1 : Rat) * 2 ^ q ≠ v)

/-- R53, R61-R65: delivery in F32, F16, BF16, E4M3, E5M2 and E2M1. A number is rounded at the last place of the format
(that of its subnormals, below the smallest normal); beyond the largest finite value it takes the result of R62 and R63;
a subnormal under FTZ becomes a zero; else the pattern reads as the rounded number, inexact is raised exactly when it
differs, and underflow when, besides, its rounding with the exponent unbounded is below the smallest normal. A zero
keeps its sign. -/
def DeliveryRight : Prop :=
  ∀ k inf big, (k, inf, big) ∈ [(FFmt.f32, 0x7F800000, 0x7F7FFFFF), (.f16, 0x7C00, 0x7BFF), (.bf16, 0x7F80, 0x7F7F),
      (.e4m3, 0x7F, 0x7E), (.e5m2, 0x7C, 0x7B), (.e2m1, 7, 7)] →
  ∀ (mode : Nat) (sat ftz : Bool) (x : Ex) (v : Rat), 1 ≤ mode → mode ≤ 6 → Denotes x v →
    (x.sticky = true → 2 ^ 25 ≤ x.m) →
    let r := k.deliver mode sat ftz x
    let sign := if x.neg = true then 2 ^ (k.w - 1) else 0
    (x.m = 0 → r = (sign, 0)) ∧
    (x.m ≠ 0 → ∃ n nU : Nat,
      let qU : Int := x.e + Nat.log2 x.m - k.fb
      let q : Int := max qU (1 - k.bias - k.fb)
      let y : Rat := n * 2 ^ q
      RoundsTo mode x.neg v (2 ^ q) n ∧ RoundsTo mode x.neg v (2 ^ qU) nU ∧
      (ratOf false k.maxFin.2 ((k.maxFin.1 : Int) - k.bias - k.fb) < y →
        r = (sign + (if sat = false ∧ (mode = 1 ∨ mode = 5 ∨ (mode = 3 ∧ x.neg = false) ∨ (mode = 4 ∧ x.neg = true))
          then inf else big), .ovf ||| .inx)) ∧
      (y ≤ ratOf false k.maxFin.2 ((k.maxFin.1 : Int) - k.bias - k.fb) →
        (ftz = true → 0 < y → y < 2 ^ (1 - k.bias : Int) → r = (sign, .unf ||| .inx)) ∧
        (¬(ftz = true ∧ 0 < y ∧ y < 2 ^ (1 - k.bias : Int)) →
          (∃ m e, k.read r.1 = .fin x.neg m e ∧ ratOf false m e = y) ∧
          r.2 = (if y = v then 0 else if (nU : Rat) * 2 ^ qU < 2 ^ (1 - k.bias : Int) then .unf ||| .inx else .inx))))

/-- R113, R116, R119: the exact results of the arithmetic on finite numbers: a sum has the sign of its terms when all are
zeros of one sign, and else that of R61; a quotient and a root are exact, or marked as lying above so many bits. -/
def ArithmeticRight : Prop :=
  ∀ (mode : Nat) (s t : Bool) (m n : Nat) (e f : Int),
    let a := ratOf s m e
    let b := ratOf t n f
    let sumZero := fun (p q : Bool) (zero : Prop) [Decidable zero] => if zero ∧ p = q then p else decide (mode = 4)
    GivesExact (fAdd mode (.fin s m e) (.fin t n f)) (a + b) (sumZero s t (m = 0 ∧ n = 0)) ∧
    GivesExact (opSub mode (.fin s m e) (.fin t n f) (.inf s)) (a - b) (sumZero s (!t) (m = 0 ∧ n = 0)) ∧
    GivesExact (fMul (.fin s m e) (.fin t n f)) (a * b) (s != t) ∧
    (∀ (u : Bool) (o : Nat) (g : Int), GivesExact (fFma mode (.fin s m e) (.fin t n f) (.fin u o g))
      (a * b + ratOf u o g) (sumZero (s != t) u (m * n = 0 ∧ o = 0))) ∧
    (n ≠ 0 → GivesNear (fDiv (.fin s m e) (.fin t n f)) (s != t) fun x =>
      Denotes x (ratOf false m e / ratOf false n f)) ∧
    (m ≠ 0 → GivesNear (fRcp (.fin s m e)) s fun x => Denotes x (1 / ratOf false m e)) ∧
    (m ≠ 0 → s = false → GivesNear (fSqrt (.fin s m e)) false fun x =>
      let r := ratOf false x.m x.e
      let r' := ratOf false (x.m + 1) x.e
      if x.sticky then r * r < a ∧ a < r' * r' else r * r = a) ∧
    (m ≠ 0 → s = false → GivesNear (fRsq (.fin s m e)) false fun x =>
      let r := ratOf false x.m x.e
      let r' := ratOf false (x.m + 1) x.e
      if x.sticky then r * r * a < 1 ∧ 1 < r' * r' * a else r * r * a = 1) ∧
    (1 ≤ mode → mode ≤ 5 → ∃ k : Nat, RoundsTo mode s (ratOf false m e) 1 k ∧
      GivesExact (fRint mode (.fin s m e)) (ratOf s k 0) s ∧
      (fRintInexact mode (.fin s m e) = true ↔ (k : Rat) ≠ ratOf false m e)) ∧
    GivesExact (fFrac (.fin s m e)) (a - a.floor) false ∧
    (∀ k : Int, -4096 ≤ k → k ≤ 4096 → GivesExact (fScale k (.fin s m e)) (a * 2 ^ k) s)

/-- R65, R113: the operations on infinities and zeros that have no exact number: invalid, or an infinity. -/
def SpecialsRight : Prop :=
  ∀ (mode : Nat) (s t : Bool) (m : Nat) (e : Int), m ≠ 0 →
    fAdd mode (.inf s) (.inf t) = (if s = t then .inf s 0 else .nan true) ∧
    fAdd mode (.inf s) (.fin t m e) = .inf s 0 ∧ fAdd mode (.fin t m e) (.inf s) = .inf s 0 ∧
    fMul (.inf s) (.inf t) = .inf (s != t) 0 ∧ fMul (.inf s) (.fin t m e) = .inf (s != t) 0 ∧
    fMul (.inf s) (.fin t 0 e) = .nan true ∧ fMul (.fin t 0 e) (.inf s) = .nan true ∧
    fDiv (.inf s) (.inf t) = .nan true ∧ fDiv (.fin s 0 e) (.fin t 0 e) = .nan true ∧
    fDiv (.fin s m e) (.fin t 0 e) = .inf (s != t) .dz ∧ fDiv (.inf s) (.fin t m e) = .inf (s != t) 0 ∧
    fRcp (.fin s 0 e) = .inf s .dz ∧ fRsq (.fin s 0 e) = .inf s .dz ∧
    fSqrt (.fin true m e) = .nan true ∧ fRsq (.fin true m e) = .nan true ∧ fLog2 (.fin true m e) = .nan true ∧
    fSqrt (.inf false) = .inf false 0 ∧ fLog2 (.inf false) = .inf false 0 ∧ fLog2 (.fin s 0 e) = .inf true .dz ∧
    fExp2 (.inf false) = .inf false 0 ∧ fSin (.inf s) = .nan true ∧ fCos (.inf s) = .nan true ∧ fFrac (.inf s) = .nan true ∧
    fRint mode (.inf s) = .inf s 0 ∧ fScale e (.inf s) = .inf s 0

/-- R115: the exact cases of the functions: an integer power, the logarithm of a power, and the quarter turns. -/
def FunctionsRight : Prop :=
  (∀ (s : Bool) (m : Nat) (e i : Int), ratOf s m e = (i : Rat) → -4096 < i → i < 4096 →
    GivesExact (fExp2 (.fin s m e)) (2 ^ i) false) ∧
  (∀ (m : Nat) (e i : Int), ratOf false m e = 2 ^ i → GivesExact (fLog2 (.fin false m e)) (i : Rat) false) ∧
  (∀ (s : Bool) (m : Nat) (e i : Int), 4 * ratOf s m e = (i : Rat) →
    GivesExact (fSin (.fin s m e)) (if i % 4 = 1 then 1 else if i % 4 = 3 then -1 else 0) s ∧
    GivesExact (fCos (.fin s m e)) (if i % 4 = 0 then 1 else if i % 4 = 2 then -1 else 0) false)

/-- R117: two products and an addend, all finite, are summed exactly and rounded once. -/
def DotRight : Prop :=
  ∀ (m : Word) (f : V3) (a b d : Word), f.t = 1 ∨ f.t = 2 →
    let k := vfmt f.t
    let p0 := fsrc m f.t 0 f.x a b 0
    let p1 := fsrc m f.t 1 f.x a b 0
    ∀ (s0 s1 s2 s3 s4 : Bool) (m0 m1 m2 m3 m4 : Nat) (e0 e1 e2 e3 e4 : Int),
      k.read p0.a = .fin s0 m0 e0 → k.read p0.b = .fin s1 m1 e1 → k.read p1.a = .fin s2 m2 e2 →
      k.read p1.b = .fin s3 m3 e3 → FFmt.f32.read (FFmt.f32.source (fpDaz m) false f.x.negc d.toNat) = .fin s4 m4 e4 →
      ∃ x : Ex, x.sticky = false ∧ ratOf x.neg x.m x.e = ratOf s0 m0 e0 * ratOf s1 m1 e1
          + ratOf s2 m2 e2 * ratOf s3 m3 e3 + ratOf s4 m4 e4 ∧
        dot2 m f a b d = (BitVec.ofNat 32 (FFmt.f32.deliver (rndOf m f.x.rnd) f.x.sat (fpFtz m) x).1,
          (FFmt.f32.deliver (rndOf m f.x.rnd) f.x.sat (fpFtz m) x).2)

/-- R57, R61, R63: a number converted to an integer format, and to E8M0. The tie and the odd bit of E8M0 are the reading
of log entry 64. -/
def ConversionRight : Prop :=
  (∀ (c mode : Nat) (x : Ex), 7 ≤ c → c ≤ 12 → 1 ≤ mode → mode ≤ 6 → x.sticky = false → ∃ n : Nat,
    RoundsTo mode x.neg (ratOf false x.m x.e) 1 n ∧
    let v := if x.neg then -(n : Int) else n
    let r := deliverInt c mode x
    (v < (intRange c).1 → intValue c r.1 = (intRange c).1 ∧ r.2 = .inv) ∧
    ((intRange c).2 < v → intValue c r.1 = (intRange c).2 ∧ r.2 = .inv) ∧
    ((intRange c).1 ≤ v → v ≤ (intRange c).2 → intValue c r.1 = v ∧
      r.2 = if (n : Rat) = ratOf false x.m x.e then 0 else .inx)) ∧
  (∀ (mode : Nat) (sat : Bool) (x : Ex), 1 ≤ mode → mode ≤ 6 → x.sticky = false →
    let v := ratOf false x.m x.e
    let r := deliverE8 mode sat x
    (x.m = 0 → r = (0, .inv)) ∧ (x.m ≠ 0 → x.neg = true → r = (0xFF, .inv)) ∧
    (x.m ≠ 0 → x.neg = false → ∀ j : Int, (2 : Rat) ^ j ≤ v → v < 2 ^ (j + 1) → ∃ i : Int,
      (v = 2 ^ j → i = j) ∧
      (v ≠ 2 ^ j → i = if mode = 3 ∨ (mode = 6 ∧ (j + 127) % 2 = 0)
          ∨ ((mode = 1 ∨ mode = 5) ∧ 3 * 2 ^ j < 2 * v)
          ∨ (2 * v = 3 * 2 ^ j ∧ (mode = 5 ∨ (mode = 1 ∧ (j + 127) % 2 ≠ 0))) then j + 1 else j) ∧
      (i < -127 → r = (0, .unf ||| .inx)) ∧
      (127 < i → r = (if sat = true ∨ mode = 2 ∨ mode = 4 ∨ mode = 6 then 0xFE else 0xFF, .ovf ||| .inx)) ∧
      (-127 ≤ i → i ≤ 127 → (r.1 : Int) = i + 127 ∧ r.2 = if v = 2 ^ j then 0 else .inx)))

/-- R118: the class of an element of T after DAZ and the modifiers, one bit of ten; of both halves for a packed type. -/
def ClassesRight : Prop :=
  ∀ (m : Word) (f : V3) (a : Word), f.t ≤ 2 →
    let k := vfmt f.t
    let cls := fun (h : Nat) =>
      let raw := (fsrc m f.t h f.x a 0 0).a
      match k.read raw with
      | .nan _ => if raw.testBit (k.fb - 1) then 1 else 0
      | .inf s => if s then 2 else 9
      | .fin s n e =>
        if n = 0 then (if s then 5 else 6)
        else if ratOf false n e < 2 ^ (1 - k.bias : Int) then (if s then 4 else 7) else (if s then 3 else 8)
    fclassOp m f a = BitVec.ofNat 32 (if f.t = 0 then 2 ^ cls 0 else 2 ^ cls 0 + 2 ^ (16 + cls 1))

/-- R57-R64, R129, R130: CVT. The element that SSEL names is read in the source format; the result stands in the element
that DSEL names, and the other bits are the old ones with MERGE and 0 without. An integer to an integer is clamped or
cut; a number is delivered in the destination format; a subnormal under DAZ is a zero; an infinity and a NaN give what
R58 and R63 say. The NaN of E8M0, without sign or payload, gives the canonical NaN (log entry 65). -/
def ConvertsRight : Prop :=
  ∀ (m : Word) (ctl : Nat) (a d0 : Word),
    let width := fun (c : Nat) => [32, 16, 16, 8, 8, 4, 8, 8, 8, 16, 16, 32, 32].getD c 0
    let src := ctl % 16
    let dst := ctl / 2 ^ 4 % 16
    let ws := width src
    let wd := width dst
    let lo := wd * (ctl / 2 ^ 15 % 8)
    let mode := if ctl / 2 ^ 8 % 8 = 0 then m.toNat % 8 else ctl / 2 ^ 8 % 8
    let sat := ctl.testBit 11
    let raw := a.toNat / 2 ^ (ws * (ctl / 2 ^ 12 % 8)) % 2 ^ ws
    let r := cvtOp m ctl a d0
    let y := r.1.toNat / 2 ^ lo % 2 ^ wd
    let top := fun (neg : Bool) => if neg then 2 ^ (wd - 1) else 0
    let number := fun (x : Ex) => (y, r.2) =
      if 7 ≤ dst then deliverInt dst mode x
      else if dst = 6 then deliverE8 mode sat x
      else ((ffmtOf dst).getD .f32).deliver mode sat (m.getLsbD 3 && decide (dst ≤ 2)) x
    src ≤ 12 → dst ≤ 12 → ws * (ctl / 2 ^ 12 % 8) + ws ≤ 32 → lo + wd ≤ 32 →
      (∀ i, i < 32 → (i < lo ∨ lo + wd ≤ i) → r.1.getLsbD i = (ctl.testBit 18 && d0.getLsbD i)) ∧
      (7 ≤ src → 7 ≤ dst → r.2 = 0 ∧
        (sat = true → intValue dst y = max (intRange dst).1 (min (intRange dst).2 (intValue src raw))) ∧
        (sat = false → (y : Int) = intValue src raw % 2 ^ wd)) ∧
      (7 ≤ src → dst ≤ 6 → ∃ x : Ex, x.sticky = false ∧ ratOf x.neg x.m x.e = (intValue src raw : Rat) ∧
        (x.m = 0 → x.neg = false) ∧ number x) ∧
      (src = 6 → raw ≠ 255 → ∃ x : Ex, x.sticky = false ∧ ratOf x.neg x.m x.e = 2 ^ ((raw : Int) - 127) ∧ number x) ∧
      (src = 6 → raw = 255 →
        (dst = 5 ∨ 7 ≤ dst → y = 0 ∧ r.2 = .inv) ∧
        (∀ nan, (dst, nan) ∈ [(0, 0x7FC00000), (1, 0x7E00), (2, 0x7FC0), (3, 0x7F), (4, 0x7E), (6, 0xFF)] →
          y = nan ∧ r.2 = 0)) ∧
      (∀ k, ffmtOf src = some k →
        (∀ s n e, k.read raw = .fin s n e → ∃ x : Ex, x.sticky = false ∧ x.neg = s ∧ number x ∧
          ratOf false x.m x.e = if m.getLsbD 4 = true ∧ src ≤ 2 ∧ ratOf false n e < 2 ^ (1 - k.bias : Int) then 0
            else ratOf false n e) ∧
        (∀ s, k.read raw = .inf s →
          (7 ≤ dst → intValue dst y = (if s then (intRange dst).1 else (intRange dst).2) ∧ r.2 = .inv) ∧
          (∀ inf, (dst, inf) ∈ [(0, 0x7F800000), (1, 0x7C00), (2, 0x7F80), (4, 0x7C)] → y = top s + inf ∧ r.2 = 0) ∧
          (dst = 3 → y = top s + (if sat then 0x7E else 0x7F) ∧ r.2 = .ovf ||| .inx) ∧
          (dst = 5 → y = top s + 7 ∧ r.2 = .ovf ||| .inx) ∧
          (dst = 6 → if s then y = 0xFF ∧ r.2 = .inv else y = (if sat then 0xFE else 0xFF) ∧ r.2 = .ovf ||| .inx)) ∧
        (∀ p, k.read raw = .nan p →
          let neg := raw.testBit (ws - 1)
          let signals := decide (src ≠ 3) && !raw.testBit (k.fb - 1)
          (dst = 5 ∨ 7 ≤ dst → y = 0 ∧ r.2 = .inv) ∧
          (dst ≤ 4 ∨ dst = 6 → r.2 = if signals then .inv else 0) ∧ (dst = 6 → y = 0xFF) ∧
          (dst = 3 → y = if m.getLsbD 21 then 0x7F else top neg + 0x7F) ∧
          (∀ fb nan, (dst, fb, nan) ∈ [(0, 23, 0x7FC00000), (1, 10, 0x7E00), (2, 7, 0x7FC0), (4, 2, 0x7E)] →
            (m.getLsbD 21 = true → y = nan) ∧
            (m.getLsbD 21 = false → y / 2 ^ (fb - 1) = (top neg + nan) / 2 ^ (fb - 1) ∧
              ∀ j, 1 ≤ j → j < fb → y.testBit (fb - 1 - j) = (decide (j < k.fb) && raw.testBit (k.fb - 1 - j))))))

/-- R120: the conditions of FCMP, over one element or both, and the invalid that they raise; the order of infinities. -/
def FcmpRight : Prop :=
  (∀ (m : Word) (f : V3) (a b : Word), f.t ≤ 2 → f.d / 8 < 16 →
    let k := vfmt f.t
    let c := f.d / 8
    let x := fun (h : Nat) => (fsrc m f.t h f.x a b 0).a
    let y := fun (h : Nat) => (fsrc m f.t h f.x a b 0).b
    let holds := fun (h : Nat) =>
      let (lt, eq, gt, uno) := fvRel (k.read (x h)) (k.read (y h))
      [false, eq, lt, lt || eq, gt, gt || eq, lt || gt, !uno, uno, eq || uno, lt || uno, lt || eq || uno, gt || uno,
        gt || eq || uno, !eq || uno, true].getD c true
    let invalid := fun (h : Nat) => k.snan (x h) || k.snan (y h) ||
      (decide (2 ≤ c ∧ c ≤ 5) && (k.isNan (x h) || k.isNan (y h)))
    let both := decide (f.t ≠ 0)
    fcmpOp m f a b = (holds 0 && (!both || holds 1), if invalid 0 || (both && invalid 1) then .inv else 0)) ∧
  ∀ (s t : Bool) (n : Nat) (e : Int),
    fvRel (.inf s) (.inf t) = (s && !t, s == t, !s && t, false) ∧
    fvRel (.inf s) (.fin t n e) = (s, false, !s, false) ∧ fvRel (.fin t n e) (.inf s) = (!s, false, s, false)

/-- R125, R141: the conditions of ICMP, ICMPI and SCMP. -/
def IcmpRight : Prop :=
  ∀ (n : Nat) (a b : BitVec n) (c : Nat) (p : Prop),
    (c, p) ∈ [(0, a = b), (1, a ≠ b), (2, a.toInt < b.toInt), (3, a.toInt ≤ b.toInt), (4, b.toInt < a.toInt),
      (5, b.toInt ≤ a.toInt), (6, a.toNat < b.toNat), (7, a.toNat ≤ b.toNat), (8, b.toNat < a.toNat),
      (9, b.toNat ≤ a.toNat), (10, a &&& b ≠ 0), (11, a &&& b = 0), (12, False), (13, True)] → (icond c a b = true ↔ p)

/-- R140: the operations of SALU. -/
def SaluRight : Prop :=
  ∀ (a b v : Word) (c : Nat),
    (c, v) ∈ [(0, a + b), (1, a - b), (2, a &&& b), (3, a ||| b), (4, a ^^^ b),
      (5, if 32 ≤ b.toNat then 0 else a <<< b.toNat), (6, if 32 ≤ b.toNat then 0 else a >>> b.toNat), (7, a * b),
      (8, BitVec.ofNat 32 (min a.toNat b.toNat)), (9, BitVec.ofNat 32 (max a.toNat b.toNat)),
      (10, BitVec.ofInt 32 (min a.toInt b.toInt)), (11, BitVec.ofInt 32 (max a.toInt b.toInt)),
      (12, a.sshiftRight (min b.toNat 31))] → saluOp c a b = v

/-- R114, R120: the order of finite numbers: that of their values, with −0 below +0 for the minimum and the maximum; a
NaN makes the relation unordered, and the minimum or maximum of a number and a NaN is the number, or under the P forms
a NaN of R58. -/
def OrderRight : Prop :=
  (∀ (k : FFmt) (isMax prop s t : Bool) (a b m n : Nat) (e f : Int), k.read a = .fin s m e → k.read b = .fin t n f →
    let va := ratOf s m e
    let vb := ratOf t n f
    ((va < vb ∨ (va = vb ∧ s = true ∧ t = false)) → k.minMax isMax prop a b = .pat (if isMax then b else a) 0) ∧
    (¬(va < vb ∨ (va = vb ∧ s = true ∧ t = false)) → k.minMax isMax prop a b = .pat (if isMax then a else b) 0) ∧
    fvRel (k.read a) (k.read b) = (decide (va < vb), decide (va = vb), decide (vb < va), false)) ∧
  (∀ (k : FFmt) (isMax prop : Bool) (a b : Nat), k.isNan a = true →
    (k.isNan b = true ∨ prop = true → k.minMax isMax prop a b = .nan false) ∧
    (k.isNan b = false → prop = false → k.minMax isMax prop a b = .pat b (if k.snan a then .inv else 0)) ∧
    fvRel (k.read a) (k.read b) = (false, false, false, true)) ∧
  (∀ (k : FFmt) (isMax prop : Bool) (a b : Nat), k.isNan b = true → k.isNan a = false →
    (prop = true → k.minMax isMax prop a b = .nan false) ∧
    (prop = false → k.minMax isMax prop a b = .pat a (if k.snan b then .inv else 0)) ∧
    fvRel (k.read a) (k.read b) = (false, false, false, true))

/-- R109: the results of T put together: the one of a whole register, or those of the low and the high half, with the
exceptions of both. -/
def joined (t : Nat) (elem : Nat → Nat × Exc) : Word × Exc :=
  if t = 0 then (BitVec.ofNat 32 (elem 0).1, (elem 0).2)
  else (BitVec.ofNat 32 ((elem 0).1 + (elem 1).1 * 2 ^ 16), (elem 0).2 ||| (elem 1).2)

/-- R58, R62, R64: what an operation gives over its sources: a number is delivered; a NaN is R58's, of the operands in
their order; and a signalling NaN among them raises invalid besides. A pattern is as it stands, but for FTZ. -/
def delivered (k : FFmt) (d : Dlv) (srcs : List Nat) (r : OpRes) : Nat × Exc :=
  let raised := if srcs.any k.snan then Exc.inv else 0
  match r with
  | .nan i => ((if d.nanc then k.canon else match srcs.find? k.isNan with
      | some r => k.quiet r
      | none => k.canon), raised ||| if i then Exc.inv else 0)
  | .inf neg x => (k.infBits neg, raised ||| x)
  | .num x => ((k.deliver d.mode d.sat d.ftz x).1, raised ||| (k.deliver d.mode d.sat d.ftz x).2)
  | .pat raw x => if d.ftz = true ∧ k.subnormal raw = true then (k.signBit (k.sign raw), x ||| .unf ||| .inx) else (raw, x)

/-- R58-R64, R109, R112-R116, R119: how each group of instructions delivers: the rounding mode of RND or of FPMODE (R115
always rounds to nearest-even), SAT, FTZ and NANC, and the sources after DAZ and the modifiers. R115: only FEXP2 raises
underflow, by the reading of log entry 62. R116: FFRAC never gives 1.0. -/
def ElementsRight : Prop :=
  ∀ (m : Word) (f : V3) (a b c : Word),
    let k := vfmt f.t
    let src := fun (h : Nat) => fsrc m f.t h f.x a b c
    let d := fun (rnd : Nat) (sat : Bool) =>
      ({ mode := if rnd = 0 then m.toNat % 8 else rnd, sat := sat, ftz := m.getLsbD 3, nanc := m.getLsbD 21 } : Dlv)
    (∀ (n : Nat) (op : Nat → FV → FV → FV → OpRes), arith m f n op a b c = joined f.t fun h =>
      delivered k (d f.x.rnd f.x.sat) ([(src h).a, (src h).b, (src h).c].take n)
        (op (d f.x.rnd f.x.sat).mode (k.read (src h).a) (k.read (src h).b) (k.read (src h).c))) ∧
    (∀ isMax prop, minmax m f isMax prop a b = joined f.t fun h =>
      delivered k (d 0 false) [(src h).a, (src h).b] (k.minMax isMax prop (src h).a (src h).b)) ∧
    (∀ (under : Bool) (op : FV → OpRes), func m f under op a = joined f.t fun h =>
      let r := delivered k (d 1 f.x.sat) [(src h).a] (op (k.read (src h).a))
      (r.1, if under then r.2 else r.2 &&& ~~~Exc.unf)) ∧
    rint m f a = joined f.t (fun h =>
      let mode := (d f.x.rnd false).mode
      let r := delivered k (d f.x.rnd false) [(src h).a] (fRint mode (k.read (src h).a))
      (r.1, r.2 ||| if fRintInexact mode (k.read (src h).a) then Exc.inx else 0)) ∧
    frac m f a = joined f.t (fun h =>
      let r := delivered k (d f.x.rnd false) [(src h).a] (fFrac (k.read (src h).a))
      if r.1 = k.bias * 2 ^ k.fb then (r.1 - 1, r.2 ||| .inx) else r) ∧
    scale m f a b = joined f.t (fun h =>
      delivered k (d f.x.rnd f.x.sat) [(src h).a] (fScale
        (if f.t = 0 then b.toInt else (BitVec.ofNat 16 (b.toNat / 2 ^ (16 * h))).toInt) (k.read (src h).a)))

/-- R138: one combination of REDUX and SCANX by its code, and the identity of each. -/
def CombinesRight : Prop :=
  (∀ (m : Word) (f : V3) (a b : Word × Exc) (v : Word),
    (f.b, v) ∈ [(0, a.1 + b.1), (1, BitVec.ofNat 32 (min a.1.toNat b.1.toNat)),
      (2, BitVec.ofInt 32 (min a.1.toInt b.1.toInt)), (3, BitVec.ofNat 32 (max a.1.toNat b.1.toNat)),
      (4, BitVec.ofInt 32 (max a.1.toInt b.1.toInt)), (5, a.1 &&& b.1), (6, a.1 ||| b.1), (7, a.1 ^^^ b.1)] →
    comb m f a b = (v, a.2 ||| b.2)) ∧
  (∀ (m : Word) (f : V3) (a b : Word × Exc), 8 ≤ f.b → f.b ≤ 10 →
    let mode := if f.x.rnd = 0 then m.toNat % 8 else f.x.rnd
    let d : Dlv := { mode := mode, sat := false, ftz := m.getLsbD 3, nanc := m.getLsbD 21 }
    let va := FFmt.f32.read a.1.toNat
    let vb := FFmt.f32.read b.1.toNat
    let r := delivered .f32 d [a.1.toNat, b.1.toNat]
      (if f.b = 8 then fAdd mode va vb else FFmt.minMax .f32 (decide (f.b = 10)) false a.1.toNat b.1.toNat)
    comb m f a b = (BitVec.ofNat 32 r.1, a.2 ||| b.2 ||| r.2)) ∧
  (∀ (c : Nat) (v : Word), (c, v) ∈ [(0, 0), (1, 0xFFFFFFFF), (2, 0x7FFFFFFF), (3, 0), (4, 0x80000000),
    (5, 0xFFFFFFFF), (6, 0), (7, 0), (8, 0x80000000), (9, 0x7F800000), (10, 0xFF800000)] → redIdentity c = v)

/-- R138: what REDUX and SCANX give: the value at the root of the fixed tree over 64 lanes, an entry without a lane
leaving the other unchanged; and the combination of the lanes up to, or below, a lane in strictly ascending order. The
operations on floats take their sources after DAZ. Without a lane the result is the identity. -/
def TreeRight : Prop :=
  ∀ (s : State) (f : V3), f.b ≤ 10 →
    let src := fun (l : Nat) =>
      let v := s.w.vreg l f.a
      (if 8 ≤ f.b ∧ s.w.fpmode.getLsbD 4 = true ∧ v &&& 0x7F800000 = 0 then v &&& 0x80000000 else v, (0 : Exc))
    (∀ t : Nat → Nat → Option (Word × Exc),
      (∀ i, (Participates f s i → t 0 i = some (src i)) ∧ (¬Participates f s i → t 0 i = none)) →
      (∀ l i, l < 6 → i % 2 ^ (l + 1) = 0 → t (l + 1) i = match t l i, t l (i + 2 ^ l) with
        | some a, some b => some (comb s.w.fpmode f a b)
        | some a, none => some a
        | none, b => b) →
      reduxValue s.w f = (t 6 0).getD (redIdentity f.b, 0)) ∧
    ∀ (l : Nat) (js : List Nat), js.Pairwise (· < ·) →
      (∀ j, j ∈ js ↔ Participates f s j ∧ if f.t = 1 then j < l else j ≤ l) →
      (js = [] → scanValue s.w f l = (redIdentity f.b, 0)) ∧
      ∀ j rest, js = j :: rest →
        scanValue s.w f l = rest.foldl (fun acc k => comb s.w.fpmode f acc (src k)) (src j)

/-- An integer instruction completes with a computation's value in every ACTIVE lane of D. -/
def IntRuns (i : V3 → Instr) (value : V3 → Word → Word → Word → Word) : Prop :=
  ∀ (f : V3) (s : State), f.d < 128 → Gives (exec (i f) s)
    (VectorResult f.d (fun l => value f (s.w.srcA f l) (s.w.srcB f l) (s.w.srcC f l)) s)

/-- R123: a division writes every ACTIVE lane; then, without .Q, a zero divisor in an ACTIVE lane traps. -/
def DivRuns (i : V3 → Instr) (value : Nat → Word → Word → Word) : Prop :=
  ∀ (f : V3) (s : State), f.d < 128 →
    let zero := fun l => Active s l ∧ s.w.srcB f l = 0
    ((f.x.sat = true ∨ ∀ l, ¬zero l) → Gives (exec (i f) s)
      (VectorResult f.d (fun l => value f.t (s.w.srcA f l) (s.w.srcB f l)) s)) ∧
    (f.x.sat = false → (∃ l, zero l) → ∃ (u : State) (mask : Lanes),
      VectorResult f.d (fun l => value f.t (s.w.srcA f l) (s.w.srcB f l)) s u ∧
      (∀ l, mask.getLsbD l = true ↔ zero l) ∧
      exec (i f) s = .next (raise .intDivzero mask (128 + f.d) 0 u))

/-! ## Memory operations -/

/-- R12, R169, R177: pages that an instruction used stand in the TLBs of its core and cluster, after the walks they
needed, which read the tables at their homes: u is s with that done. With no reduction on its way to those homes, only
the TLBs and the lines of the stacked cache have changed. -/
def Filled (s u : State) : Prop :=
  (∃ ps : List (Nat × Leaf), u = ps.foldl (fun s p => fillTlb s.w.core s.ctxId p.1 p.2 s) s) ∧
  (s.updates = [] → u = { s with tlb := u.tlb, lines := u.lines, fresh := u.fresh, evicted := u.evicted })

/-- R36, R202: an operation has joined its counter: its instruction, lanes, and, for each lane, the operands as read at
issue and the page its address was checked against. A store, atomic or reduction also marks STORED (R86). Nothing else
has changed but the TLBs and what filling them reads. -/
def Issued (i : Instr) (ctr : Nat) (lanes : Nat → Prop) (src : Nat → List Nat) (page : Nat → Leaf → Prop)
    (stores : Bool) (s t : State) : Prop :=
  ∃ (u : State) (o : Op), Filled s u ∧ t = { u with
      w := { (if stores then u.w.markStored u.w.active else u.w) with ops := u.w.ops ++ [o] }, nextId := u.nextId + 1 } ∧
    o.i = i ∧ o.ctr = ctr ∧ o.perf = 0 ∧ o.res = [] ∧ o.homes = [] ∧ o.pc = u.w.wordPc ∧ o.word = u.w.word ∧
    o.version = u.w.version ∧ o.num = u.nextId ∧ (∀ l, o.lanes.getLsbD l = true ↔ lanes l) ∧ (∀ l, lanes l → o.args l = src l) ∧
    (∀ l leaf, lanes l → page l leaf → o.page l = some leaf)

/-- R36, R203: what a counted access of n bytes does at issue, given the check of each lane: with ACTIVE empty, nothing;
with every lane's check passed, it is issued; else it takes the cause of the lowest failing lane, for every lane that
fails with that cause, at that lane's address, and nothing is issued. -/
def AccessRuns (i : Instr) (ctr : Nat) (stores : Bool) (lanes : State → Nat → Prop) (va data : State → Nat → Nat)
    (check : State → Nat → Check) : Prop :=
  ∀ s : State,
    (s.w.active = 0 → exec i s = .next s) ∧
    (s.w.active ≠ 0 → (∀ l, lanes s l → ∃ leaf, check s l = .ok leaf) → Gives (exec i s)
      (Issued i ctr (lanes s) (fun l => [va s l, data s l]) (fun l leaf => check s l = .ok leaf) stores s)) ∧
    (∀ l c, lanes s l → check s l = .trap c → (∀ k, k < l → lanes s k → ∃ leaf, check s k = .ok leaf) →
      ∃ mask : Lanes, (∀ k, mask.getLsbD k = true ↔ lanes s k ∧ check s k = .trap c) ∧
        exec i s = .next (raise c mask (destReg i) (BitVec.ofNat 64 (va s l)) s))

/-- A counted access of global memory. -/
def GlobalRuns (i : Instr) (ctr : Nat) (ask : Ask) (stores : Bool) (va data : State → Nat → Nat) : Prop :=
  AccessRuns i ctr stores Active va data (fun s l => checkGlobal s ask (accessBytes i) (va s l))

/-- A counted access of scratch; a lane passes when its offset is aligned and lies in the space of its team (R21, R22). -/
def ScratchRuns (i : Instr) (ctr : Nat) (stores : Bool) (off data : State → Nat → Nat) : Prop :=
  AccessRuns i ctr stores Active off data (fun s l => checkScratch s (accessBytes i) (off s l))

/-- The focused wave has one outstanding operation, of one lane at tag 0, that has not been performed; `leaf` is the
lane's page, `va` and `data` its address and data. -/
def Alone (s : State) (o : Op) (l : Nat) (leaf : Leaf) (va data : Nat) : Prop :=
  s.w.on = true ∧ s.w.ended = false ∧ s.w.ops = [o] ∧ l < 64 ∧ o.lanes = laneBit l ∧ o.perf = 0 ∧ o.res = [] ∧
  o.homes = [] ∧ o.src = [(l, [va, data])] ∧ o.pages = [(l, leaf)] ∧ o.version = 0 ∧ s.w.exited.getLsbD l = false

/-- n bytes at a physical address lie in one sector of home memory that holds no error and that no lane waits on. -/
def Sound (s : State) (pa n : Nat) : Prop :=
  s.poison.contains (pa / 128) = false ∧ s.ecc.contains (pa / 128) = false ∧ readBit s.mem (waitCell pa) = false ∧
  pa % 128 + n ≤ 128 ∧ pa + n ≤ 0x1F00000000

/-- Moreover no store or reduction is on its way and no L1 holds a line. -/
def Calm (s : State) (pa n : Nat) : Prop := s.pending = [] ∧ s.updates = [] ∧ s.l1 = [] ∧ Sound s pa n

/-- n bytes of memory hold a number, little-endian (R3); every other byte is as before. -/
def Stored (pa n v : Nat) (s t : State) : Prop :=
  readMem t.mem pa n = v % 2 ^ (8 * n) ∧ ∀ a, a < pa ∨ pa + n ≤ a → readByte t.mem a = readByte s.mem a

/-- A full/empty bit is written; every other bit of memory is as before. -/
def BitStored (c : Nat × Nat) (b : Bool) (s t : State) : Prop :=
  ∀ d : Nat × Nat, d.2 < 8 → readBit t.mem d = if d = c then b else readBit s.mem d

/-- The outcome of the performance and landing of the one outstanding operation. -/
def Landed (ctr : Nat) (s : State) (P : State → Prop) : Prop :=
  Gives (exec (.evCountedResult ctr 0 (2 ^ 64 - 1) (2 ^ 64 - 1) false) s) P

/-- A value of n bytes is in the registers of a lane from d upwards (R202), the operation has left its counter, and no
other vector register has changed. -/
def InRegisters (l d n v : Nat) (s t : State) : Prop :=
  t.w.ops = [] ∧ ∀ k r, r < 128 → t.w.vreg k r =
    if k = l ∧ d ≤ r ∧ r < d + (n + 3) / 4 then BitVec.ofNat 32 (v / 2 ^ (32 * (r - d))) else s.w.vreg k r

/-- The frame of a landing that reads: the named register files, the counter, and the caches. -/
def ReadFrame (s t : State) : Prop :=
  t = { s with w := { s.w with v := t.w.v, s := t.w.s, changed := t.w.changed, ops := t.w.ops }, waves := t.waves,
               l1 := t.l1, lines := t.lines, fresh := t.fresh, evicted := t.evicted }

/-- The frame of an access performed at its home that writes: the same, with memory, predicates and the notices that a
write gives a queue or a pool (R378, R402). -/
def WriteFrame (s t : State) : Prop :=
  t = { s with w := { s.w with v := t.w.v, p := t.w.p, changed := t.w.changed, ops := t.w.ops }, waves := t.waves,
               mem := t.mem, l1 := t.l1, lines := t.lines, fresh := t.fresh, evicted := t.evicted, q := t.q,
               queues := t.queues, launches := t.launches }

/-- The focused wave has one outstanding operation, of several lanes (ascending) at tag 0 that all name one place, and it
has not been performed. -/
def Crowd (s : State) (o : Op) (ls : List Nat) (leaf : Leaf) (va : Nat) (data : Nat → Nat) : Prop :=
  s.w.on = true ∧ s.w.ended = false ∧ s.w.ops = [o] ∧ ls.Pairwise (· < ·) ∧ ls ≠ [] ∧
  (∀ l ∈ ls, l < 64 ∧ s.w.exited.getLsbD l = false) ∧ (∀ l, o.lanes.getLsbD l = true ↔ l ∈ ls) ∧ o.perf = 0 ∧ o.res = [] ∧
  o.homes = [] ∧ o.src = ls.map (fun l => (l, [va, data l])) ∧ o.pages = ls.map (fun l => (l, leaf)) ∧ o.version = 0

/-! ## Waits on memory (R211-R221) -/

/-- One lane is ACTIVE, at tag 0, and the wave has nothing outstanding. -/
def Single (s : State) (l : Nat) : Prop :=
  s.w.on = true ∧ s.w.ended = false ∧ l < 64 ∧ s.w.active = laneBit l ∧ s.w.ops = [] ∧ s.w.exited.getLsbD l = false ∧ s.w.version = 0

/-- R215, R216, R219: a lane parks with its slot; when no level has room for its record it takes FE_PARKFULL. The
waiters bit of its sector, or of its scratch block, is set (R186, R216); a record in the cloakroom (level 3) is written
after it, where the context's bucket lies. No register is written. -/
def Parks (i : Instr) (l kind data dst : Nat) (scratch : Bool) (va pa : Nat) (s t : State) : Prop :=
  t.w.parked = s.w.parked ||| laneBit l ∧ t.w.v = s.w.v ∧ t.w.ops = s.w.ops ∧ t.scratch = s.scratch ∧
  ∃ p : Park, t.w.parks = s.w.parks ++ [p] ∧ p.lane = l ∧ p.i = i ∧ p.kind = kind ∧ p.data = data ∧ p.pa = pa ∧
    p.scratch = scratch ∧ p.budget = s.w.waitBudget.toNat ∧ p.woken = false ∧
    (p.level = 0 → t.w.late = s.w.late ++ [{ cause := .feParkfull, mask := laneBit l, pc := s.w.wordPc
                                             word := s.w.word, dst := dst, addr := BitVec.ofNat 64 va }]) ∧
    (p.level ≠ 0 → t.w.late = s.w.late) ∧ (scratch = false → p.level ≠ 3 → readBit t.mem (waitCell pa) = true) ∧
    (scratch = true → pa / 128 ∈ t.scratchWait)

/-- R211, R221: a wait that is not satisfied: its lane parks. -/
def WaitParks (i : Instr) (va data : State → Nat → Nat) (kind : Nat) (ask : Ask) (unmet : State → Nat → Nat → Prop) :
    Prop :=
  ∀ (s : State) (l : Nat) (leaf : Leaf), Single s l → checkGlobal s ask 4 (va s l) = .ok leaf →
    let pa := leaf.addr (va s l)
    Calm s pa 4 → unmet s pa (data s l) →
      Gives (exec i s) (Parks i l kind (data s l) (destReg i) false (va s l) pa s)

/-- The same on scratch. -/
def WaitParksScratch (i : Instr) (off data : State → Nat → Nat) (kind : Nat) (full : Bool) : Prop :=
  ∀ (s : State) (l cell : Nat), Single s l → off s l % 4 = 0 → scratchCell s (off s l) 4 = some cell →
    scratchFull s cell = full →
      Gives (exec i s) (Parks i l kind (data s l) (destReg i) true (off s l) cell s)

/-- R206, R213: a lane of a special form that an earlier acquire holds back waits parked with its first attempt before
it, while its wave goes on; nothing is attempted yet (log entry 72). -/
def WaitsFirst (i : Instr) (va : State → Nat → Nat) (kind : Nat) (ask : Ask) : Prop :=
  ∀ (s : State) (l : Nat) (leaf : Leaf) (o : Op), s.w.on = true → s.w.ended = false → l < 64 → s.w.active = laneBit l →
    s.w.ops = [o] → (o.ctr = 0 ∨ o.ctr = 1) → acquires (orderOf o.i).1 = true → o.perf ≠ o.lanes → s.updates = [] →
    checkGlobal s ask 4 (va s l) = .ok leaf →
    Gives (exec i s) fun t => t.w.parked = s.w.parked ||| laneBit l ∧ t.w.hold = s.w.hold ∧ t.mem = s.mem ∧
      t.w.v = s.w.v ∧ t.w.late = s.w.late ∧
      ∃ p : Park, t.w.parks = s.w.parks ++ [p] ∧ p.lane = l ∧ p.i = i ∧ p.kind = kind ∧ p.pa = leaf.addr (va s l) ∧
        p.budget = s.w.waitBudget.toNat ∧ p.woken = true ∧ p.first = s.nextId

/-- R219: a parked lane that a write has woken attempts again. With its word as it waits for, the lane leaves the parked
state, its register takes the word, and the effect follows. Otherwise it takes FE_BUDGET when that was its last attempt,
or parks again with its budget one lower; a first attempt parks with its whole budget (R211). -/
def AttemptsAgain (s : State) (p : Park) (d : Option Nat) (v : Nat) (met : Prop) (effect : State → Prop) : Prop :=
  (met → Gives (exec (.evReevaluation p.lane) s) fun t => t.w.parks = [] ∧
    t.w.parked = s.w.parked &&& ~~~laneBit p.lane ∧ effect t ∧ t.w.late = s.w.late ∧
    ∀ k r, r < 128 → t.w.vreg k r = if k = p.lane ∧ d = some r then BitVec.ofNat 32 v else s.w.vreg k r) ∧
  (¬met → p.first = 0 → p.budget = 1 → Gives (exec (.evReevaluation p.lane) s) fun t => t.w.parked = s.w.parked ∧ t.w.v = s.w.v ∧
    t.w.late = s.w.late ++
      [{ cause := .feBudget, mask := laneBit p.lane, pc := p.pc, word := p.word, dst := p.dst, addr := BitVec.ofNat 64 p.va }]) ∧
  (¬met → (p.first = 0 → p.budget ≠ 1) → Gives (exec (.evReevaluation p.lane) s) fun t => t.w.v = s.w.v ∧
    t.w.parked = s.w.parked ||| laneBit p.lane ∧
    ∃ q : Park, t.w.parks = [q] ∧ q.lane = p.lane ∧ q.i = p.i ∧ q.woken = false ∧ q.first = 0 ∧
      q.budget = if p.first = 0 then p.budget - 1 else p.budget)

/-- The one park slot of the focused wave, at tag 0, that a write has woken, whatever the wave waits for; or one whose
first attempt nothing holds back any more. -/
def Woken (s : State) (p : Park) (i : Instr) (kind : Nat) (scratch : Bool) : Prop :=
  s.w.on = true ∧ s.w.ended = false ∧ (p.first = 0 ∨ s.w.ops = []) ∧ s.w.parks = [p] ∧ p.woken = true ∧ p.scratch = scratch ∧
  p.version = 0 ∧ p.i = i ∧ p.kind = kind ∧ p.lane < 64 ∧ s.w.exited.getLsbD p.lane = false

/-- R219, R220: a woken lane that waits on a word of global memory. -/
def Reevaluates (i : Instr) (kind : Nat) (d : Option Nat) (ask : Ask) (met : State → Nat → Nat → Prop)
    (effect : Nat → Nat → State → State → Prop) : Prop :=
  ∀ (s : State) (p : Park) (leaf : Leaf), Woken s p i kind false →
    checkAt s s.w.core s.w.ctx 0 ask 4 p.va = .ok leaf → Calm s (leaf.addr p.va) 4 →
    AttemptsAgain s p d (readMem s.mem (leaf.addr p.va) 4) (met s (leaf.addr p.va) p.data)
      (effect (leaf.addr p.va) p.data s)

/-- R219: a woken lane that waits on a scratch word. -/
def ReevaluatesScratch (i : Instr) (kind : Nat) (d : Option Nat) (full : Bool)
    (effect : Nat → Nat → State → State → Prop) : Prop :=
  ∀ (s : State) (p : Park), Woken s p i kind true → s.pending = [] → s.updates = [] →
    AttemptsAgain s p d (readScratch s.scratch p.pa 4) (scratchFull s p.pa = full) (effect p.pa p.data s)

/-- R227: the physical lines of a cache range whose pages pass their checks. -/
def RangeHas (s : State) (f : MF) (need : Need) (num : Nat) : Prop :=
  ∃ va leaf, va ∈ rangeLines s.w f ∧ checkGlobal s { need := need } 4 va = .ok leaf ∧ leaf.addr va / 1024 = num

/-- R227: a cache-range instruction: nothing with ACTIVE empty; the trap of its first failing line, for every ACTIVE
lane (R97), with nothing performed; the wave held, with nothing performed, for a page that is not there (R173); else it
completes with its effect, unless it waits first. -/
def RangeRuns (i : Instr) (f : MF) (need : Need) (dst : Nat) (waits : State → Prop) (effect : State → State → Prop) :
    Prop :=
  ∀ s : State,
    (s.w.active = 0 → exec i s = .next s) ∧
    (s.w.active ≠ 0 → (∀ va ∈ rangeLines s.w f, ∃ leaf, checkGlobal s { need := need } 4 va = .ok leaf) →
      (¬waits s → Gives (exec i s) (effect s)) ∧
      (waits s → exec i s = .next { s with w := { s.w with hold := .again i } })) ∧
    (∀ (pre post : List Nat) (va : Nat), rangeLines s.w f = pre ++ va :: post →
      (∀ a ∈ pre, ∃ leaf, checkGlobal s { need := need } 4 a = .ok leaf) → s.w.active ≠ 0 →
      (∀ c : Cause, checkGlobal s { need := need } 4 va = .trap c →
        exec i s = .next (raise c s.w.active dst (BitVec.ofNat 64 va) s)) ∧
      (∀ level : Nat, checkGlobal s { need := need } 4 va = .replay level →
        exec i s = .next (holdFault (some i) va (if need.x = true then 3 else 0) level s)))

/-! ## Commands of the copy and layout engines (R232-R263) -/

/-- R236, R244, R252, R259: what COPY, LAYOUT and PUT do at issue. Their leader is the lowest ACTIVE lane that satisfies
the guard: with none, nothing; with a barrier offset that R203 refuses, its trap; with a batch slot or engine that has
no room, the wave is held; else one command joins the engine's queue, its batch and counter 2, with the operands as read
now. -/
def CommandRuns (i : CF → Instr) (kind : Nat) (nums : CF → State → Nat → List Nat) (room : State → Bool) : Prop :=
  ∀ (f : CF) (s : State),
    let leads := fun (l : Nat) => Active s l ∧ (if f.pn = 1 then s.w.pred f.p l = false else s.w.pred f.p l = true)
    let b : Batch := SMap.get {} s.w.batches f.batch
    let full := (b.state = 2 ∧ b.incomplete ≠ 0) ∨ 63 ≤ b.incomplete ∨ room s = false
    ((∀ l, ¬leads l) → exec (i f) s = .next s) ∧
    (∀ l, leads l → (∀ k, k < l → ¬leads k) →
      (f.bar % 16 ≠ 0 → exec (i f) s = .next (raise .memAlign (laneBit l) 0 (BitVec.ofNat 64 f.bar) s)) ∧
      (f.bar % 16 = 0 → (0x1000000 ≤ f.bar ∨ scratchCell s f.bar 16 = none) →
        exec (i f) s = .next (raise .memXlate (laneBit l) 0 (BitVec.ofNat 64 f.bar) s)) ∧
      (∀ cell, f.bar % 16 = 0 → f.bar < 0x1000000 → scratchCell s f.bar 16 = some cell →
        (full → exec (i f) s = .next { s with w := { s.w with hold := .again (i f) } }) ∧
        (¬full → Gives (exec (i f) s) fun t => t = { s with w := t.w, cmds := t.cmds, nextId := s.nextId + 1 } ∧
          t.w.v = s.w.v ∧ t.w.p = s.w.p ∧ t.w.s = s.w.s ∧ t.w.m = s.w.m ∧ t.w.pc = s.w.pc ∧
          t.w.stored = s.w.stored ||| laneBit l ∧
          (∃ o : Op, t.w.ops = s.w.ops ++ [o] ∧ o.i = i f ∧ o.ctr = 2 ∧ o.lanes = laneBit l ∧ o.perf = 0 ∧
            o.num = s.nextId ∧ o.src = [(l, [s.nextId])]) ∧
          (∀ k, SMap.get {} t.w.batches k = if k = f.batch then
            (if b.state = 1 then { b with incomplete := b.incomplete + 1 } else { state := 1, incomplete := 1, err := 0 })
            else SMap.get {} s.w.batches k) ∧
          ∃ c : Cmd, t.cmds = s.cmds ++ [c] ∧ c.id = s.nextId ∧ c.kind = kind ∧ c.core = s.w.core ∧ c.wave = s.w.id ∧
            c.batch = f.batch ∧ c.cohort = s.w.cohort ∧ c.ctx = s.w.ctx ∧ c.tag = s.w.version ∧ c.bar = cell ∧
            c.nums = nums f s l ∧ c.accepted = false ∧ c.started = false ∧ c.packet = none ∧ c.slot = s.w.slot ∧
            c.part = s.w.part ∧ c.lane = l ∧ c.rank = s.w.rank)))

/-- A byte of scratch is as before outside a range. -/
def ScratchBut (a n : Nat) (s t : State) : Prop :=
  ∀ b, b < a ∨ a + n ≤ b → scratchByte t.scratch b = scratchByte s.scratch b

/-! ## What the records, moves and chunks of a command are (R232-R234, R239-R243, R253-R256) -/

/-- R232: NDIM, FMT, MODE and FEPOL of a tensor record as a number. -/
def recNDIM (v : Nat) : Nat := bits v 64 3
def recFMT (v : Nat) : Nat := bits v 68 4
def recMODE (v : Nat) : Nat := bits v 72 2
def recFEPOL (v : Nat) : Nat := bits v 74 2
/-- R232: EXTENT, STRIDE and BOX of a dimension. -/
def recEXTENT (v d : Nat) : Nat := bits v (128 + 128 * d) 32
def recSTRIDE (v d : Nat) : Int := (BitVec.ofNat 48 (bits v (160 + 128 * d) 48)).toInt
def recBOX (v d : Nat) : Nat := bits v (208 + 128 * d) 16
/-- R232: ES, by the format code. -/
def recES (v : Nat) : Nat := elemSize (recFMT v)
/-- R232: counts along dimension 0 of E2M1 are of pairs. -/
def recPair (v d : Nat) : Nat := if recFMT v = 5 ∧ d = 0 then 2 else 1
/-- R234: the number of elements of the first n dimensions of the box. -/
def recVolume (v n : Nat) : Nat := ((List.range n).map fun d => recBOX v d / recPair v d).foldl (· * ·) 1
/-- R234: BYTES. -/
def recBYTES (v : Nat) : Nat := recES v * recVolume v (recNDIM v)

/-- R233, order 3. -/
def RecordMalformed (v : Nat) : Prop :=
  bits v 67 1 ≠ 0 ∨ bits v 76 20 ≠ 0 ∨ (∃ d, d < 5 ∧ bits v (224 + 128 * d) 32 ≠ 0) ∨ bits v 768 256 ≠ 0 ∨
  recNDIM v = 0 ∨ 5 < recNDIM v ∨ 0xD ≤ recFMT v ∨ (∃ d, d < recNDIM v ∧ (recEXTENT v d = 0 ∨ recBOX v d = 0)) ∨
  (∃ d, d < 5 ∧ recNDIM v ≤ d ∧ bits v (128 + 128 * d) 128 ≠ 0) ∨ 0x20000 < recBYTES v ∨
  ((recFEPOL v = 1 ∨ recFEPOL v = 3) ∧ recES v ≠ 4)

/-- R233, order 4; R256, order 5. -/
def RecordMisaligned (v : Nat) : Prop :=
  bits v 0 64 % recES v ≠ 0 ∨ ∃ d, d < recNDIM v ∧ recSTRIDE v d % (recES v : Int) ≠ 0

/-- R234: the index of element lin of the box along a dimension. -/
def boxDigit (v lin d : Nat) : Nat := lin / recVolume v d % (recBOX v d / recPair v d)
/-- R234: the position of an index in the tensor, with signed coordinates. -/
def tensorAt (v : Nat) (cs : List Nat) (i : Nat → Nat) (d : Nat) : Int :=
  (BitVec.ofNat 32 (cs.getD d 0)).toInt / (recPair v d : Int) + (i d : Int)
/-- R234: oob. -/
def OutOfTensor (v : Nat) (p : Nat → Int) : Prop :=
  ∃ d, d < recNDIM v ∧ (p d < 0 ∨ ((recEXTENT v d / recPair v d : Nat) : Int) ≤ p d)
/-- R234: ga. -/
def tensorGa (v : Nat) (p : Nat → Int) : Nat :=
  (((bits v 0 64 : Int) + ((List.range (recNDIM v)).map fun d => p d * recSTRIDE v d).foldl (· + ·) 0) %
    (2 ^ 64 : Int)).toNat

/-- R234: the move of element lin of a COPY's box; `at_` is the scratch cell or the address of its packed tile. -/
def CopyMoveIs (v : Nat) (cs : List Nat) (at_ lin : Nat) (m : Move) : Prop :=
  let n := recES v
  let p := tensorAt v cs (boxDigit v lin)
  let tensor := Place.glob (tensorGa v p)
  let tile := if recMODE v < 2 then Place.cell (at_ + lin * n) else .glob ((at_ + lin * n) % 2 ^ 64)
  m.n = n ∧ m.off = lin * n ∧
  (recMODE v = 0 ∨ recMODE v = 2 → m.dst = tile ∧ (OutOfTensor v p → m.src = .none ∧ m.fill = bits v 96 32 % 2 ^ (8 * n)) ∧
    (¬OutOfTensor v p → m.src = tensor)) ∧
  (recMODE v = 1 ∨ recMODE v = 3 → (OutOfTensor v p → m.src = .none ∧ m.dst = .none) ∧
    (¬OutOfTensor v p → m.src = tile ∧ m.dst = tensor))

/-- R254: the logical extents of a box; the same of an index. -/
def splitExtents (map v : Nat) : List Nat := (List.range (recNDIM v)).flatMap fun d =>
  if bits map (4 * d) 4 = 0 then [recBOX v d / recPair v d]
  else [2 ^ bits map (4 * d) 4, recBOX v d / recPair v d / 2 ^ bits map (4 * d) 4]
def splitIndex (map v : Nat) (i : Nat → Nat) : List Nat := (List.range (recNDIM v)).flatMap fun d =>
  if bits map (4 * d) 4 = 0 then [i d] else [i d % 2 ^ bits map (4 * d) 4, i d / 2 ^ bits map (4 * d) 4]
/-- R254: the loop over the destination positions: each run with its index and its extent. -/
def mergeLoop (map : Nat) (ext x : List Nat) : List (Nat × Nat) :=
  let r := (List.range ext.length).foldl (fun (a : List (Nat × Nat) × Nat × Nat) j =>
    let l := bits map (32 + 3 * j) 3
    let e := a.2.1 + x.getD l 0 * a.2.2
    let w := a.2.2 * ext.getD l 0
    if j + 1 < ext.length ∧ bits map (56 + j) 1 = 0 then (a.1 ++ [(e, w)], 0, 1) else (a.1, e, w)) ([], 0, 1)
  r.1 ++ [r.2]

/-- R256, order 4, of the mapping word with the source and the destination record. -/
def MappingBad (map v w : Nat) : Prop :=
  let ext := splitExtents map v
  let runs := mergeLoop map ext []
  (∃ d, d < 8 ∧ recNDIM v ≤ d ∧ bits map (4 * d) 4 ≠ 0) ∨
  (∃ d, d < recNDIM v ∧ recBOX v d / recPair v d % 2 ^ bits map (4 * d) 4 ≠ 0) ∨ 8 < ext.length ∨
  (∃ l, l < ext.length ∧ ∀ j, j < ext.length → bits map (32 + 3 * j) 3 ≠ l) ∨
  (∃ j, j < 8 ∧ ext.length ≤ j ∧ bits map (32 + 3 * j) 3 ≠ 0) ∨
  (∃ i, i < 7 ∧ ext.length ≤ i + 1 ∧ bits map (56 + i) 1 = 1) ∨
  runs.length ≠ recNDIM w ∨ (∃ d, d < recNDIM w ∧ (runs.getD d (0, 0)).2 ≠ recBOX w d / recPair w d) ∨
  (bits map 63 1 = 1 ∧ recES v ≠ 4)

/-- R255: the move of element lin of a LAYOUT's source box. -/
def LayoutMoveIs (map v w : Nat) (cs cd : List Nat) (lin : Nat) (m : Move) : Prop :=
  let i := boxDigit v lin
  let e := (mergeLoop map (splitExtents map v) (splitIndex map v i)).map Prod.fst
  let ps := tensorAt v cs i
  let pd := tensorAt w cd fun d => e.getD d 0
  m.n = recES v ∧ m.fill = bits v 96 32 % 2 ^ (8 * recES v) ∧
  m.off = ((List.range (recNDIM w)).map fun d => e.getD d 0 * recVolume w d).foldl (· + ·) 0 * recES v ∧
  (OutOfTensor w pd → m.dst = .none ∧ m.src = .none) ∧
  (¬OutOfTensor w pd → m.dst = .glob (tensorGa w pd) ∧ (OutOfTensor v ps → m.src = .none) ∧
    (¬OutOfTensor v ps → m.src = .glob (tensorGa v ps)))

/-- A place of scratch (true) or of home memory (false): where a command's element lies. -/
def spot (s : State) (c : Cmd) (need : Need) : Place → Option (Bool × Nat)
  | .none => none
  | .cell a => some (true, a)
  | .glob va => (leafOf s c.unit c.ctx va need).map fun l => (false, l.addr va)
/-- The bytes at a place as a number, and the full/empty bit of its word. -/
def spotValue (s : State) (x : Bool × Nat) (n : Nat) : Nat :=
  if x.1 = true then readScratch s.scratch x.2 n else readMem s.mem x.2 n
def spotFull (s : State) (x : Bool × Nat) : Bool :=
  if x.1 = true then scratchFull s (x.2 / 4 * 4) else feFull s (x.2 / 4 * 4)
/-- Bytes of two places overlap. -/
def SpotsMeet (x : Bool × Nat) (n : Nat) (y : Bool × Nat) (k : Nat) : Prop :=
  x.1 = y.1 ∧ x.2 < y.2 + k ∧ y.2 < x.2 + n

/-- R234, R242, R243, R248: a move that meets no error and does not wait. -/
def MoveFits (s : State) (c : Cmd) (m : Move) : Prop :=
  let pol := c.policy
  (∀ va, m.src = .glob va → va < 2 ^ 52 ∧ va % m.n = 0 ∧ ∃ leaf, xlate s c.unit c.ctx va .load = .ok leaf ∧
    leaf.pa % 4 = 0 ∧ 2 ≤ leaf.bits ∧ (pol = 1 ∨ pol = 3 → leaf.fe = true) ∧ Sound s (leaf.addr va) m.n) ∧
  (∀ va, m.dst = .glob va → va < 2 ^ 52 ∧ va % m.n = 0 ∧ ∃ leaf, xlate s c.unit c.ctx va .store = .ok leaf ∧
    leaf.pa % 4 = 0 ∧ 2 ≤ leaf.bits ∧ (pol ≤ 1 → leaf.fe = true) ∧ Sound s (leaf.addr va) m.n) ∧
  (∀ a, m.src = .cell a → a % m.n = 0) ∧
  (∀ a, m.dst = .cell a → a % m.n = 0 ∧ resident s a = true ∧ (a + m.n ≤ c.bar ∨ c.bar + 48 ≤ a)) ∧
  (m.n = 4 ∨ ((m.n = 1 ∨ m.n = 2) ∧ pol ≠ 1 ∧ pol ≠ 3)) ∧
  (pol = 3 → ∀ x, spot s c .load m.src = some x → spotFull s x = true)

/-- R234, R242, R255, R257: what a move leaves at its destination: its element, or the fill value; the full/empty bit as
the policy says. -/
def MoveLands (s t : State) (c : Cmd) (m : Move) : Prop :=
  ∀ y, spot s c .store m.dst = some y →
    spotValue t y m.n = (match spot s c .load m.src with
      | none => m.fill % 2 ^ (8 * m.n)
      | some x => spotValue s x m.n) ∧
    spotFull t y = (if c.policy = 0 then true else if c.policy = 1 then (match spot s c .load m.src with
      | none => true
      | some x => spotFull s x) else spotFull s y)

/-- R238, R239: chunk slot k of a barrier is set: its bit of the bitmap and DONE, and PHASE with the last one. -/
def SlotSet (bar k : Nat) (s t : State) : Prop :=
  let at_ := fun (u : State) (o n : Nat) => readScratch u.scratch (bar + o) n
  let done := (at_ s 4 2 + 1) % 2 ^ 16
  at_ t 0 2 = at_ s 0 2 ∧ at_ t 2 2 = at_ s 2 2 ∧ at_ t 4 2 = done ∧
  at_ t 6 2 = (if done = at_ s 0 2 ∧ at_ s 8 1 % 2 = 0 then (at_ s 6 2 + 1) % 2 ^ 16 else at_ s 6 2) ∧
  at_ t 8 8 = at_ s 8 8 ∧
  ∀ j, j < 256 → at_ t (16 + 4 * (j / 32)) 4 / 2 ^ (j % 32) % 2 =
    if j = k then 1 else at_ s (16 + 4 * (j / 32)) 4 / 2 ^ (j % 32) % 2

/-- R240: the one command is poisoned with a code and is complete: POISON is 1, and ERROR takes the code if it was 0. -/
def Poisons (c : Cmd) (code : Nat) (s t : State) : Prop :=
  t.cmds = [] ∧ readScratch t.scratch (c.bar + 8) 1 % 2 = 1 ∧ ScratchBut (c.bar + 8) 2 s t ∧ t.mem = s.mem ∧
  readScratch t.scratch (c.bar + 9) 1 =
    if readScratch s.scratch (c.bar + 9) 1 = 0 then code else readScratch s.scratch (c.bar + 9) 1

/-- R239: the reservation of n slots by a command that passed its checks: its barrier has a reserved bit set (R7, log
entry 73), it overruns, or its bitmap reaches beyond a region, or it is accepted with the command d and NEXT rises. -/
def Reserves (c : Cmd) (n : Nat) (d : Cmd) (s : State) : Prop :=
  let expect := readScratch s.scratch c.bar 2
  let next := readScratch s.scratch (c.bar + 2) 2
  let inside := ∃ t ∈ c.tags, t * 2 ^ 28 ≤ c.bar ∧ c.bar + 16 + 4 * ((expect + 31) / 32) ≤ t * 2 ^ 28 + c.scratch
  let odd := readScratch s.scratch (c.bar + 8) 1 / 2 ≠ 0 ∨ readScratch s.scratch (c.bar + 10) 6 ≠ 0
  (odd → Gives (exec (.evCopyAccept c.id) s) (Poisons c 0x02 s)) ∧
  (¬odd → (256 < expect ∨ expect < next + n) → Gives (exec (.evCopyAccept c.id) s) (Poisons c 0x39 s)) ∧
  (¬odd → expect ≤ 256 → next + n ≤ expect → ¬inside → Gives (exec (.evCopyAccept c.id) s) (Poisons c 0x21 s)) ∧
  (¬odd → expect ≤ 256 → next + n ≤ expect → inside → Gives (exec (.evCopyAccept c.id) s) fun t =>
    t.cmds = [{ d with accepted := true, base := next, todo := List.range n }] ∧
    readScratch t.scratch (c.bar + 2) 2 = next + n ∧ ScratchBut (c.bar + 2) 2 s t ∧ t.mem = s.mem)

/-- One command, not yet accepted, at tag 0, with its barrier in a bank that has not changed owner. -/
def Offered (s : State) (c : Cmd) (kind : Nat) : Prop :=
  s.cmds = [c] ∧ c.accepted = false ∧ c.kind = kind ∧ c.tag = 0 ∧ c.packet = none ∧ resident s c.bar = true ∧
  s.w.ended = false

/-- R233, orders 1 and 2: a record of a command at an address can be read, and holds v. -/
def RecordRead (s : State) (c : Cmd) (a v : Nat) : Prop :=
  a % 128 = 0 ∧ a < 2 ^ 52 ∧ ∃ leaf, xlate s c.unit c.ctx a .load = .ok leaf ∧ Calm s (leaf.addr a) 128 ∧
    readMem s.mem (leaf.addr a) 128 = v

/-! ## What the matrix engine computes (R67-R70, R264-R266, R281, R282, R284, R285) -/

/-- A finite value as a number. -/
def fvRat : FV → Rat
  | .fin s m e => ratOf s m e
  | _ => 0
/-- The parts of a value. -/
def IsFin (v : FV) : Prop := ∃ s m e, v = .fin s m e
def IsNan (v : FV) : Prop := ∃ r, v = .nan r

/-- R68: the value of a chunk sum: a NaN for a NaN product or infinities of both signs, an infinity, or the exact sum,
whose zero is −0 only when every product is. -/
def ChunkSumRight : Prop :=
  ∀ ps : List FV, ps ≠ [] →
    let v := (ps.foldl ChunkSum.add {}).value
    (((∃ p ∈ ps, IsNan p) ∨ (FV.inf true ∈ ps ∧ FV.inf false ∈ ps)) → v = .nan 0) ∧
    (∀ n : Bool, (∀ p ∈ ps, ¬IsNan p) → .inf n ∈ ps → .inf (!n) ∉ ps → v = .inf n) ∧
    ((∀ p ∈ ps, IsFin p) → ∃ n m e, v = .fin n m e ∧ ratOf n m e = ps.foldl (fun a p => a + fvRat p) 0 ∧
      (m = 0 → (n = true ↔ ∀ p ∈ ps, ∃ e, p = .fin true 0 e)))

/-- R67, R68: the product of two scaled elements: exact, with the signs combined; a NaN, or 0 × ∞, gives a NaN; the
scale 0xFF makes an element a NaN. -/
def ProductRight : Prop :=
  (∀ v, scaled 255 v = .nan 0 ∨ ∃ r, v = .nan r ∧ scaled 255 v = .nan r) ∧
  (∀ k s m e, k < 255 → ∃ f, scaled k (.fin s m e) = .fin s m f ∧ ratOf s m f = ratOf s m e * 2 ^ ((k : Int) - 127)) ∧
  (∀ k s, k < 255 → scaled k (.inf s) = .inf s) ∧
  (∀ s t m n e f, ∃ g h, product (.fin s m e) (.fin t n f) = .fin (s != t) g h ∧
    ratOf (s != t) g h = ratOf s m e * ratOf t n f) ∧
  (∀ s t m e, m ≠ 0 → product (.inf s) (.fin t m e) = .inf (s != t) ∧ product (.fin t m e) (.inf s) = .inf (s != t)) ∧
  (∀ s t, product (.inf s) (.inf t) = .inf (s != t)) ∧
  (∀ s t e, product (.inf s) (.fin t 0 e) = .nan 0 ∧ product (.fin t 0 e) (.inf s) = .nan 0) ∧
  (∀ r v, product (.nan r) v = .nan 0 ∧ product v (.nan r) = .nan 0)

/-- R62, R68: one chunk step: the sum of the accumulator and the chunk's value, rounded once under RNE. That an
accumulator that holds a NaN becomes the canonical one is the reading of log entry 65. -/
def ChunkStepRight : Prop :=
  ∀ acc : Nat,
    chunkStep acc (.nan 0) = 0x7FC00000 ∧
    (∀ s v, FFmt.f32.read acc = .nan s → chunkStep acc v = 0x7FC00000) ∧
    (∀ n p, FFmt.f32.read acc = .inf n → chunkStep acc (.inf p) = if n = p then FFmt.f32.infBits n else 0x7FC00000) ∧
    (∀ n s m e, FFmt.f32.read acc = .inf n → chunkStep acc (.fin s m e) = FFmt.f32.infBits n) ∧
    (∀ n s m e, FFmt.f32.read acc = .fin s m e → chunkStep acc (.inf n) = FFmt.f32.infBits n) ∧
    (∀ s m e t n f, FFmt.f32.read acc = .fin s m e → ∃ x : Ex, x.sticky = false ∧
      ratOf x.neg x.m x.e = ratOf s m e + ratOf t n f ∧
      (x.m = 0 → x.neg = (if m = 0 ∧ n = 0 ∧ s = t then s else false)) ∧
      chunkStep acc (.fin t n f) = (FFmt.f32.deliver 1 false false x).1)

/-- R281: an element converted by MSTORE: rounded under RNE; a NaN canonical; S32 is the pattern unchanged. -/
def StoreRight : Prop :=
  (∀ sat x, storeElem 0xB sat x = x) ∧
  (∀ fmt k sat x, (fmt, k) ∈ [(0, FFmt.f32), (1, .f16), (2, .bf16), (3, .e4m3), (4, .e5m2)] →
    (∀ n m e, FFmt.f32.read x = .fin n m e →
      storeElem fmt sat x = (k.deliver 1 sat false { neg := n, m := m, e := e }).1) ∧
    (∀ n, FFmt.f32.read x = .nan n → storeElem fmt sat x = k.canon))

/-- R282, R285: the element functions on finite elements, and on NaNs. -/
def ElementMapsRight : Prop :=
  ∀ x : Nat, (∀ r, FFmt.f32.read x = .nan r → (∀ fn sh, actElem fn sh x = 0x7FC00000) ∧
      ∀ n, scaleElem n x = 0x7FC00000) ∧
    (∀ s m e, FFmt.f32.read x = .fin s m e →
      let v := ratOf s m e
      let gives := fun (y : Nat) (r : Rat) => ∃ z : Ex, z.sticky = false ∧ ratOf z.neg z.m z.e = r ∧
        y = (FFmt.f32.deliver 1 false false z).1
      (∀ n : Int, -128 ≤ n → n ≤ 127 → gives (scaleElem n x) (v * 2 ^ n)) ∧
      gives (actElem 0 0 x) (if v ≤ 0 then 0 else v) ∧
      (∀ sh : Nat, sh < 32 → gives (actElem 1 sh x) (if v < 0 then v * 2 ^ (-(sh : Int)) else v) ∧
        gives (actElem 2 sh x) (if v < -(2 ^ sh) then -(2 ^ sh) else if 2 ^ sh < v then 2 ^ sh else v)) ∧
      (m = 0 → gives (actElem 3 0 x) (1 / 2) ∧ gives (actElem 4 0 x) 0 ∧ gives (actElem 5 0 x) 0)) ∧
    (∀ s, FFmt.f32.read x = .inf s → actElem 3 0 x = (if s then 0 else 0x3F800000) ∧
      actElem 4 0 x = (if s then 0xBF800000 else 0x3F800000) ∧ actElem 5 0 x = if s then 0x80000000 else 0x7F800000)

/-- R264, R265: the bytes and tag of every slot of every engine but one are as before. -/
def SlotsBut (core q : Nat) (s t : State) : Prop :=
  ∀ c p, c < 128 → p < 16 → ¬(c = core ∧ p = q) → slotTagOf t c p = slotTagOf s c p ∧
    ∀ r i, r < 128 → i < 256 → slotByte t c p r i = slotByte s c p r i

/-- R264: the elements of the accumulators of an engine that satisfy p hold g; every other one is as before. -/
def AccsHold (core : Nat) (p : Nat → Prop) (g : Nat → Nat → Nat → Nat) (s t : State) : Prop :=
  ∀ c n r j, c < 128 → n < 8 → r < 128 → j < 128 → (c = core → p n → accElem t c n r j = g n r j) ∧
    (¬(c = core ∧ p n) → accElem t c n r j = accElem s c n r j)

/-- R284: the tags that pair. -/
def TagsPair (mmas : Bool) (a b : Nat) : Prop :=
  ((a = 3 ∨ a = 4) ∧ (b = 3 ∨ b = 4)) ∨ (mmas = true ∧ a = 5 ∧ b = 5) ∨
  (mmas = false ∧ ((a ≤ 2 ∧ a = b) ∨ ((a = 7 ∨ a = 8) ∧ (b = 7 ∨ b = 8))))

/-- R265, R266: element k of row r of a slot, scaled by the byte of section `sec` of the slot of scales. -/
def slotValue (s : State) (core q tag : Nat) (qs : Option Nat) (sec r k : Nat) : FV :=
  scaled (match qs with
    | none => 127
    | some t => (readByte s.slotMem (2 ^ 24 * core + 32768 * t + 2048 * sec + 16 * r + k / 32)).toNat)
    (elemValue tag (rowElem tag (slotByte s core q r) k))

/-- R68, R70: the chunk steps of one accumulator element: each exact, or, when it may be perturbed, with the low AQ bits
of a finite result free. -/
def ChunkSteps (ch k aq : Nat) (free : Prop) (prod : Nat → FV) (a : Nat → Nat) : Prop :=
  ∀ c, c < k / ch →
    let r := chunkStep (a c) (((List.range ch).map fun i => prod (c * ch + i)).foldl ChunkSum.add {}).value
    (¬free ∨ ¬IsFin (FFmt.f32.read r) → a (c + 1) = r) ∧
    (free → IsFin (FFmt.f32.read r) → a (c + 1) / 2 ^ aq = r / 2 ^ aq)

/-! ## Instructions of the texture, hash-grid and ray units (R295-R297, R342-R344) -/

/-- R36, R297: an engine's instruction has joined counter 3 (WTX) with, for each ACTIVE lane, its operands as read at
issue and its accesses, each with the page that it was checked against. One that writes also marks STORED. Nothing else
has changed but the TLBs and what filling them reads. -/
def EngineIssued (i : Instr) (src : Nat → List Nat) (aux : List Nat) (ask : Ask) (ps : Nat → List (Nat × Nat))
    (stores : Bool) (s t : State) : Prop :=
  ∃ (u : State) (o : Op), Filled s u ∧ t = { u with
      w := { (if stores then u.w.markStored u.w.active else u.w) with ops := u.w.ops ++ [o] }, nextId := u.nextId + 1 } ∧
    o.i = i ∧ o.ctr = 3 ∧ o.perf = 0 ∧ o.res = [] ∧ o.homes = [] ∧ o.pc = u.w.wordPc ∧ o.word = u.w.word ∧
    o.version = u.w.version ∧ o.num = u.nextId ∧ o.lanes = s.w.active ∧ o.aux = aux ∧ ∀ l, Active s l → o.args l = src l ∧
      ((SMap.get [] o.spans l).map fun p => (p.va, p.n)) = ps l ∧
      ∀ p ∈ SMap.get [] o.spans l, checkGlobal s ask p.n p.va = .ok p.leaf ∧ p.got = []

/-- R297: every access of every ACTIVE lane passes its check. -/
def SpansPass (ask : Ask) (ps : Nat → List (Nat × Nat)) (s : State) : Prop :=
  ∀ l, Active s l → ∀ p ∈ ps l, ∃ leaf, checkGlobal s ask p.2 p.1 = .ok leaf

/-- R297: lane l is the lowest whose accesses do not all pass, and its first failure, in the order of R203, is a trap at
an address: exactly the lanes that fail first with that cause take it, and nothing is issued. -/
def SpansTrap (i : Instr) (ask : Ask) (dst : Nat) (ps : Nat → List (Nat × Nat)) (s : State) : Prop :=
  ∀ l va c, Active s l → spansFail s ask (ps l) = some (va, .trap c) →
    (∀ k, k < l → Active s k → spansFail s ask (ps k) = none) →
    ∃ mask : Lanes, (∀ k, mask.getLsbD k = true ↔ Active s k ∧ ∃ a, spansFail s ask (ps k) = some (a, .trap c)) ∧
      exec i s = .next (raise c mask dst (BitVec.ofNat 64 va) s)

/-- R295-R297: an instruction of the texture and hash-grid unit: a descriptor that fails its checks, then a register
group beyond the kernel's registers, traps at every lane of the word; with ACTIVE empty it does nothing; with every
access checked it is issued. -/
def UnitRuns (i : Instr) (bad wide : State → Prop) (ask : Ask) (dst : Nat) (stores : Bool)
    (src : State → Nat → List Nat) (desc : State → Nat) (ps : State → Nat → List (Nat × Nat)) : Prop :=
  ∀ s : State,
    (bad s → exec i s = .next (raiseCheck .rsvdField s)) ∧
    (¬bad s → wide s → exec i s = .next (raiseCheck .regRange s)) ∧
    (¬bad s → ¬wide s →
      (s.w.active = 0 → exec i s = .next s) ∧
      (s.w.active ≠ 0 → SpansPass ask (ps s) s →
        Gives (exec i s) (EngineIssued i (src s) [desc s] ask (ps s) stores s)) ∧
      SpansTrap i ask dst (ps s) s)

/-- R298-R306: an instruction of the texture path: its operands are λ of R301 and its coordinate registers, and its
accesses the texels of its footprint (R300, R304), each once. -/
def TextureRuns (i : V3 → Instr) : Prop :=
  ∀ f : V3,
    let d := fun (s : State) => descOf s.w f.b 8
    let src := fun (s : State) (l : Nat) =>
      texLam (i f) s.w f (d s) l :: (List.range (texInputs (i f) (d s))).map fun k => (s.w.vreg l (f.a + k)).toNat
    UnitRuns (i f) (fun s => texBad (d s) = true)
      (fun s => s.w.nregs ≤ f.a + texInputs (i f) (d s) - 1 ∨ s.w.nregs ≤ f.d + 2 ^ f.t - 1)
      { need := .load } (dstOf 1 f.d) false src d
      (fun s l => (((texTaps (i f) (d s) (src s l)).filterMap Tap.addr).eraseDups).map fun a => (a, texelBytes (d s)))

/-- The focused wave has one outstanding operation of an engine, of one lane at tag 0, with these accesses; no store or
reduction is on its way, no L1 holds a line, and each access meets no error and is made on a page that is not cached. -/
def EngineAlone (s : State) (o : Op) (l : Nat) (sp : List Span) : Prop :=
  s.w.on = true ∧ s.w.ended = false ∧ s.w.ops = [o] ∧ l < 64 ∧ o.lanes = laneBit l ∧ o.perf = 0 ∧ o.res = [] ∧
  o.homes = [] ∧ o.ctr = 3 ∧ SMap.get [] o.spans l = sp ∧ o.version = 0 ∧ s.w.exited.getLsbD l = false ∧ s.pending = [] ∧
  s.updates = [] ∧ s.l1 = [] ∧ ∀ p ∈ sp, p.leaf.cached = false ∧ Sound s (p.leaf.addr p.va) p.n

/-- R27, R315, R340: the numbers that the accesses of a lane read: those that home memory holds where they lie. An access
of which pieces, of a size given for each, have been read before, while the rest had not, takes each of those as it was then. -/
def valuesOf (s : State) (n : Span → Nat) (sp : List Span) : List (Nat × Nat) :=
  sp.map fun p => (p.va, if p.got = [] then readMem s.mem (p.leaf.addr p.va) p.n else
    ((List.range (p.n / n p)).map fun k => 2 ^ (8 * n p * k) * (match p.got.find? (·.1 == n p * k) with
      | some e => e.2
      | none => readMem s.mem (p.leaf.addr p.va + n p * k) (n p))).sum)

/-- Values for n registers land in a lane from d upwards, and nothing else changes (R38, R296). -/
def EngineLands (l d n : Nat) (val : Nat → Nat) (s : State) : Prop :=
  Landed 3 s fun t => ReadFrame s t ∧ t.w.ops = [] ∧ t.w.s = s.w.s ∧ t.lines = s.lines ∧ ∀ k r, r < 128 →
    t.w.vreg k r = if k = l ∧ d ≤ r ∧ r < d + n then BitVec.ofNat 32 (val (r - d)) else s.w.vreg k r

/-! ## The raster unit (R316-R335) -/

/-- R38, R322: a counted instruction whose work is done at issue: it joins counter 3 and changes nothing else but the
TLBs and what filling them reads; and when the wave has nothing else outstanding, its results land with the effect. -/
def IssuesAndLands (i : Instr) (s : State) (P : State → Prop) : Prop :=
  ∃ u : State, exec i s = .next u ∧
    (∃ v : State, Filled s v ∧ u = { v with w := { v.w with ops := u.w.ops }, nextId := v.nextId + 1 }) ∧
    (∃ o : Op, u.w.ops = s.w.ops ++ [o] ∧ o.i = i ∧ o.ctr = 3 ∧ o.lanes = s.w.active) ∧
    (s.w.on = true → s.w.ended = false → s.w.ops = [] → (∀ l, Active s l → s.w.exited.getLsbD l = false) →
      Landed 3 u P)

/-- The number of ACTIVE lanes below a lane. -/
def rank (s : State) (l : Nat) : Nat := (List.range l).countP fun k => s.w.active.getLsbD k

/-- R22, R188, R206: an earlier acquire of the wave, or an earlier access of one of these lanes to n bytes at a scratch
cell, has not been performed. -/
def ScratchHeld (s : State) (who : Nat → Prop) (cell n : Nat) : Prop :=
  (∃ o ∈ s.w.ops, (o.ctr = 0 ∨ o.ctr = 1) ∧ acquires (orderOf o.i).1 = true ∧ o.perf ≠ o.lanes) ∨
  ∃ o ∈ s.w.ops, onScratch o.i = true ∧ ∃ l, l < 64 ∧ who l ∧ o.lanes.getLsbD l = true ∧ o.perf.getLsbD l = false ∧
    ∃ a ∈ o.laneSpans l, a.1 < cell + n ∧ cell < a.1 + a.2

/-- R323: the covered samples of a slot's tile from a cursor on, ascending. -/
def coveredFrom (r : RasterSlot) (cursor : Nat) : List Nat :=
  (List.range (tileCount r.tile)).filter fun t => decide (cursor ≤ t) && coversAt r.xy (tilePoint r.tile t)

/-! ## The ray engine (R336-R353) -/

/-- R344: the check of each ACTIVE lane's operands, for an instruction whose TRAPADDR is then 0: the cause of the
lowest failing lane, for every lane that fails with it. -/
def OperandTrap (i : Instr) (dst : Nat) (cause : Nat → Option Cause) (s : State) : Prop :=
  ∀ l c, Active s l → cause l = some c → (∀ k, k < l → Active s k → cause k = none) →
    ∃ mask : Lanes, (∀ k, mask.getLsbD k = true ↔ Active s k ∧ cause k = some c) ∧
      exec i s = .next (raise c mask dst 0 s)

/-- R342-R344: RBOX, RTRI and RXFM: the operand checks, then the pages of the records of each lane's entry when it has
the TYPE that the instruction reads, then the issue with the entry, one more operand and the eight registers of the
ray. -/
def RayRuns (i : V3 → Instr) (type : Nat) (pieces : Nat → Nat) (extra : V3 → State → Nat → Nat)
    (more : V3 → State → Nat → Prop) : Prop :=
  ∀ (f : V3) (s : State) (cause : Nat → Option Cause),
    let ent := fun (l : Nat) => (s.w.vpair l f.b).toNat
    (∀ l, (entBad (ent l) = true → cause l = some .rsvdField) ∧
      (entBad (ent l) = false → more f s l → cause l = some .stackSpill) ∧
      (entBad (ent l) = false → ¬more f s l → cause l = none)) →
    let ps := fun (l : Nat) => if ent l % 4 = type
      then (List.range (pieces (ent l))).map fun k => (ent l / 64 % 2 ^ 46 * 64 + 16 * k, 16) else []
    (s.w.active = 0 → exec (i f) s = .next s) ∧ OperandTrap (i f) (dstOf 1 f.d) cause s ∧
    ((∀ l, Active s l → cause l = none) →
      (s.w.active ≠ 0 → SpansPass { need := .load } ps s → Gives (exec (i f) s) (EngineIssued (i f)
        (fun l => ent l :: extra f s l :: (List.range 8).map fun k => (s.w.vreg l (f.a + k)).toNat) []
        { need := .load } ps false s)) ∧
      SpansTrap (i f) { need := .load } (dstOf 1 f.d) ps s)

/-- R336, R340: a malformed entry; log entry 21. -/
def EntryMalformed (e : Nat) : Prop :=
  e / 2 ^ 58 ≠ 0 ∨ (e % 4 = 0 ∧ e ≠ 0 ∧ e ≠ 4) ∨ (e % 4 = 1 ∧ (e / 4 % 16 ≠ 0 ∨ e / 64 % 2 ≠ 0)) ∨
  (e % 4 = 3 ∧ e / 4 % 16 ≠ 0)
/-- R337, R340: a malformed node record. -/
def NodeMalformed (r : Nat) : Prop :=
  ∃ c, c < 4 ∧ (EntryMalformed (bits r (768 + 64 * c) 64) ∨ bits r (768 + 64 * c + 52) 6 ≠ 0)
/-- R339, R340: a malformed instance record; log entry 21. -/
def InstanceMalformed (r : Nat) : Prop :=
  bits r 480 32 ≠ 0 ∨ (bits r 384 2 ≠ 1 ∧ bits r 384 2 ≠ 2) ∨ EntryMalformed (bits r 384 64)

/-- The numbers and the two infinities. -/
inductive XRat where
  | low
  | num (v : Rat)
  | high
  deriving DecidableEq, Repr

/-- Whether one is less than another. -/
def XRat.less : XRat → XRat → Bool
  | .low, .low => false
  | .low, _ => true
  | .num a, .num b => decide (a < b)
  | .num _, .high => true
  | _, _ => false
/-- The greater and the lesser of two. -/
def XRat.most (a b : XRat) : XRat := if a.less b then b else a
def XRat.least (a b : XRat) : XRat := if b.less a then b else a

/-- A value that is not a NaN, as one of them. -/
def xval : FV → XRat
  | .inf true => .low
  | .inf false => .high
  | v => .num (fvRat v)

/-- R345: t1 or t2 of one axis, for a direction that is not zero: (bound − o) / d in the extended reals; none where it is
undefined. -/
def slabTime : FV → FV → FV → Option XRat
  | .inf p, .inf q, .fin s _ _ => if p = q then none else some (xval (.inf (p != s)))
  | .inf p, .fin _ _ _, .fin s _ _ => some (xval (.inf (p != s)))
  | .fin _ _ _, .inf q, .fin s _ _ => some (xval (.inf (q == s)))
  | .fin _ _ _, .fin _ _ _, .inf _ => some (.num 0)
  | .fin p m e, .fin q n f, .fin s k g => some (.num ((ratOf p m e - ratOf q n f) / ratOf s k g))
  | _, _, _ => none

/-- R345: near and far of one axis; none for MISS. -/
def slabRange (lo hi o d : FV) : Option (XRat × XRat) :=
  if fvFinite d ∧ fvRat d = 0 then (if (xval o).less (xval lo) ∨ (xval hi).less (xval o) then none else some (.low, .high))
  else match slabTime lo o d, slabTime hi o d with
    | some a, some b => some (a.least b, a.most b)
    | _, _ => none

/-- R337, R341, R345: KEYT and tfar of child c of a node record; none where the child is not defined, or the ray holds a
NaN, which hits nothing. -/
def boxRange (r : Nat) (ray : Nat → FV) (c : Nat) : Option (XRat × XRat) :=
  let bound := fun (k : Nat) => FFmt.f32.read (bits r (192 * c + 32 * k) 32)
  let axis := fun (a : Nat) => slabRange (bound a) (bound (3 + a)) (ray a) (ray (4 + a))
  if bits r (768 + 64 * c) 2 = 0 ∨ (List.range 8).any (fun k => fvNan (ray k)) ∨
    (List.range 6).any (fun k => fvNan (bound k)) ∨
    (List.range 3).any (fun a => (xval (bound (3 + a))).less (xval (bound a))) then none
  else match axis 0, axis 1, axis 2 with
    | some x, some y, some z =>
      some ((((xval (ray 3)).most x.1).most y.1).most z.1, (((xval (ray 7)).least x.2).least y.2).least z.2)
    | _, _, _ => none

/-- R345: the slots of the children that RBOX returns, in the order of (KEYT, slot): those that the ray hits, and, with a
trail whose field is VALID, only those that do not stand before the field's slot, none if that child is not defined. -/
def BoxOrder (r : Nat) (ray : Nat → FV) (field : Nat) (hits : List Nat) : Prop :=
  let before := fun (a b : Nat) => ∃ x y, boxRange r ray a = some x ∧ boxRange r ray b = some y ∧
    (x.1.less y.1 = true ∨ (x.1 = y.1 ∧ a < b))
  hits.Pairwise before ∧
  ∀ c, c ∈ hits ↔ c < 4 ∧ (∃ x, boxRange r ray c = some x ∧ x.2.less x.1 = false) ∧
    (field / 8 % 2 = 1 → (∃ y, boxRange r ray (field % 4) = some y) ∧ ¬before c (field % 4))

/-- R302, R346, R348: RoundF32 of a number under RNE, with the sign that a zero takes. -/
def RoundF32 (v : Rat) (zneg : Bool) (y : Nat) : Prop :=
  ∃ x : Ex, Denotes x (if v < 0 then -v else v) ∧ (x.sticky = true → 2 ^ 25 ≤ x.m) ∧
    x.neg = (if v = 0 then zneg else decide (v < 0)) ∧ y = (FFmt.f32.deliver 1 false false x).1

/-- The scalar product, the cross product and the difference of vectors of three numbers. -/
def dot3 (a b : Nat → Rat) : Rat := a 0 * b 0 + a 1 * b 1 + a 2 * b 2
def cross3 (a b : Nat → Rat) (k : Nat) : Rat :=
  a ((k + 1) % 3) * b ((k + 2) % 3) - a ((k + 2) % 3) * b ((k + 1) % 3)
def sub3 (a b : Nat → Rat) (k : Nat) : Rat := a k - b k

/-- R338, R341, R346: t, u and v of the test of a triangle record; none for a miss. -/
def triangleHit (r : Nat) (ray : Nat → FV) : Option (Rat × Rat × Rat) :=
  let at_ := fun (k : Nat) => FFmt.f32.read (bits r (32 * k) 32)
  let vec := fun (g : Nat → FV) (k a : Nat) => fvRat (g (k + a))
  if (List.range 8).any (fun k => fvNan (ray k)) ∨ ¬[0, 1, 2, 4, 5, 6].all (fun k => fvFinite (ray k)) ∨
    ¬(List.range 9).all (fun k => fvFinite (at_ k)) then none
  else
    let o := vec ray 0
    let d := vec ray 4
    let v0 := vec at_ 0
    let v1 := vec at_ 3
    let v2 := vec at_ 6
    let n := cross3 (sub3 v1 v0) (sub3 v2 v0)
    let det := dot3 d n
    let e0 := dot3 d (cross3 (sub3 v1 o) (sub3 v2 o))
    let e1 := dot3 d (cross3 (sub3 v2 o) (sub3 v0 o))
    let e2 := dot3 d (cross3 (sub3 v0 o) (sub3 v1 o))
    if det ≠ 0 ∧ 0 ≤ e0 * det ∧ 0 ≤ e1 * det ∧ 0 ≤ e2 * det ∧ ¬(r.testBit 320 ∧ 0 < det) ∧ ¬(r.testBit 321 ∧ det < 0)
    then some (dot3 n (sub3 v0 o) / det, e1 / det, e2 / det)
    else none

/-- R347: one triangle tested against the tmax so far: what tmax and the four result registers are after it. -/
def TriangleStep (r : Nat) (ray : Nat → FV) (h h' : Nat × Option Nat) : Prop :=
  let nearer := fun (t : Rat) => (XRat.num t).less (xval (ray 3)) = false ∧
    (XRat.num t).less (xval (FFmt.f32.read h.1)) = true
  (∀ t u v, triangleHit r ray = some (t, u, v) → nearer t → ∃ x y z, RoundF32 t false x ∧ RoundF32 u false y ∧
    RoundF32 v false z ∧ h' = (x, some (x + y * 2 ^ 32 + z * 2 ^ 64 + bits r 288 32 * 2 ^ 96))) ∧
  ((∀ t u v, triangleHit r ray = some (t, u, v) → ¬nearer t) → h' = h)

/-- R348: a sum of terms, exact and rounded once; a NaN, or infinities of both signs, give the canonical NaN. -/
def SumIs (ps : List FV) (y : Nat) : Prop :=
  ((∃ p ∈ ps, IsNan p) ∨ (FV.inf true ∈ ps ∧ FV.inf false ∈ ps) → y = 0x7FC00000) ∧
  (∀ n : Bool, (∀ p ∈ ps, ¬IsNan p) → .inf n ∈ ps → .inf (!n) ∉ ps → y = if n then 0xFF800000 else 0x7F800000) ∧
  ((∀ p ∈ ps, IsFin p) → RoundF32 (ps.map fvRat).sum (ps.all fun
    | .fin true 0 _ => true
    | _ => false) y)

/-- R348: what RXFM gives for an instance record, a ray mask and the words of a ray: the ray in the instance's space and
its ROOT, or the ray unchanged and an empty entry; and ID. -/
def Transformed (r mask : Nat) (ray : Nat → Nat) (val : Nat → Nat) : Prop :=
  let m := fun (k c : Nat) => FFmt.f32.read (bits r (128 * k + 32 * c) 32)
  let x := fun (k : Nat) => FFmt.f32.read (ray k)
  let root := bits r 384 64 % 2 ^ 52 + bits r 384 64 / 2 ^ 58 * 2 ^ 58
  let meets := Nat.land (bits r 472 8) mask ≠ 0
  val 10 = bits r 448 24 ∧
  (¬meets → (∀ k, k < 8 → val k = ray k) ∧ val 8 = 0 ∧ val 9 = 0) ∧
  (meets → val 3 = ray 3 ∧ val 7 = ray 7 ∧ val 8 = root % 2 ^ 32 ∧ val 9 = root / 2 ^ 32 ∧ ∀ k, k < 3 →
    SumIs [product (m k 0) (x 0), product (m k 1) (x 1), product (m k 2) (x 2), m k 3] (val k) ∧
    SumIs [product (m k 0) (x 4), product (m k 1) (x 5), product (m k 2) (x 6)] (val (4 + k)))

/-- R350: entries pushed in order into a ring and its state word, where none fails or spills. -/
def pushAll : List Nat → (Nat → Nat) → Nat → (Nat → Nat) × Nat
  | [], ring, v => (ring, v)
  | x :: xs, ring, v =>
    if x % 4 = 0 then pushAll xs ring v
    else pushAll xs (fun i => if i = v % 8 then x else ring i)
      (v - v % 8 + (v % 8 + 1) % 8 + if v / 8 % 16 < 8 then 8 else if v / 512 % 2 = 1 then 0 else 512)

/-- R350: no push fails or spills: trail mode, or room in the ring. -/
def PushesFit (xs : List Nat) (v : Nat) : Prop := v / 128 % 4 = 2 ∨ v / 8 % 16 + xs.countP (fun x => x % 4 ≠ 0) ≤ 8

/-! ## Event records (R440) -/

/-- R440: an event record, of a KIND with the fields of its first 8 bytes, CODE, PAYLOAD and TIME, is appended and the
owner, when there is one, notified; with no ring, or a full one, it is dropped and the overflow count rises by 1. -/
def Posts (head code payload time : Nat) (s t : State) : Prop :=
  (s.eventRing = none → t.overflow = s.overflow + 1 ∧ t.eventNext = s.eventNext ∧ t.out = s.out ∧ t.mem = s.mem) ∧
  ∀ base k, s.eventRing = some (base, k) →
    let a := base + 32 * (s.eventNext % 2 ^ k)
    (readMem s.mem a 1 ≠ 0 → t.overflow = s.overflow + 1 ∧ t.eventNext = s.eventNext ∧ t.out = s.out ∧ t.mem = s.mem) ∧
    (readMem s.mem a 1 = 0 → base + 32 * 2 ^ k ≤ 0x1F00000000 → readBit s.mem (waitCell a) = false → t.overflow = s.overflow ∧
      t.eventNext = s.eventNext + 1 ∧
      t.out = s.out ++ (s.plat.owner.map fun m => { kind := 1, dest := m, data := [head % 256] : Sent }).toList ∧
      Stored a 32 (head + code % 2 ^ 32 * 2 ^ 64 + payload % 2 ^ 32 * 2 ^ 96 + time % 2 ^ 64 * 2 ^ 128) s t)

/-! ## Versions (R364-R370) -/

/-- R368: a version besides the committer's, or a child of one, which the commit of another child squashes. -/
def SquashedBeside (s : State) (ctx tag c k : Nat) : Prop :=
  let sibling := fun (k : Nat) => k ≠ tag ∧ k ∈ children s ctx (tagOf s ctx tag).parent
  c = ctx ∧ (sibling k ∨ ∃ j, sibling j ∧ k ∈ children s ctx j)

/-- A version may commit, and no wave or stream is in a version that its commit squashes; the tags form a tree of the depth
that R364 gives it, no sector stands twice, and no waiter is on one. -/
def CommitsAlone (ctx tag : Nat) (s : State) : Prop :=
  let p := (tagOf s ctx tag).parent
  p ≠ tag ∧ p ∉ children s ctx p ∧ p ∉ children s ctx tag ∧
  (∀ k j, k ≠ tag → k ∈ children s ctx p → j ∈ children s ctx k → children s ctx j = []) ∧
  (∀ w ∈ allWaves s, ¬SquashedBeside s ctx tag w.ctx w.version) ∧ s.st = {} ∧ s.streams = [] ∧
  (s.sectors.map fun x => (x.ctx, x.tag, x.num)).Nodup ∧
  ∀ x ∈ s.sectors, 128 * x.num + 128 ≤ 0x1F00000000 ∧ readBit s.mem (waitCell (128 * x.num)) = false

/-- R368: the commit point of a version: its siblings and their children end, its own children, sectors, log and deadline
are its parent's, and no L1 keeps a line of the parent's that holds a byte of a merged sector. -/
def Committed (ctx tag : Nat) (s t : State) : Prop :=
  let g := tagOf s ctx tag
  let p := g.parent
  let h := tagOf s ctx p
  let own := fun (c k : Nat) => c = ctx ∧ k = tag
  let gone := SquashedBeside s ctx tag
  let log := s.logs.filter fun e => e.ctx == ctx && e.tag == tag
  let cells := fun (x : Sector) (a : Nat) => (128 * x.num ≤ a ∧ a < 128 * x.num + 128) ∨
    (0x1F00000000 + 4 * x.num ≤ a ∧ a < 0x1F00000000 + 4 * x.num + 4)
  (tagOf t ctx tag).state = 3 ∧ (tagOf t ctx tag).into = p ∧
  (∀ k, k ≠ tag → k ∈ children s ctx p → (tagOf t ctx k).state = 2 ∧ (tagOf t ctx k).reason = 2) ∧
  (∀ k j, k ≠ tag → k ∈ children s ctx p → j ∈ children s ctx k → (tagOf t ctx j).state = 2 ∧ (tagOf t ctx j).reason = 3) ∧
  (∀ k, k ∈ children s ctx tag → tagOf t ctx k = { tagOf s ctx k with parent := p, depth := (tagOf s ctx k).depth - 1 }) ∧
  (∀ x ∈ t.l1, ∀ y ∈ s.sectors, own y.ctx y.tag → x.num = y.num → x.tag = p → x.ctx ≠ if p = 0 then 0 else ctx) ∧
  (p = 0 → (∀ x, x ∈ t.sectors ↔ x ∈ s.sectors ∧ ¬own x.ctx x.tag ∧ ¬gone x.ctx x.tag) ∧
    (∀ x ∈ s.sectors, own x.ctx x.tag → readMem t.mem (128 * x.num) 128 = x.data.toNat ∧
      readMem t.mem (0x1F00000000 + 4 * x.num) 4 = x.fe.toNat) ∧
    (∀ a, (∀ x ∈ s.sectors, own x.ctx x.tag → ¬cells x a) → readByte t.mem a = readByte s.mem a) ∧
    (∀ e, e ∈ t.logs ↔ e ∈ s.logs ∧ ¬own e.ctx e.tag ∧ ¬gone e.ctx e.tag) ∧
    t.replay = s.replay ++ log.map fun e => { e with late := g.dmiss }) ∧
  (p ≠ 0 → (∀ x, x ∈ t.sectors ↔ (∃ y ∈ s.sectors, own y.ctx y.tag ∧ x = { y with tag := p }) ∨
      (x ∈ s.sectors ∧ ¬own x.ctx x.tag ∧ ¬gone x.ctx x.tag ∧
        ¬(x.ctx = ctx ∧ x.tag = p ∧ ∃ y ∈ s.sectors, own y.ctx y.tag ∧ y.num = x.num))) ∧
    t.mem = s.mem ∧ t.replay = s.replay ∧
    (∃ rest, t.logs = rest ++ log.map (fun e => { e with tag := p }) ∧
      ∀ e, e ∈ rest ↔ e ∈ s.logs ∧ ¬own e.ctx e.tag ∧ ¬gone e.ctx e.tag) ∧
    tagOf t ctx p = if g.dset = true ∧ (h.dset = false ∨ g.deadline < h.deadline)
      then { h with dset := true, deadline := g.deadline, expired := false } else h)

/-! ## Command processors (R377-R404) -/

/-- The focused queue has a run in progress that has instructions left (R385, R389). -/
def Running (s : State) (r : Run) : Prop := s.q.on = true ∧ s.q.run = some r ∧ r.used < 256

/-- R385, R389: a run after one more instruction, at a word. -/
def Run.at_ (r : Run) (pc : Nat) : Run := { r with used := r.used + 1, pc := pc }

/-- R387: an instruction of n words gives a register of the queue a value; nothing else changes. -/
def QueueRegister (i : Instr) (n d : Nat) (val : Queue → DWord) : Prop :=
  ∀ (s : State) (r : Run), Running s r → Gives (exec i s) fun t =>
    t = { s with q := { s.q with c := t.q.c, run := some (Run.at_ r (r.pc + n)) } } ∧
    ∀ k, t.q.reg k = if k = d then val s.q else s.q.reg k

/-- The run of the focused queue goes on at a word, with a loop; nothing else changes. -/
def QueueGoes (i : Instr) (s : State) (r : Run) (pc : Nat) (loop : Option (Nat × Nat × Nat)) : Prop :=
  exec i s = .next { s with q := { s.q with run := some { Run.at_ r pc with loop := loop } } }

/-- R386: the address of a window access. -/
def windowAt (q : Queue) (n a off size : Nat) : Nat :=
  let w := q.windows.getD n { base := 0, len2 := 0, wr := false }
  (w.base + (q.reg a + (BitVec.ofNat 9 off).signExtend 64).toNat % 2 ^ w.len2 / size * size) % 2 ^ 64

/-- R390, R443: an access of the command processor of a stack that its page permits: it lies in one sector, and meets no
error at its home. -/
def CpPage (s : State) (stack ctx va n : Nat) (need : Need) (leaf : Leaf) : Prop :=
  0 < n ∧ va / 128 = (va + n - 1) / 128 ∧ va < 2 ^ 52 ∧ xlate s (cpUnit stack) ctx va need = .ok leaf ∧
  Sound s (leaf.addr va) n ∧ s.updates = []

/-- R389: the focused queue is faulted, and its run has ended. -/
def QueueFaults (s t : State) : Prop :=
  t.q.state = .faulted ∧ t.q.run = none ∧ t.q.c = s.q.c ∧ t.q.ridx = s.q.ridx ∧ t.ready = s.ready ∧ t.armed = s.armed

/-- R440: the QUEUE event of the focused queue, with a code, is posted. -/
def QueueEvent (code : Nat) (s t : State) : Prop :=
  Posts (4 + s.q.ctx % 2 ^ 12 * 2 ^ 8) (code + s.q.num * 2 ^ 16) 0 s.now s t

/-- The same access, whose page stands in the TLB of the command processor. -/
def CpHeld (s : State) (stack ctx va n : Nat) (need : Need) (leaf : Leaf) : Prop :=
  CpPage s stack ctx va n need leaf ∧ tlbHit s (cpUnit stack) ctx va = some leaf

/-- R380: the dispatcher of a stack takes a packet, which is the only one ready, and the effect follows on the state
without it. -/
def Takes (i : Instr) (stack : Nat) (p : Packet) (s : State) (P : State → Prop) : Prop :=
  nextWork s stack = some (.packet p) → s.ready = [p] → s.armed = [] → Gives (exec i s) fun t => t.ready = [] ∧ P t

/-- R380: a packet completes with a status, at tag v. -/
def Completes (p : Packet) (status v : Nat) (s t : State) : Prop :=
  t.completions = s.completions ++ [{ packet := p, status := status, cause := 0, version := v, stage := 0 }]

/-! ## The dispatcher (R16, R267, R396-R405) -/

/-- R16: a core has room for a team of a kernel: on each partition for the waves that it receives, their lanes and their
registers; and for the team's scratchpad and column space. -/
def CoreHolds (s : State) (k : Kernel) (core : Nat) : Prop :=
  (∀ p, p < 4 →
    let n := (List.range (k.teamSize / k.width)).countP fun w => w % 4 = p
    let here := (coreWaves s core).filter fun w => w.part = p
    here.length + n ≤ 32 ∧ (here.map Wave.width).sum + n * k.width ≤ 1024 ∧
    partRegs s core p + n * k.width * k.regs * 4 ≤ 2 ^ 18) ∧
  coreSum s core Kernel.scratch + k.scratch ≤ 0x50000 ∧ coreSum s core Kernel.column + k.column ≤ 0x2000000

/-- R16, R267, R405, R439: a cohort fits on a cluster, whose island is ON and whose dies have power, with its teams in rank
order on these cores, each on that core of those that hold no team of it which has the fewest resident waves, the lower on
a tie. -/
def ClusterHolds (s : State) (k : Kernel) (cluster : Nat) (cores : List Nat) : Prop :=
  let waves := fun (c : Nat) => (coreWaves s c).length
  let die := fun (d : Nat) => 7 * (cluster / 8) + d ∉ s.plat.deadDies
  (s.island cluster).state = 0 ∧ die 0 ∧ die (if cluster % 8 < 4 then 1 else 2) ∧ (k.column ≠ 0 → die 3) ∧
  (k.matrix = true → s.cohorts.countP (fun c => c.cluster = cluster ∧ (s.stream c.id).isSome) < 8) ∧
  cores.length = k.teams ∧ ∀ r, r < k.teams →
    let c := cores.getD r 0
    c / 4 = cluster ∧ c ∉ cores.take r ∧ CoreHolds s k c ∧
    ∀ d, d / 4 = cluster → d ∉ cores.take r → CoreHolds s k d → waves c < waves d ∨ (waves c = waves d ∧ c ≤ d)

/-- R397: of the clusters of a set of stacks on which a cohort fits, the one with the fewest resident waves, the lower on a
tie; and the cores of its teams. -/
def PlacesOn (s : State) (part : Nat) (k : Kernel) (cluster : Nat) (cores : List Nat) : Prop :=
  let waves := fun (c : Nat) => ((List.range 4).map fun j => (coreWaves s (4 * c + j)).length).sum
  let takes := fun (c : Nat) (cs : List Nat) => c < 32 ∧ part.testBit (c / 8) = true ∧ ClusterHolds s k c cs
  takes cluster cores ∧ ∀ d ds, takes d ds → waves cluster < waves d ∨ (waves cluster = waves d ∧ cluster ≤ d)

/-- R396: a launch has the first claim on the dispatcher of a stack: it may run there, its queue is not suspended, every
other launch and every ready packet is of a lower class, and no grid is draining. -/
def FirstWork (s : State) (stack : Nat) (l : Launch) : Prop :=
  l ∈ s.launches ∧ (s.launches.map Launch.id).Nodup ∧
  (∀ m ∈ s.launches, m.drained = false ∧ (m.id = l.id ∨ l.packet.cls < m.packet.cls)) ∧
  (∀ p ∈ s.ready, l.packet.cls < p.cls) ∧ l.packet.cls < 4 ∧ stack < 4 ∧
  (keyStacks s l.packet.key).testBit stack = true ∧
  ∀ q, s.queue (l.packet.key / 64) (l.packet.key % 64) = some q → q.state ≠ .suspended

/-- R73, R93, R105, R155, R267, R401: a cohort of a launch, for the group, label and records of x, as it stands when it has
been placed: its barriers, its waves and, for a matrix kernel, its stream. The lanes of a formed wave are its records. -/
def Placed (l : Launch) (x : Waiting) (relaunch : Bool) (cluster : Nat) (cores : List Nat) (s t : State) : Prop :=
  let per := l.kernel.teamSize / l.kernel.width
  let lanes := (x.formed.map fun f => f.recs.length).getD l.kernel.width
  t.mem = s.mem ∧ t.w = s.w ∧
  t.streams = (if l.kernel.matrix = true then s.streams ++ [{ on := true, cohort := s.nextId }] else s.streams) ∧
  (∃ c : Cohort, t.cohorts = s.cohorts ++ [c] ∧ c.id = s.nextId ∧ c.launch = l.id ∧ c.ctx = l.ctx ∧ c.cluster = cluster ∧
    c.cores = cores ∧ c.group = x.group ∧ c.label = x.label ∧ c.restarts = x.restarts ∧ c.version = x.version ∧
    c.waves = cores.length * per ∧ c.bars.length = 8 ∧
    ∀ b ∈ c.bars, b.count = false ∧ b.arrived = 0 ∧ b.gen = 0 ∧ b.expected = cores.length * per * lanes) ∧
  ∃ ws : List Wave, t.waves = s.waves ++ ws ∧ ws.length = cores.length * per ∧
    ∀ w ∈ ws, w.on = true ∧ w.cohort = s.nextId ∧ w.ctx = l.ctx ∧ w.width = l.kernel.width ∧
      w.nregs = l.kernel.regs ∧ w.fpmode = l.kernel.fpmode0 ∧ w.waitBudget = l.kernel.waitBudget0 ∧
      w.sreg 0 = l.params.setWidth 32 ∧ w.sreg 1 = (l.params >>> 32).setWidth 32 ∧
      (x.formed = none → w.exited = 0 ∧ w.v = [] ∧ ∀ k, k < w.width →
        w.pcOf k = if relaunch = true then x.label else l.kernel.entry) ∧
      ∀ f, x.formed = some f → lanes ≤ w.width → (∀ k, w.exited.getLsbD k = true ↔ lanes ≤ k ∧ k < w.width) ∧
        ∀ k, k < lanes → (w.pcOf k = if relaunch = true then x.label else BitVec.ofNat 64 (f.recs.getD k (0, [])).1) ∧
          ∀ r, r < 6 → w.vreg k r = BitVec.ofNat 32 ((f.recs.getD k (0, [])).2.getD r 0)

/-- R400, R402: the records of bins are emitted, in order: each list becomes a formed wave, and FORMED counts it. -/
def Emits (l : Launch) (bs : List (List (Nat × List Nat))) (leaf : Leaf) (m : Launch) (t : State) : Prop :=
  m.count = l.count + bs.length ∧
  m.formedQueue = l.formedQueue ++ (List.range bs.length).map (fun i => { number := l.count + i, recs := bs.getD i [] }) ∧
  (bs ≠ [] → readMem t.mem (leaf.addr (l.poolA + 24)) 4 = m.count % 2 ^ 32)

/-- R402: every bin that holds a record is emitted, in ascending order. -/
def EmitsAll (l : Launch) (leaf : Leaf) (s t : State) : Prop :=
  ∃ m, t.launches = [m] ∧ m.flush = false ∧ (∀ b, b < 64 → SMap.get [] m.bins b = []) ∧
    Emits l (((List.range 64).map fun b => SMap.get [] l.bins b).filter fun b => !b.isEmpty) leaf m t ∧
    t.cohorts = s.cohorts ∧ t.completions = s.completions

/-- R400: the bin that a record with a PC goes to, of n, and whether that bin is emitted first. -/
def BinFor (bin : Nat → List (Nat × List Nat)) (n pc b : Nat) (first : Bool) : Prop :=
  let holds := fun (k : Nat) => ((bin k).head?.map Prod.fst) = some pc
  b < n ∧
  ((holds b ∧ first = false ∧ ∀ k, k < b → ¬holds k) ∨
   ((∀ k, k < n → ¬holds k) ∧ bin b = [] ∧ first = false ∧ ∀ k, k < b → bin k ≠ []) ∨
   ((∀ k, k < n → ¬holds k ∧ bin k ≠ []) ∧ first = true ∧
     ∀ k, k < n → (bin k).length < (bin b).length ∨ ((bin k).length = (bin b).length ∧ b ≤ k)))

/-! ## The control protocol (R424-R435) -/

/-- R424: a reply goes to the master and is kept for a repetition. -/
def Replied (h : ZcpHdr) (status : Nat) (extra : List Nat) (s t : State) : Prop :=
  t.plat.replies = { master := h.master, seq := h.seq, port := h.port, data := status :: extra } :: s.plat.replies ∧
  t.out = s.out ++ [{ kind := 4, dest := h.master, data := h.port :: h.seq :: status :: extra }]

/-- R424, R428: a request that reaches ZCP outside a roll call, for the first time. -/
def Arrives (h : ZcpHdr) (s : State) : Prop :=
  admitted h s = true ∧ s.plat.roll = none ∧ ∀ r ∈ s.plat.replies, ¬(r.master = h.master ∧ r.seq = h.seq)

/-- R428, R430: the same, from the owner, whose ownership has not lapsed. -/
def FromOwner (h : ZcpHdr) (s : State) : Prop :=
  Arrives h s ∧ s.plat.owner = some h.master ∧ s.now < s.plat.lastRequest + 500000000

/-- R432: a request is one that the module serves: while the boot ROM waits for a control image, only IMAGE and CONFIG
(log entry 43). -/
def Serves (s : State) (i : Instr) : Prop :=
  s.plat.waiting = false ∨ (∃ h a b d g, i = .evImage h a b d g) ∨ ∃ h a b d g, i = .evConfig h a b d g

/-- R432: while the boot ROM waits for a control image, a request other than IMAGE and CONFIG is dropped (log entry 43). -/
def DroppedAtBoot (i : ZcpHdr → Instr) : Prop :=
  ∀ (h : ZcpHdr) (s : State), s.plat.waiting = true → exec (i h) s = .next s

/-- R424, R428, R430: what every request of the owner does besides its effect: one that is not admitted is dropped, a
repetition gets the first reply, and another master's is answered with status 2, unless the request is then open to
every admitted master; nothing else changes. A request that the boot ROM does not serve is dropped. -/
def GuardedUnless (free : State → Prop) (i : ZcpHdr → Instr) : Prop :=
  ∀ (h : ZcpHdr) (s : State),
    (admitted h s = false ∨ ¬Serves s (i h) → exec (i h) s = .next s) ∧
    (Arrives h s → Serves s (i h) → ¬free s → h.master < 8 → s.plat.owner ≠ some h.master →
      (s.plat.owner = none ∨ s.now < s.plat.lastRequest + 500000000) →
      Gives (exec (i h) s) fun t => Replied h 2 [] s t ∧
        t = { s with out := t.out, plat := { s.plat with replies := t.plat.replies } }) ∧
    (∀ r, admitted h s = true → Serves s (i h) → s.plat.roll = none → s.plat.owner = some h.master →
      s.now < s.plat.lastRequest + 500000000 → s.plat.replies = [r] → r.master = h.master → r.seq = h.seq →
      exec (i h) s = .next { s with plat := { s.plat with lastRequest := s.now }
                                    out := s.out ++ [{ kind := 4, dest := h.master, data := h.port :: h.seq :: r.data }] })

/-- The same for a request that only the owner may make. -/
def Guarded (i : ZcpHdr → Instr) : Prop := GuardedUnless (fun _ => False) i

/-- R425, R430: a request of the owner that is answered with a status, and its effect. -/
def Answers (i : ZcpHdr → Instr) (status : Nat) (extra : List Nat) (s : State) (P : State → Prop) : Prop :=
  ∀ h : ZcpHdr, FromOwner h s → Serves s (i h) → Gives (exec (i h) s) fun t => Replied h status extra s t ∧
    t.plat.lastRequest = s.now ∧ P t

/-- R414-R416: a request word for an island, from the owner: its RESULT, the island's STATE after it, and its effect. -/
def IslandAnswers (island word result : Nat) (s : State) (P : State → Prop) : Prop :=
  ∀ h : ZcpHdr, FromOwner h s → s.plat.waiting = false → Gives (exec (.evIsland h island word) s) fun t => P t ∧
    ∃ status, Replied h 0 [status] s t ∧ status % 16 = result ∧ status / 16 % 4 = (t.island island).state % 4

/-- R375, R376: a context record may be started: no reserved bit is set, every field is in its range, its number is free,
and its root table and areas are aligned and, with their sizes, mappable (R23). -/
def ContextStarts (s : State) (r : Nat) : Prop :=
  let area := fun (base size : Nat) => base % 65536 = 0 ∧ base + size ≤ 0x1F00000000
  let log := fun (at_ width lo hi : Nat) => lo ≤ bits r at_ width ∧ bits r at_ width ≤ hi
  bits r 79 17 = 0 ∧ bits r 389 3 = 0 ∧ bits r 396 4 = 0 ∧ bits r 405 3 = 0 ∧ bits r 413 99 = 0 ∧ bits r 768 256 = 0 ∧
  s.context (bits r 64 12) = none ∧ bits r 0 64 % 65536 = 0 ∧
  log 384 5 4 20 ∧ area (bits r 128 64) (256 * 2 ^ bits r 384 5) ∧
  (bits r 192 64 ≠ 0 → log 392 4 4 12 ∧ area (bits r 192 64) (64 * 2 ^ bits r 392 4)) ∧
  log 400 5 8 24 ∧ area (bits r 256 64) (256 * 2 ^ bits r 400 5) ∧
  log 408 5 8 20 ∧ area (bits r 320 64) (64 * 2 ^ bits r 408 5)

/-- R377: a queue descriptor of a context whose fields are in range and whose number is free, on a stack with a queue left. -/
def QueueStarts (s : State) (c : Context) (ctx d : Nat) : Prop :=
  let window := fun (w : Nat) =>
    let len2 := bits d (384 + 128 * w + 64) 5
    bits d (384 + 128 * w + 70) 58 = 0 ∧ (len2 = 0 ∨ (8 ≤ len2 ∧ bits d (384 + 128 * w) 64 % 2 ^ len2 = 0))
  bits d 90 6 = 0 ∧ bits d 266 118 = 0 ∧ bits d 896 128 = 0 ∧ bits d 0 64 % 64 = 0 ∧
  2 ≤ bits d 64 4 ∧ bits d 64 4 ≤ 12 ∧ c.classMax ≤ bits d 68 2 ∧ bits d 70 8 ≠ 0 ∧ bits d 78 4 ≠ 0 ∧
  bits d 160 32 ≠ 0 ∧ bits d 192 64 % 4 = 0 ∧ bits d 256 10 ≠ 0 ∧ (∀ w, w < 4 → window w) ∧
  s.queue ctx (bits d 84 6) = none ∧ (allQueues s).countP (fun q => q.home = bits d 82 2) < 256

/-- The island of a cluster is i; every other, and all else but the request's bookkeeping, is as before. -/
def IslandBecomes (cluster : Nat) (i : Island) (s t : State) : Prop :=
  t.island cluster = i ∧ (∀ d, d ≠ cluster → t.island d = s.island d) ∧
  t = { s with out := t.out, plat := { s.plat with islands := t.plat.islands, replies := t.plat.replies
                                                   lastRequest := t.plat.lastRequest } }

/-- The platform but for the request's own bookkeeping. -/
def PlatformOf (p : Platform) (s t : State) : Prop :=
  t = { s with out := t.out, plat := { p with replies := t.plat.replies, lastRequest := t.plat.lastRequest } }

/-! ## Packing (R80) -/

/-- R80: the waves of a list are those that a partition packs beside the focused wave, which it has chosen at the header at
an address: of its team, ready, at the same header, together no wider than the lanes that it leaves free; a wave that is
left out is one that no longer fitted beside those that come before it in the order of R79. -/
def PackedBeside (s : State) (pc : Nat) (g : List Wave) : Prop :=
  let may := fun (x : Wave) =>
    x ∈ s.waves ∧ x.core = s.w.core ∧ x.part = s.w.part ∧ x.cohort = s.w.cohort ∧ x.rank = s.w.rank ∧
    waveReady s x = true ∧ x.clause = none ∧ x.squash = false ∧ (x.handler = true ∨ x.late = []) ∧
    ∃ h, nextHeader { s with w := x } = some (pc, some h)
  let lanes := fun (l : List Wave) => (l.map Wave.width).sum
  (∀ x ∈ g, may x) ∧ (g = [] ∨ s.w.width + lanes g ≤ 64) ∧
  ∀ x, may x → x ∉ g → 64 < s.w.width + lanes (g.filter fun y => y.before x) + x.width

/-! ## Sensors (R439) -/

/-- R439: one trip of one sensor is in force, or clear; every other is as before. -/
def TripIs (sensor trip : Nat) (on : Bool) (s t : State) : Prop :=
  ∀ k j, (SMap.get 0 t.plat.trips k).testBit j =
    if k = sensor ∧ j = trip then on else (SMap.get 0 s.plat.trips k).testBit j

end Sys2Proof.Safety
end

