-- ==== Sys2Proof/Certificates/Slice0/Obligations.lean ====
section
/-!
DEFINITION. The statements about the machine, in the order of the spec's subjects.
-/

open Sys2Proof Sys2Proof.Machine Sys2Proof.Safety

/-! ## Floating point (R66, R111-R120) -/

/-- R66, R113-R119, R129: every floating-point instruction completes unless an enabled exception is raised: every
ACTIVE lane's delivered result is in D, every exception raised is in the sticky flags, and nothing else changes. R66
step 3: with an enabled exception raised, it first completes, results and flags, and the wave then takes the trap of
the first such exception, in the order of R66, for exactly the lanes that raised it, with the number of D in TRAPDST.
R53-R65, R112-R117, R119, R130: what the results are: the elements of T, their sources and NaNs; the exact sum, product,
quotient, root, integral value, fraction and scaled value of finite numbers, and the exact cases of the functions; the
special cases of infinities, zeros and NaNs; and the rounding, overflow, saturation, flushing and flags of the delivery
in each format. Between its exact cases a function of R115 is computed to 640 bits, and no clause says more of it. Of
several NaNs FDOT2 and E8M0's tie take the readings of log entries 64 and 65. R118, R129, R130: the classes of FCLASS,
and the conversions of CVT format by format. -/
def Obligations.FloatingPointResults : Prop :=
  (FpRuns .fadd (fun m f => arith m f 2 opAdd) ∧
   FpRuns .fsub (fun m f => arith m f 2 opSub) ∧
   FpRuns .fmul (fun m f => arith m f 2 opMul) ∧
   FpRuns .ffma (fun m f => arith m f 3 opFma) ∧
   FpRuns .fmin (fun m f a b _ => minmax m f false false a b) ∧
   FpRuns .fmax (fun m f a b _ => minmax m f true false a b) ∧
   FpRuns .fminp (fun m f a b _ => minmax m f false true a b) ∧
   FpRuns .fmaxp (fun m f a b _ => minmax m f true true a b) ∧
   FpRuns .frcp (fun m f => arith m f 1 opRcp) ∧
   FpRuns .frsq (fun m f => arith m f 1 opRsq) ∧
   FpRuns .fsqrt (fun m f => arith m f 1 opSqrt) ∧
   FpRuns .fdiv (fun m f => arith m f 2 opDiv) ∧
   FpRuns .fexp2 (fun m f a _ _ => func m f true fExp2 a) ∧
   FpRuns .flog2 (fun m f a _ _ => func m f false fLog2 a) ∧
   FpRuns .fsin (fun m f a _ _ => func m f false fSin a) ∧
   FpRuns .fcos (fun m f a _ _ => func m f false fCos a) ∧
   FpRuns .frint (fun m f a _ _ => rint m f a) ∧
   FpRuns .ffrac (fun m f a _ _ => frac m f a) ∧
   FpRuns .fscale (fun m f a b _ => scale m f a b) ∧
   (∀ (f : V3) (s : State), f.d < 128 →
     let r := fun l => dot2 s.w.fpmode f (s.w.srcA f l) (s.w.srcB f l) (s.w.vreg l f.d)
     FpCompletes (.fdot2 f) (fun l => (r l).2) (128 + f.d) (FpResult f.d r) s) ∧
   (∀ (f : RL) (s : State), f.d < 128 →
     let r := fun l => cvtOp s.w.fpmode f.imm (s.w.vreg l f.a) (s.w.vreg l f.d)
     FpCompletes (.cvt f) (fun l => (r l).2) (128 + f.d) (FpResult f.d r) s) ∧
   (∀ (f : V3) (s : State), f.d < 128 → Gives (exec (.fclass f) s)
     (VectorResult f.d (fun l => fclassOp s.w.fpmode f (s.w.srcA f l)) s))) ∧
  (ElementsRight ∧ ArithmeticRight ∧ SpecialsRight ∧ FunctionsRight ∧ DotRight) ∧
  (RoundingRight ∧ DeliveryRight ∧ ConversionRight) ∧ (ClassesRight ∧ ConvertsRight)

/-- R120, R125, R128, R141: the comparisons write their condition into predicate D[2:0] of every ACTIVE lane (p7
discards it); FCMP also accumulates its flags, and R66: with an enabled exception raised it traps after that, with the
predicate in TRAPDST (R77). R114, R120: the order of the numbers that FCMP, FMIN and FMAX compare. R120, R125: the
tables of the conditions, row by row. -/
def Obligations.ComparisonResults : Prop :=
  (∀ (f : V3) (s : State),
    let r := fun l => fcmpOp s.w.fpmode f (s.w.srcA f l) (s.w.srcB f l)
    FpCompletes (.fcmp f) (fun l => (r l).2) (384 + f.d % 8)
      (fun s t => OnlyPredicateFp s t ∧ PredicateIs (f.d % 8) (fun l => (r l).1) s t ∧ FlagsRaised (fun l => (r l).2) s t)
      s) ∧
  (OrderRight ∧ FcmpRight ∧ IcmpRight) ∧
  (∀ (f : V3) (s : State), f.t ≠ 1 → Gives (exec (.icmp f) s)
    (PredicateResult (f.d % 8) (fun l => icond (f.d / 8) (s.w.srcA f l) (s.w.srcB f l)) s)) ∧
  (∀ (f : V3) (s : State), f.t = 1 → Gives (exec (.icmp f) s)
    (PredicateResult (f.d % 8) (fun l => icond (f.d / 8) (s.w.pairA f l) (s.w.pairB f l)) s)) ∧
  (∀ (f : RI) (s : State), Gives (exec (.icmpi f) s)
    (PredicateResult (f.d % 8)
      (fun l => icond (f.d / 8) (s.w.vreg l f.a) ((BitVec.ofNat 10 f.imm).signExtend 32)) s)) ∧
  (∀ (f : SF) (s : State), Gives (exec (.scmp f) s)
    (PredicateResult (f.sd % 8) (fun _ => icond f.imm (s.w.sreg f.sa) (s.w.sreg f.sb)) s))

/-! ## Integers (R71, R121-R131) -/

/-- R71, R121, R122, R128, R131: the 32-bit integer instructions write their result modulo 2^32, clamped where SAT
applies, in every ACTIVE lane of D, and change nothing else. R131: PRMT: byte i of the result is zero where bit 12 + i
of the control word is set, and otherwise the byte of the pool A, B that selector i names. -/
def Obligations.IntegerResults : Prop :=
  (IntRuns .iadd (fun f a b _ => fit f.t f.x.sat (num f.t a + num f.t b)) ∧
   IntRuns .isub (fun f a b _ => fit f.t f.x.sat (num f.t a - num f.t b)) ∧
   IntRuns .imul (fun f a b _ => fit f.t f.x.sat (num f.t a * num f.t b)) ∧
   IntRuns .imad (fun f a b c => fit f.t f.x.sat (num f.t a * num f.t b + num f.t c)) ∧
   IntRuns .imulh (fun f a b _ => BitVec.ofInt 32 (num f.t a * num f.t b / 2 ^ 32)) ∧
   IntRuns .imin (fun f a b _ => if num f.t b < num f.t a then b else a) ∧
   IntRuns .imax (fun f a b _ => if num f.t a ≤ num f.t b then b else a) ∧
   IntRuns .iand (fun f a b _ => a &&& (if f.t = 1 then ~~~b else b)) ∧
   IntRuns .ior (fun f a b _ => a ||| (if f.t = 1 then ~~~b else b)) ∧
   IntRuns .ixor (fun f a b _ => a ^^^ (if f.t = 1 then ~~~b else b)) ∧
   IntRuns .shl (fun _ a b _ => if 32 ≤ b.toNat then 0 else a <<< b.toNat) ∧
   IntRuns .shr (fun f a b _ =>
     if f.t = 0 then (if 32 ≤ b.toNat then 0 else a >>> b.toNat) else a.sshiftRight (min b.toNat 31)) ∧
   IntRuns .rot (fun f a b _ =>
     let n := b.toNat % 32
     if f.t = 0 then (a <<< n) ||| (a >>> (32 - n)) else (a >>> n) ||| (a <<< (32 - n))) ∧
   IntRuns .popc (fun _ a _ _ => BitVec.ofNat 32 ((List.range 32).countP fun k => a.getLsbD k)) ∧
   IntRuns .brev (fun _ a _ _ => a.reverse) ∧
   IntRuns .clz (fun _ a _ _ => BitVec.ofNat 32 (if a = 0 then 32 else 31 - Nat.log2 a.toNat)) ∧
   IntRuns .ihash (fun _ a b _ =>
     let x := a ^^^ (b * 0x243F6A89#32)
     let x := (x ^^^ (x >>> 16)) * 0x85A308D3#32
     let x := (x ^^^ (x >>> 13)) * 0x13198A2F#32
     x ^^^ (x >>> 16)) ∧
   IntRuns .pack (fun f a b _ =>
     (if f.t = 1 ∨ f.t = 2 then b &&& 0xFFFF0000#32 else b <<< 16) |||
     (if f.t = 1 ∨ f.t = 3 then a >>> 16 else a &&& 0xFFFF#32)) ∧
   (∀ (f : RI) (s : State), f.d < 128 → Gives (exec (.iaddi f) s)
     (VectorResult f.d (fun l => s.w.vreg l f.a + (BitVec.ofNat 10 f.imm).signExtend 32) s)) ∧
   (∀ (f : RL) (s : State), f.d < 128 → Gives (exec (.logi f) s)
     (VectorResult f.d (fun l =>
       let a := s.w.vreg l f.a
       let b : Word := BitVec.ofNat 32 f.imm
       if f.mod = 0 then a &&& b else if f.mod = 1 then a ||| b else if f.mod = 2 then a ^^^ b else a &&& ~~~b) s))) ∧
  (∀ (f : V3) (s : State), f.d < 128 → Gives (exec (.prmt f) s) fun t => OnlyVector s t ∧
     ∀ l, (∀ r, r < 128 → ¬(Active s l ∧ r = f.d) → t.w.vreg l r = s.w.vreg l r) ∧
       (Active s l → ∀ i, i < 4 → ((t.w.vreg l f.d) >>> (8 * i)).setWidth 8 =
         if (s.w.srcC f l).getLsbD (12 + i) = true then (0 : BitVec 8)
         else ((s.w.srcB f l ++ s.w.srcA f l) >>> (8 * (((s.w.srcC f l) >>> (3 * i)).toNat % 8))).setWidth 8))

/-- R124: BFE gives the field, zero-extended or extended from its top bit; BFI replaces the field of the old D. -/
def Obligations.BitFields : Prop :=
  let off := fun (b : Word) => min (b.toNat % 256) 32
  let wid := fun (b : Word) => min (b.toNat / 256 % 256) (32 - off b)
  (∀ (f : V3) (s : State), f.d < 128 → Gives (exec (.bfe f) s) fun t => OnlyVector s t ∧
    ∀ l, (∀ r, r < 128 → ¬(Active s l ∧ r = f.d) → t.w.vreg l r = s.w.vreg l r) ∧
      (Active s l → ∀ i, i < 32 → (t.w.vreg l f.d).getLsbD i =
        if i < wid (s.w.srcB f l) then (s.w.srcA f l).getLsbD (off (s.w.srcB f l) + i)
        else decide (f.t = 1) && decide (0 < wid (s.w.srcB f l))
          && (s.w.srcA f l).getLsbD (off (s.w.srcB f l) + wid (s.w.srcB f l) - 1))) ∧
  (∀ (f : V3) (s : State), f.d < 128 → Gives (exec (.bfi f) s) fun t => OnlyVector s t ∧
    ∀ l, (∀ r, r < 128 → ¬(Active s l ∧ r = f.d) → t.w.vreg l r = s.w.vreg l r) ∧
      (Active s l → ∀ i, i < 32 → (t.w.vreg l f.d).getLsbD i =
        if off (s.w.srcB f l) ≤ i ∧ i < off (s.w.srcB f l) + wid (s.w.srcB f l)
        then (s.w.srcA f l).getLsbD (i - off (s.w.srcB f l))
        else (s.w.vreg l f.d).getLsbD i))

/-- R123: IDIV and IREM write every ACTIVE lane: the quotient rounded towards zero and its remainder, 0xFFFF_FFFF and a
for a zero divisor. Then, without .Q, INT_DIVZERO is taken when an ACTIVE lane had a zero divisor, for those lanes, with
D in TRAPDST. -/
def Obligations.IntegerDivision : Prop :=
  DivRuns .idiv (fun t a b => if b = 0 then 0xFFFFFFFF#32 else BitVec.ofInt 32 (Int.tdiv (num t a) (num t b))) ∧
  DivRuns .irem (fun t a b => if b = 0 then a
    else BitVec.ofInt 32 (num t a - num t b * Int.tdiv (num t a) (num t b)))

/-- R126, R128, R122: the instructions that write a pair of registers. R122, R127, R128: MOV, MOVI and SEL of 32 bits.
R133: VXRD and VXWR form a register number in each ACTIVE lane; when every number is in range (and even for a
pair) the registers are moved, and otherwise REG_RANGE names exactly the lanes whose number is not, with no lane
affected and, R77, the number of VXRD's D in TRAPDST, 0 for VXWR, whose destination no field names (log entry 30). That
a base register need not be even for a pair is the reading of log entry 50. -/
def Obligations.MoveResults : Prop :=
  ((∀ (f : V3) (s : State), f.d + 1 < 128 → Gives (exec (.iadd64 f) s)
     (PairResult f.d (fun l => if f.t = 1 then s.w.pairA f l - s.w.pairB f l else s.w.pairA f l + s.w.pairB f l) s)) ∧
   (∀ (f : V3) (s : State), f.d + 1 < 128 → Gives (exec (.imadw f) s)
     (PairResult f.d (fun l => BitVec.ofInt 64 (num f.t (s.w.srcA f l) * num f.t (s.w.srcB f l))
       + (s.w.vreg l (f.d + 1) ++ s.w.vreg l f.d)) s)) ∧
   (∀ (f : V3) (s : State), f.d + 1 < 128 → Gives (exec (.lea f) s)
     (PairResult f.d (fun l => s.w.pairA f l + (s.w.srcB f l).setWidth 64 *
       (if f.t = 0 then 1#64 else if f.t = 1 then 4#64 else if f.t = 2 then 8#64 else 16#64)) s)) ∧
   (∀ (f : V3) (s : State), f.d + 1 < 128 → f.t = 1 → Gives (exec (.mov f) s)
     (PairResult f.d (fun l => s.w.pairA f l) s)) ∧
   (∀ (f : RL) (s : State), f.d + 1 < 128 → f.mod % 2 = 1 → Gives (exec (.movi f) s)
     (PairResult f.d (fun _ => (BitVec.ofNat 32 f.imm).signExtend 64) s))) ∧
  ((∀ (f : V3) (s : State), f.d < 128 → f.t ≠ 1 → Gives (exec (.mov f) s) (VectorResult f.d (s.w.srcA f) s)) ∧
   (∀ (f : RL) (s : State), f.d < 128 → f.mod % 2 = 0 → Gives (exec (.movi f) s)
     (VectorResult f.d (fun _ => BitVec.ofNat 32 f.imm) s)) ∧
   (∀ (f : V3) (s : State), f.d < 128 → f.xw = none → Gives (exec (.sel f) s)
     (VectorResult f.d (fun l => if s.w.pred 0 l = true then s.w.srcB f l else s.w.srcA f l) s)) ∧
   (∀ (f : V3) (x : XW) (s : State), f.d < 128 → f.xw = some x → Gives (exec (.sel f) s)
     (VectorResult f.d (fun l =>
       if s.w.pred (x.c % 8) l = !x.c.testBit 3 then s.w.srcB f l else s.w.srcA f l) s))) ∧
  (let number := fun (base : Nat) (f : V3) (s : State) (l : Nat) => (BitVec.ofNat 32 base + s.w.srcB f l).toNat
   let bad := fun (base : Nat) (f : V3) (s : State) (l : Nat) =>
     Active s l ∧ (s.w.nregs ≤ number base f s l ∨ (f.t = 1 ∧ number base f s l % 2 = 1))
   (∀ (f : V3) (s : State), f.d < 128 → f.t ≠ 1 → (∀ l, ¬bad f.a f s l) → Gives (exec (.vxrd f) s)
     (VectorResult f.d (fun l => s.w.vreg l (number f.a f s l)) s)) ∧
   (∀ (f : V3) (s : State), f.d + 1 < 128 → f.t = 1 → (∀ l, ¬bad f.a f s l) → Gives (exec (.vxrd f) s)
     (PairResult f.d (fun l => s.w.vpair l (number f.a f s l)) s)) ∧
   (∀ (f : V3) (s : State), s.w.nregs ≤ 128 → f.t ≠ 1 → (∀ l, ¬bad f.d f s l) → Gives (exec (.vxwr f) s) fun t =>
     OnlyVector s t ∧ ∀ l r, r < 128 → t.w.vreg l r =
       if Active s l ∧ r = number f.d f s l then s.w.srcA f l else s.w.vreg l r) ∧
   (∀ (f : V3) (s : State), s.w.nregs ≤ 128 → s.w.nregs % 2 = 0 → f.t = 1 → (∀ l, ¬bad f.d f s l) →
     Gives (exec (.vxwr f) s) fun t => OnlyVector s t ∧ ∀ l r, r < 128 → t.w.vreg l r =
       if Active s l ∧ r = number f.d f s l then (s.w.pairA f l).setWidth 32
       else if Active s l ∧ r = number f.d f s l + 1 then (s.w.pairA f l >>> 32).setWidth 32
       else s.w.vreg l r) ∧
   (∀ (f : V3) (s : State), (∃ l, bad f.a f s l) → ∃ mask : Lanes, (∀ l, mask.getLsbD l = true ↔ bad f.a f s l) ∧
     exec (.vxrd f) s = .next (raise .regRange mask (dstOf 1 f.d) 0 s)) ∧
   (∀ (f : V3) (s : State), (∃ l, bad f.d f s l) → ∃ mask : Lanes, (∀ l, mask.getLsbD l = true ↔ bad f.d f s l) ∧
     exec (.vxwr f) s = .next (raise .regRange mask 0 0 s)))

/-! ## Scalars and single values (R132-R134, R140, R128) -/

/-- R128, R134, R140: the scalar results, written once per issue and not when ACTIVE is empty. R134: SMOVV writes a
scalar into the ACTIVE lane that another scalar names, or into every ACTIVE lane. R140: the operations of SALU, row by
row. -/
def Obligations.ScalarResults : Prop :=
  SaluRight ∧ ((∀ (f : SF) (s : State), Gives (exec (.salu f) s) (ScalarResult f.sd (saluOp f.imm (s.w.sreg f.sa) (s.w.sreg f.sb)) s)) ∧
   (∀ (f : RL) (s : State), f.mod % 2 = 0 → Gives (exec (.smovi f) s) (ScalarResult f.d (BitVec.ofNat 32 f.imm) s)) ∧
   (∀ (f : RL) (s : State), f.mod % 2 = 1 → Gives (exec (.smovi f) s)
     (ScalarPairResult f.d ((BitVec.ofNat 32 f.imm).signExtend 64) s)) ∧
   (∀ (f : V3) (s : State), f.t ≠ 1 → Gives (exec (.vmovs f) s) (ScalarResult f.d
     (let j := (s.w.sreg f.b).toNat % 64
      if j < s.w.width ∧ s.w.exited.getLsbD j = false then s.w.vreg j f.a else 0) s)) ∧
   (∀ (f : V3) (s : State) (j : Nat), f.t = 1 → Active s j → (∀ k, k < j → ¬Active s k) →
     Gives (exec (.vmovs f) s) (ScalarResult f.d (s.w.vreg j f.a) s))) ∧
  ((∀ (f : V3) (s : State), f.d < 128 → f.t = 1 → Gives (exec (.smovv f) s)
     (VectorResult f.d (fun _ => s.w.sreg f.a) s)) ∧
   (∀ (f : V3) (s : State), f.d < 128 → f.t ≠ 1 → Gives (exec (.smovv f) s) fun t => OnlyVector s t ∧
     ∀ l r, r < 128 → t.w.vreg l r =
       if Active s l ∧ l = (s.w.sreg f.b).toNat % 64 ∧ r = f.d then s.w.sreg f.a else s.w.vreg l r))

/-- R75, R76, R132: SREG writes the special register its number names into D of every ACTIVE lane; a read of CLOCKLO
latches CLOCKHI. R60, R76, R132: SRSET writes FPMODE (an RND outside 1 to 5 raises RSVD_FIELD, reserved bits are
discarded) or WAITBUDGET; every other special register is read-only and raises PRIV. Nothing else changes. R93: the
coordinates of a group of a grid, and R401 of a pool, whose launch dimensions, VERSION, RESTARTS and GROUPCOUNT are
those of its launch and cohort. The model's readings: SRSET has no destination of R77, so TRAPDST is 0 (log entry 30);
with ACTIVE empty SRSET and the latch of CLOCKHI do nothing (log entry 75). -/
def Obligations.SpecialRegisters : Prop :=
  ((∀ (f : RI) (s : State), f.d < 128 → f.imm ≠ 0x00F → Gives (exec (.sreg f) s)
     (VectorResult f.d (fun l => specialReg s f.imm l) s)) ∧
   (∀ (f : RI) (s : State), f.d < 128 → f.imm = 0x00F → s.w.active ≠ 0 → Gives (exec (.sreg f) s) fun t =>
     t = { s with w := { s.w with v := t.w.v, changed := t.w.changed, clockHi := t.w.clockHi } } ∧
     VectorIs f.d (fun _ => BitVec.ofNat 32 s.now) s t ∧ t.w.clockHi = BitVec.ofNat 32 (s.now / 2 ^ 32)) ∧
   (∀ (s : State) (l : Nat),
     specialReg s 0x000 l = BitVec.ofNat 32 l ∧ specialReg s 0x001 l = BitVec.ofNat 32 s.w.index ∧
     specialReg s 0x002 l = BitVec.ofNat 32 s.w.width ∧ specialReg s 0x003 l = BitVec.ofNat 32 s.w.rank ∧
     specialReg s 0x00A l = BitVec.ofNat 32 s.w.core ∧ specialReg s 0x00B l = BitVec.ofNat 32 (s.w.core / 4) ∧
     specialReg s 0x00C l = BitVec.ofNat 32 (s.w.core / 32) ∧ specialReg s 0x010 l = s.w.clockHi ∧
     specialReg s 0x011 l = s.w.fpmode ∧ specialReg s 0x012 l = s.w.trapCause ∧
     specialReg s 0x014 l ++ specialReg s 0x013 l = s.w.trapMask ∧
     specialReg s 0x016 l ++ specialReg s 0x015 l = s.w.trapPc ∧ specialReg s 0x017 l = s.w.trapIns ∧
     specialReg s 0x018 l = s.w.trapDst ∧ specialReg s 0x01A l ++ specialReg s 0x019 l = s.w.trapAddr ∧
     specialReg s 0x01B l = s.w.waitBudget ∧ specialReg s 0x00D l = BitVec.ofNat 32 (s.w.version % 16)) ∧
   (∀ (s : State) (l : Nat) (c : Cohort) (g : Launch), s.myCohort = some c → s.myLaunch = some g →
     specialReg s 0x007 l = BitVec.ofNat 32 g.gridX ∧ specialReg s 0x008 l = BitVec.ofNat 32 g.gridY ∧
     specialReg s 0x009 l = BitVec.ofNat 32 g.gridZ ∧ specialReg s 0x00E l = c.restarts ∧
     specialReg s 0x01C l = BitVec.ofNat 32 g.count ∧
     (c.formed = none → specialReg s 0x004 l = BitVec.ofNat 32 (c.group % g.gridX) ∧
       specialReg s 0x005 l = BitVec.ofNat 32 (c.group / g.gridX % g.gridY) ∧
       specialReg s 0x006 l = BitVec.ofNat 32 (c.group / (g.gridX * g.gridY))) ∧
     (∀ b, c.formed = some b → specialReg s 0x004 l = BitVec.ofNat 32 b.number ∧ specialReg s 0x005 l = 0 ∧
       specialReg s 0x006 l = 0)) ∧
   (∀ (f : RI) (s : State), s.w.active = 0 → exec (.sreg f) s = .next s ∧ exec (.srset f) s = .next s)) ∧
  (∀ (f : RI) (s : State), s.w.active ≠ 0 → f.imm < 0x01D →
     let v := s.w.sreg f.a
     (f.imm = 0x011 → 1 ≤ v.toNat % 8 → v.toNat % 8 ≤ 5 →
       exec (.srset f) s = .next { s with w := { s.w with fpmode := v &&& 0x01FF03FF#32 } }) ∧
     (f.imm = 0x011 → (v.toNat % 8 = 0 ∨ 5 < v.toNat % 8) →
       exec (.srset f) s = .next (raise .rsvdField s.w.active 0 0 s)) ∧
     (f.imm = 0x01B → exec (.srset f) s = .next { s with w := { s.w with waitBudget := v } }) ∧
     (f.imm ≠ 0x011 → f.imm ≠ 0x01B → exec (.srset f) s = .next (raise .priv s.w.active 0 0 s)))

/-! ## Cross-lane instructions (R90, R135-R139) -/

/-- R136: SHFL delivers to each ACTIVE lane the value of its source lane: its own when the source lies outside the
wave, 0 when the source lane does not take part; the validity predicate says which. R137: VOTE over the participating
lanes, and ELECT. R90, R135: a cross-lane instruction whose member mask leaves out an ACTIVE lane raises MASK_SELF for
exactly those lanes, and has no effect for any lane; TRAPDST is its destination (R77), for SHFL its vector register (log
entry 30). -/
def Obligations.CrossLane : Prop :=
  (∀ (f : V3) (s : State), f.d < 128 → f.x.c < 128 → f.t < 4 → NoSelfOmission f s →
     let src := fun (l : Nat) => (let k := (s.w.srcB f l).toNat
       if f.t = 0 then (k : Int) else if f.t = 1 then (l : Int) - k
       else if f.t = 2 then (l : Int) + k else ((l ^^^ k : Nat) : Int) : Int)
     let inside := fun l => 0 ≤ src l ∧ src l < s.w.width
     Gives (exec (.shfl f) s) fun t => OnlyVectorPredicate s t ∧
       (∀ l r, r < 128 → ¬(Active s l ∧ r = f.d) → t.w.vreg l r = s.w.vreg l r) ∧
       (∀ l, Active s l →
         (¬inside l → t.w.vreg l f.d = s.w.vreg l f.a) ∧
         (inside l → Participates f s (src l).toNat → t.w.vreg l f.d = s.w.vreg (src l).toNat f.a) ∧
         (inside l → ¬Participates f s (src l).toNat → t.w.vreg l f.d = 0)) ∧
       (∀ q l, (f.xw = none ∨ q ≠ f.x.c / 16 ∨ q = 7 ∨ ¬Active s l) → t.w.pred q l = s.w.pred q l) ∧
       (f.xw ≠ none → f.x.c / 16 ≠ 7 → ∀ l, Active s l →
         (t.w.pred (f.x.c / 16) l = true ↔ inside l ∧ Participates f s (src l).toNat))) ∧
  (let yes := fun (f : V3) (s : State) (l : Nat) => s.w.pred (f.a % 8) l = !f.x.nega
   (∀ (f : V3) (s : State), f.t = 0 → NoSelfOmission f s → Gives (exec (.vote f) s) fun t =>
     OnlyPredicate s t ∧ ∃ b : Bool, PredicateIs (f.d % 8) (fun _ => b) s t ∧
       (b = true ↔ ∀ l, Participates f s l → yes f s l)) ∧
   (∀ (f : V3) (s : State), f.t = 1 → NoSelfOmission f s → Gives (exec (.vote f) s) fun t =>
     OnlyPredicate s t ∧ ∃ b : Bool, PredicateIs (f.d % 8) (fun _ => b) s t ∧
       (b = true ↔ ∃ l, Participates f s l ∧ yes f s l)) ∧
   (∀ (f : V3) (s : State), f.t = 2 → f.d + 1 < 128 → NoSelfOmission f s → Gives (exec (.vote f) s) fun t =>
     OnlyVector s t ∧ ∃ m : Lanes, PairIs f.d (fun _ => m) s t ∧
       ∀ l, m.getLsbD l = true ↔ Participates f s l ∧ yes f s l) ∧
   (∀ (f : V3) (s : State), f.t = 3 → NoSelfOmission f s → Gives (exec (.vote f) s) fun t =>
     OnlyPredicate s t ∧ ∃ b : Bool, PredicateIs (f.d % 8) (fun _ => b) s t ∧
       (b = true ↔ ∀ k l, Participates f s k → Participates f s l → (yes f s k ↔ yes f s l))) ∧
   (∀ (f : V3) (s : State), NoSelfOmission f s → Gives (exec (.elect f) s) fun t =>
     OnlyPredicate s t ∧ ∃ b : Nat → Bool, PredicateIs (f.d % 8) b s t ∧
       ∀ l, Active s l → (b l = true ↔ ∀ k, Active s k → l ≤ k))) ∧
  (∀ (f : V3) (s : State), (∃ l, Active s l ∧ ¬Member f s l) → ∃ mask : Lanes,
     (∀ l, mask.getLsbD l = true ↔ Active s l ∧ ¬Member f s l) ∧
     let vector := dstOf 1 f.d
     let predicate := dstOf 3 (f.d % 8)
     exec (.shfl f) s = .next (raise .maskSelf mask vector 0 s) ∧
     exec (.vote f) s = .next (raise .maskSelf mask (if f.t = 2 then vector else predicate) 0 s) ∧
     exec (.redux f) s = .next (raise .maskSelf mask (if f.t = 1 then dstOf 2 f.d else vector) 0 s) ∧
     exec (.scanx f) s = .next (raise .maskSelf mask vector 0 s) ∧
     exec (.matchx f) s = .next (raise .maskSelf mask vector 0 s) ∧
     exec (.elect f) s = .next (raise .maskSelf mask predicate 0 s))

/-- R138, R139: REDUX and SCANX with an integer operation combine the participating lanes in ascending order, from the
identity; SCANX takes the lanes up to (or below) its own. MATCH gives the participating lanes with an equal value.
R138: the floating-point reductions complete under R66: the tree's value or the scan's in D, the flags of every
step raised, and nothing else; with an enabled exception raised by any step they then trap, naming every ACTIVE lane.
Each step is the F32 sum, minimum or maximum of R113 and R114, delivered under RND and FTZ. The table of operations and
identities, the tree of REDUX and the order of SCANX are stated, with the reading of log entry 65 on a single value. -/
def Obligations.ReductionsAndMatch : Prop :=
  (let folded := fun (f : V3) (s : State) (ls : List Nat) =>
     ls.foldl (fun acc l => redInt f.b acc (s.w.vreg l f.a)) (redIdentity f.b)
   (∀ (f : V3) (s : State) (part : Lanes), f.b < 8 → (∀ l, part.getLsbD l = true ↔ Participates f s l) →
     NoSelfOmission f s →
     (f.t ≠ 1 → f.d < 128 → Gives (exec (.redux f) s) (VectorResult f.d (fun _ => folded f s (lanesOf part)) s)) ∧
     (f.t = 1 → Gives (exec (.redux f) s) (ScalarResult f.d (folded f s (lanesOf part)) s)) ∧
     (f.t ≠ 1 → f.d < 128 → Gives (exec (.scanx f) s)
       (VectorResult f.d (fun l => folded f s ((lanesOf part).filter (· ≤ l))) s)) ∧
     (f.t = 1 → f.d < 128 → Gives (exec (.scanx f) s)
       (VectorResult f.d (fun l => folded f s ((lanesOf part).filter (· < l))) s))) ∧
   (∀ (f : V3) (s : State), f.d + 1 < 128 → NoSelfOmission f s → Gives (exec (.matchx f) s) fun t =>
     OnlyVector s t ∧ ∃ m : Nat → Lanes, PairIs f.d m s t ∧ ∀ l k, (m l).getLsbD k = true ↔ Participates f s k ∧
       (if f.t = 1 then s.w.pairA f l = s.w.pairA f k else s.w.srcA f l = s.w.srcA f k))) ∧
  (∀ (f : V3) (s : State), f.d < 128 → NoSelfOmission f s →
     let r := fun (_ : Nat) => reduxValue s.w f
     (f.t ≠ 1 → FpCompletes (.redux f) (fun l => (r l).2) (128 + f.d) (FpResult f.d r) s) ∧
     (f.t = 1 → FpCompletes (.redux f) (fun l => (r l).2) (256 + f.d)
       (fun s t => OnlyScalarFp s t ∧ ScalarIs f.d (r 0).1 s t ∧ FlagsRaised (fun l => (r l).2) s t) s) ∧
     ∃ e : Exc, (∀ k, e.getLsbD k = true ↔ ∃ l, Active s l ∧ (scanValue s.w f l).2.getLsbD k = true) ∧
       FpCompletes (.scanx f) (fun _ => e) (128 + f.d)
         (fun s t => OnlyVectorFp s t ∧ VectorIs f.d (fun l => (scanValue s.w f l).1) s t ∧ FlagsRaised (fun _ => e) s t)
         s) ∧
  (CombinesRight ∧ TreeRight)

/-! ## Control transfers (R142-R146) -/

/-- R143, R144: when the target of every transferring ACTIVE lane is NEXT or is aligned and below 2^52, each goes to
its target, a call writes NEXT to its return pair, and lanes that do not transfer keep their PC (NEXT since the
header, R33). Nothing changes but PCs, the return pair and the spin detector's fields. R144: a transfer with a target
that is neither NEXT nor aligned below 2^52 traps: the lowest such lane gives the cause (MEM_XLATE for bits [63:52],
else MEM_ALIGN) and TRAPADDR, the lanes with that cause are named, and no PC and no return pair changes before the
trap; TRAPDST is the return pair of a call (log entry 30). R86, R87: a taken branch back to its header or before it
counts at its LOOPPC when nothing was changed or stored since the last; the fourth such branch in a row demotes the
lane; CHANGED or STORED restores it, and both are cleared; the counter restarts otherwise. A lane that does not take
the branch at its LOOPPC is restored. -/
def Obligations.Transfers : Prop :=
  (∀ (s : State) (c : Clause), s.w.clause = some c →
     let next := c.hdr + BitVec.ofNat 64 (4 * (c.words.length + 1))
     let spin := fun (t : State) => t = { s with w := { s.w with
       pc := t.w.pc, fast := t.w.fast, loopPc := t.w.loopPc, changed := t.w.changed, stored := t.w.stored
       spin := t.w.spin, demoted := t.w.demoted } }
     let plain := fun (t : State) => t = { s with w := { s.w with
       pc := t.w.pc, fast := t.w.fast, v := t.w.v, changed := t.w.changed } }
     let goes := fun (taken : Nat → Prop) (tgt : Nat → DWord) (t : State) => ∀ l,
       (Active s l → taken l → t.w.pcOf l = tgt l) ∧ (¬(Active s l ∧ taken l) → t.w.pcOf l = s.w.pcOf l)
     (∀ f : BF, let taken := fun l => s.w.pred f.p l = !decide (f.pn = 1)
       let tgt := c.hdr + (BitVec.ofNat 20 f.off).signExtend 64 * 4
       ((∀ l, Active s l → taken l → GoodTarget next tgt) →
         Gives (exec (.bra f) s) fun t => spin t ∧ goes taken (fun _ => tgt) t)) ∧
     (∀ f : V3, (∀ l, Active s l → GoodTarget next (s.w.pairA f l)) →
       Gives (exec (.brx f) s) (fun t => spin t ∧ goes (fun _ => True) (s.w.pairA f) t) ∧
       Gives (exec (.ret f) s) (fun t => plain t ∧ goes (fun _ => True) (s.w.pairA f) t ∧ t.w.v = s.w.v) ∧
       (f.d + 1 < 128 → Gives (exec (.callx f) s) fun t => plain t ∧ goes (fun _ => True) (s.w.pairA f) t ∧
         PairIs f.d (fun _ => next) s t)) ∧
     (∀ f : RL, let tgt := c.hdr + (BitVec.ofNat 32 f.imm).signExtend 64
       f.d + 1 < 128 → ((∀ l, Active s l → GoodTarget next tgt) →
         Gives (exec (.call f) s) fun t => plain t ∧ goes (fun _ => True) (fun _ => tgt) t ∧
           PairIs f.d (fun _ => next) s t))) ∧
  (∀ (s : State) (c : Clause) (f : V3) (l : Nat), s.w.clause = some c →
     let next := c.hdr + BitVec.ofNat 64 (4 * (c.words.length + 1))
     let cause := fun (t : DWord) => if t.toNat / 2 ^ 52 ≠ 0 then Cause.memXlate else .memAlign
     let bad := fun k => Active s k ∧ ¬GoodTarget next (s.w.pairA f k)
     bad l → (∀ k, k < l → ¬bad k) → ∃ mask : Lanes,
       (∀ k, mask.getLsbD k = true ↔ bad k ∧ cause (s.w.pairA f k) = cause (s.w.pairA f l)) ∧
       exec (.brx f) s = .next (raise (cause (s.w.pairA f l)) mask 0 (s.w.pairA f l) s) ∧
       exec (.callx f) s = .next (raise (cause (s.w.pairA f l)) mask (dstOf 1 f.d) (s.w.pairA f l) s) ∧
       exec (.ret f) s = .next (raise (cause (s.w.pairA f l)) mask 0 (s.w.pairA f l) s)) ∧
  (∀ (s : State) (c : Clause), s.w.clause = some c →
     let next := c.hdr + BitVec.ofNat 64 (4 * (c.words.length + 1))
     let cause := fun (t : DWord) => if t.toNat / 2 ^ 52 ≠ 0 then Cause.memXlate else .memAlign
     (∀ (f : RL), let tgt := c.hdr + (BitVec.ofNat 32 f.imm).signExtend 64
       s.w.active ≠ 0 → ¬GoodTarget next tgt →
         exec (.call f) s = .next (raise (cause tgt) s.w.active (dstOf 1 f.d) tgt s)) ∧
     (∀ (f : BF), let taken := fun l => s.w.pred f.p l = !decide (f.pn = 1)
       let tgt := c.hdr + (BitVec.ofNat 20 f.off).signExtend 64 * 4
       ((∃ l, Active s l ∧ taken l) → ¬GoodTarget next tgt → ∃ mask : Lanes,
         (∀ k, mask.getLsbD k = true ↔ Active s k ∧ taken k) ∧
         exec (.bra f) s = .next (raise (cause tgt) mask 0 tgt s)) ∧
       (GoodTarget next tgt → Gives (exec (.bra f) s) fun t => ∀ l, Active s l →
         (taken l → tgt.toNat ≤ c.hdr.toNat → let u := s.w.backBranch s.w.wordPc l
           SMap.get 0 t.w.loopPc l = SMap.get 0 u.loopPc l ∧ SMap.get 0 t.w.spin l = SMap.get 0 u.spin l ∧
           t.w.changed.getLsbD l = u.changed.getLsbD l ∧ t.w.stored.getLsbD l = u.stored.getLsbD l ∧
           t.w.demoted.getLsbD l = u.demoted.getLsbD l) ∧
         (¬taken l → SMap.get 0 s.w.loopPc l = s.w.wordPc.toNat + 1 → t.w.demoted.getLsbD l = false)))) ∧
  (∀ (w : Wave) (b : DWord) (l : Nat), l < 64 →
     let t := w.backBranch b l
     let moved := w.changed.getLsbD l = true ∨ w.stored.getLsbD l = true
     let same := SMap.get 0 w.loopPc l = b.toNat + 1 ∧ ¬moved
     SMap.get 0 t.loopPc l = b.toNat + 1 ∧ t.changed.getLsbD l = false ∧ t.stored.getLsbD l = false ∧
     (¬same → SMap.get 0 t.spin l = 0) ∧ (moved → t.demoted.getLsbD l = false) ∧
     (same → SMap.get 0 w.spin l ≠ 3 → SMap.get 0 t.spin l = SMap.get 0 w.spin l + 1) ∧
     (same → SMap.get 0 w.spin l = 3 → SMap.get 0 t.spin l = 0 ∧ t.demoted.getLsbD l = true) ∧
     (¬(same ∧ SMap.get 0 w.spin l = 3) → ¬moved → t.demoted = w.demoted) ∧
     ∀ k, k ≠ l → t.demoted.getLsbD k = w.demoted.getLsbD k ∧ t.changed.getLsbD k = w.changed.getLsbD k ∧
       t.stored.getLsbD k = w.stored.getLsbD k ∧ SMap.get 0 t.loopPc k = SMap.get 0 w.loopPc k ∧
       SMap.get 0 t.spin k = SMap.get 0 w.spin k)

/-- R83, R89, R146, R155: EXIT by ACTIVE lanes that leaves another lane alive, outside handler mode: exactly the lanes
its predicate selects exit, their bits leave every mask register, the AUTO barriers of the cohort expect that many
fewer, a phase that is thereby full completes, and no register, PC, other cohort or other wave changes. With no lane
selected it does nothing. R146: when the last lanes exit, the wave ends: its record goes, or stays while operations of
it are outstanding; its cohort has one wave fewer, and, with none left and no stream busy, is gone. R32, R99: an EXIT in
handler mode: while another handler lane has not left, the handler goes on; otherwise handler mode ends and the lanes
that executed TRET stand at the resume point, or exit too when it is the end that a header trap left them. -/
def Obligations.ExitOfLanes : Prop :=
  (∀ (f : BF) (s : State),
    let goes := fun l => Active s l ∧ l < s.w.width ∧ s.w.exited.getLsbD l = false ∧ s.w.pred f.p l = !decide (f.pn = 1)
    let out := fun l => s.w.exited.getLsbD l = true ∨ goes l
    ((∀ l, Active s l → s.w.pred f.p l ≠ !decide (f.pn = 1)) → exec (.exit f) s = .next s) ∧
    (∀ c, s.w.handler = false → s.w.parks = [] → s.w.late = [] → s.w.on = true → s.w.ended = false → (∃ l, goes l) →
      (∀ l, l < 64 → l < s.w.width → out l) → s.cohort s.w.cohort = some c → Gives (exec (.exit f) s) fun t =>
        (s.w.ops = [] → t.w.on = false) ∧
        (s.w.ops ≠ [] → t.w.on = true ∧ t.w.ended = true ∧ t.w.id = s.w.id ∧ t.w.ops = s.w.ops ∧ t.w.clause = none) ∧
        t.waves = s.waves ∧
        (1 < c.waves → ∃ d, t.cohort s.w.cohort = some d ∧ d.waves = c.waves - 1 ∧ d.launch = c.launch) ∧
        (c.waves = 1 → s.st.on = false → s.streams = [] → s.engine = [] → t.cohort s.w.cohort = none) ∧
        ∀ id, id ≠ s.w.cohort → t.cohort id = s.cohort id) ∧
    (s.w.handler = true → s.w.parks = [] → (∃ l, goes l) →
      let left := fun l => l < 64 ∧ s.w.handlerLanes.getLsbD l = true ∧ s.w.tret.getLsbD l = false ∧ ¬out l
      let back := fun l => s.w.tret.getLsbD l = true ∧ ¬out l
      ((∃ l, left l ∧ l < s.w.width) → Gives (exec (.exit f) s) fun t => t.w.handler = true ∧ t.w.clause = s.w.clause ∧
        t.w.pc = s.w.pc ∧ t.w.resume = s.w.resume ∧ ∀ l, t.w.exited.getLsbD l = true ↔ out l) ∧
      (∀ pc, (∀ l, ¬left l) → s.w.resume = .next pc → s.w.parkHeld = [] → (∃ l, l < s.w.width ∧ back l) →
        Gives (exec (.exit f) s) fun t => t.w.handler = false ∧ t.w.clause = none ∧
          (∀ l, t.w.exited.getLsbD l = true ↔ out l) ∧
          ∀ l, (back l → t.w.pcOf l = pc) ∧ (¬back l → t.w.pcOf l = s.w.pcOf l)) ∧
      ((∀ l, ¬left l) → s.w.resume = .ends → (∀ l, back l → l < s.w.width) →
        (∃ l, l < 64 ∧ l < s.w.width ∧ ¬out l ∧ ¬back l) → Gives (exec (.exit f) s) fun t => t.w.handler = false ∧
          ∀ l, t.w.exited.getLsbD l = true ↔ out l ∨ back l))) ∧
  (∀ (f : BF) (s : State), s.w.handler = false → s.w.parks = [] →
    let goes := fun l => Active s l ∧ l < s.w.width ∧ s.w.exited.getLsbD l = false ∧ s.w.pred f.p l = !decide (f.pn = 1)
    (∃ l, goes l) → (∃ l, l < 64 ∧ l < s.w.width ∧ s.w.exited.getLsbD l = false ∧ ¬goes l) →
    Gives (exec (.exit f) s) fun t =>
      t = { s with
        w := { s.w with exited := t.w.exited, parked := t.w.parked, waitOn := t.w.waitOn, parkAtEnd := t.w.parkAtEnd
                        demoted := t.w.demoted, fast := t.w.fast, m := t.w.m, changed := t.w.changed }
        cohorts := t.cohorts } ∧
      (∀ id, id ≠ s.w.cohort → t.cohort id = s.cohort id) ∧
      (∀ l, t.w.exited.getLsbD l = true ↔ s.w.exited.getLsbD l = true ∨ goes l) ∧
      (∀ m l, m < 12 → (t.w.mreg m).getLsbD l = ((s.w.mreg m).getLsbD l && !decide (goes l))) ∧
      (∀ l, goes l → t.w.parked.getLsbD l = false ∧ t.w.demoted.getLsbD l = false) ∧
      (∀ c, s.cohort s.w.cohort = some c → ∀ (b : Nat) (x : Barrier), c.bars[b]? = some x → ∃ (d : Cohort) (y : Barrier), t.cohort s.w.cohort = some d ∧
        d.bars[b]? = some y ∧ y.count = x.count ∧ (x.count = true → y = x) ∧
        (x.count = false → ∃ ls : List Nat, ls.Nodup ∧ (∀ l, l ∈ ls ↔ goes l) ∧ y.expected = x.expected - ls.length ∧
          (y.arrived, y.gen) = if x.arrived ≠ 0 ∧ x.expected - ls.length ≤ x.arrived then (0, x.gen + 1)
            else (x.arrived, x.gen))))

/-! ## Mask registers (R89-R92, R147-R151) -/

/-- R89, R147, R148, R150: JOIN, LEAVE and MSET write one mask register, once per issue and not when ACTIVE is empty;
bits at or above WIDTH are discarded. The write evaluates the register (R91), which may release parked lanes; nothing
else changes. R91: after a mask register has been written, every lane that was parked on it is released exactly when
every lane it names that has not exited was parked on it; lanes parked on another register stay parked. R90, R149:
WAITM raises MASK_SELF for the ACTIVE lanes its mask leaves out; otherwise the ACTIVE lanes are noted to park at the
end of the clause, and nothing else changes; WAITM has no destination of R77, so TRAPDST is 0 (log entry 30). R151: MTEST writes its condition to a predicate, or the mask to a scalar
pair. -/
def Obligations.MaskInstructions : Prop :=
  (let writes := fun (i : Instr) (md : Nat) (value : Lanes) (s : State) => Gives (exec i s) fun t =>
     t = { s with w := { s.w with
       m := t.w.m, changed := t.w.changed, parked := t.w.parked, waitOn := t.w.waitOn, fast := t.w.fast } } ∧
     (∀ r l, (t.w.mreg r).getLsbD l =
       if r = md ∧ s.w.active ≠ 0 then value.getLsbD l && decide (l < s.w.width) else (s.w.mreg r).getLsbD l) ∧
     (s.w.active = 0 → t = s)
   ∀ (f : KF) (s : State),
     writes (.join f) f.md (s.w.mreg f.md ||| s.w.active) s ∧
     writes (.leave f) f.md (s.w.mreg f.md &&& ~~~s.w.active) s ∧
     writes (.mset f) f.md
       (if f.imm = 0 then s.w.mreg f.ma else if f.imm = 1 then s.w.mreg f.ma &&& s.w.mreg f.mb
        else if f.imm = 2 then s.w.mreg f.ma ||| s.w.mreg f.mb else if f.imm = 3 then s.w.mreg f.ma &&& ~~~s.w.mreg f.mb
        else if f.imm = 4 then s.w.mreg f.ma ^^^ s.w.mreg f.mb else if f.imm = 5 then 0
        else if f.imm = 6 then s.w.all &&& ~~~s.w.exited else if f.imm = 7 then s.w.active
        else s.w.sreg (f.s + 1) ++ s.w.sreg f.s) s) ∧
  (∀ (m : Nat) (x : Lanes) (w : Wave), let t := w.setM m x
     let on := fun (l : Nat) => l < 64 ∧ SMap.get 0 w.waitOn l = m + 1
     let met := ∀ l, l < w.width → (t.mreg m).getLsbD l = true → w.exited.getLsbD l = false → on l
     (met → ∀ l, t.parked.getLsbD l = true ↔ w.parked.getLsbD l = true ∧ ¬on l) ∧
     (¬met → t.parked = w.parked ∧ t.waitOn = w.waitOn)) ∧
  ((∀ (f : KF) (s : State), (∀ l, Active s l → (s.w.mreg f.md).getLsbD l = true) → Gives (exec (.waitm f) s) fun t =>
     t = { s with w := { s.w with parkAtEnd := t.w.parkAtEnd } } ∧
     ∀ l, SMap.get 0 t.w.parkAtEnd l = if Active s l then f.md + 1 else SMap.get 0 s.w.parkAtEnd l) ∧
   (∀ (f : KF) (s : State), (∃ l, Active s l ∧ (s.w.mreg f.md).getLsbD l = false) → ∃ mask : Lanes,
     (∀ l, mask.getLsbD l = true ↔ Active s l ∧ (s.w.mreg f.md).getLsbD l = false) ∧
     exec (.waitm f) s = .next (raise .maskSelf mask 0 0 s)) ∧
   (∀ (f : KF) (s : State), f.imm < 5 → Gives (exec (.mtest f) s) fun t => OnlyPredicate s t ∧
     ∃ b : Nat → Bool, PredicateIs (f.md % 8) b s t ∧ ∀ l, Active s l → (b l = true ↔
       if f.imm = 0 then (s.w.mreg f.ma).getLsbD l = true else if f.imm = 1 then s.w.mreg f.ma = 0
       else if f.imm = 2 then s.w.mreg f.ma = s.w.mreg f.mb
       else if f.imm = 3 then s.w.mreg f.ma &&& ~~~s.w.mreg f.mb = 0 else s.w.mreg f.ma &&& s.w.mreg f.mb ≠ 0)) ∧
   (∀ (f : KF) (s : State), f.imm = 5 → Gives (exec (.mtest f) s) (ScalarPairResult f.s (s.w.mreg f.ma) s)))

/-! ## Waits (R37, R152-R154) -/

/-- R37, R152-R154: NOP does nothing; WAIT goes on when its fields are met and otherwise holds the wave to try again;
SLEEP and YIELD hold the wave, YIELD demoting the ACTIVE lanes; with ACTIVE empty SLEEP and YIELD have no effect.
The end of a sleep or a yield, once due, frees the wave: a YIELD ends when the other waves of its partition that were
ready (R79) have each issued, or when 64 clocks of its cluster have passed, counted here in thousandths as time passes
at the frequency in force (R13). When SLEEP or YIELD is the last word of its clause, its end is that of the clause. -/
def Obligations.WaitingInstructions : Prop :=
  (∀ s : State, exec .nop s = .next s) ∧
  (∀ (f : WF) (s : State),
    let met := fun (ctr k : Nat) => k = 7 ∨ (s.w.ops.filter fun o => o.ctr == ctr).length ≤ k
    (met 0 f.wld ∧ met 1 f.wst ∧ met 2 f.wcp ∧ met 3 f.wtx → exec (.wait f) s = .next s) ∧
    (¬(met 0 f.wld ∧ met 1 f.wst ∧ met 2 f.wcp ∧ met 3 f.wtx) →
      exec (.wait f) s = .next { s with w := { s.w with hold := .again (.wait f) } })) ∧
  (∀ (f : RI) (s : State), s.w.active ≠ 0 →
    exec (.sleep f) s = .next { s with w := { s.w with hold := .sleep (s.now + 32 * (f.imm + 1)) } }) ∧
  (∀ (f : RI) (s : State), s.w.active = 0 → exec (.sleep f) s = .next s ∧ exec .yield s = .next s) ∧
  (∀ s : State, s.w.active ≠ 0 → Gives (exec .yield s) fun t => ∃ ws, t = { s with w := { s.w with
    demoted := s.w.demoted ||| s.w.active, fast := false, hold := .yield ws 64000 } } ∧
    ∀ id, id ∈ ws ↔ ∃ w ∈ s.waves, w.core = s.w.core ∧ w.part = s.w.part ∧ waveReady s w = true ∧ w.id = id) ∧
  (∀ (w : Wave) (ws : List Nat) (left ns mhz : Nat), w.hold = .yield ws left →
    w.passYield ns mhz = { w with hold := .yield ws (left - ns * mhz) }) ∧
  (∀ (s : State) (u : Nat) (c : Clause), s.w.hold = .sleep u → s.w.clause = some c → c.idx < c.words.length →
    (u ≤ s.now → exec .evSleepEnd s = .next { s with w := { s.w with hold := .none } }) ∧
    (s.now < u → exec .evSleepEnd s = .next s)) ∧
  (∀ (s : State) (ws : List Nat) (u : Nat) (c : Clause), s.w.hold = .yield ws u → s.w.clause = some c →
    c.idx < c.words.length →
    ((ws = [] ∨ u = 0) → exec .evYieldEnd s = .next { s with w := { s.w with hold := .none } }) ∧
    (ws ≠ [] → u ≠ 0 → exec .evYieldEnd s = .next s)) ∧
  (∀ (s : State) (c : Clause), s.w.clause = some c → c.words.length ≤ c.idx →
    let ended := fun (o : Host.Outcome State Fault Refusal) => Gives o fun t =>
      t.w.hold = .none ∧ t.w.clause = none ∧ t.w.pc = s.w.pc ∧ t.w.parkAtEnd = [] ∧
      (s.w.parkAtEnd = [] → t = { s with w := { s.w with hold := .none, clause := none } })
    (∀ u, s.w.hold = .sleep u → (u ≤ s.now → ended (exec .evSleepEnd s)) ∧
      (s.now < u → exec .evSleepEnd s = .next s)) ∧
    (∀ ws u, s.w.hold = .yield ws u → ((ws = [] ∨ u = 0) → ended (exec .evYieldEnd s)) ∧
      (ws ≠ [] → u ≠ 0 → exec .evYieldEnd s = .next s)))

/-! ## Traps (R96-R99, R165-R168) -/

/-- R97: a trap that is taken by a handler: the seven trap registers are written, the handler lanes are the ACTIVE
lanes, each stands at the handler's first header, the resume point is recorded (the rest of the clause, or the
next header when none is left), and the wave enters handler mode. Every register, predicate, mask, counter, FPMODE
and field of the spin detector is unchanged, and so is everything outside the wave. DST is what the raiser names,
0 where the spec names none (log entry 30). -/
def Obligations.TrapEntry : Prop :=
  ∀ (cause : Cause) (mask : Lanes) (dst : Nat) (addr : DWord) (s : State) (l : Launch) (c : Clause),
    ∀ h, s.w.handler = false → s.myLaunch = some l → l.kernel.traph = some h → s.w.clause = some c →
    let t := raise cause mask dst addr s
    t = { s with w := { s.w with
      trapCause := BitVec.ofNat 32 cause.code, trapMask := mask
      trapPc := c.hdr + BitVec.ofNat 64 (4 * (c.at_ + 1)), trapIns := BitVec.ofNat 32 (c.words.getD c.at_ 0)
      trapDst := BitVec.ofNat 32 dst, trapAddr := addr, handler := true, handlerLanes := c.active, tret := 0
      entered := cause.code, resumePc := t.w.resumePc, parkHeld := s.w.parkAtEnd, parkAtEnd := [], clause := none
      fast := false, hold := .none, refused := none, pack := 0, owed := 0, pc := t.w.pc
      resume := if c.idx < c.words.length then .clause c
        else .next (c.hdr + BitVec.ofNat 64 (4 * (c.words.length + 1))) } } ∧
    ∀ k, t.w.pcOf k = if Active s k then h else s.w.pcOf k

/-- R98, R104: a trap raised in handler mode, or in a wave whose kernel has no handler, discards the cohort: no record
of it remains, and of a wave only the writes to global memory that it has issued and that are still to complete (R26);
memory keeps its canonical form. R32, R97: a header trap that is taken by
a handler names the header's address and word, and the lanes at the issuing PC enter the handler; their resume
point is their end. R204: a wave that holds late traps takes the first at a clause boundary outside handler mode:
its live named lanes are the handler lanes, which TRAPMASK names (R167), unparked, their park slots withdrawn, and each
records its own PC as its resume point; TRAPADDR is the address of the lowest of them. TRAPDST is 0 for a header trap (log entry 30); the turns are the model's (log entry 1). -/
def Obligations.OtherTraps : Prop :=
  (∀ (cause : Cause) (mask : Lanes) (dst : Nat) (addr : DWord) (s : State) (l : Launch) (c : Cohort),
     (s.w.handler = true ∨ l.kernel.traph = none) → s.myLaunch = some l → s.myCohort = some c →
     let t := raise cause mask dst addr s
     t = discardCohort s.w.cohort cause.code (if s.w.handler then s.w.entered else 0) s.w.wordPc.toNat (some s.w) s ∧
     (∀ w, w ∈ allWaves t → w.cohort = s.w.cohort → w.husk = true ∧ w.ended = true ∧ w.ops ≠ [] ∧
       ∃ x, x ∈ allWaves s ∧ x.id = w.id ∧ w.ops = (x.ops.filter Op.outlives).map fun o => { o with res := [] }) ∧
     (∀ d, d ∈ t.cohorts → d.id ≠ s.w.cohort) ∧ (MemOk s → MemOk t)) ∧
  (∀ (cause : Cause) (lanes : Lanes) (pc at_ : DWord) (h addr : Nat) (s : State) (l : Launch),
     s.w.handler = false → s.myLaunch = some l → l.kernel.traph = some at_ →
     let t := headerTrap cause lanes pc h addr s
     t = { s with w := { s.w with
       trapCause := BitVec.ofNat 32 cause.code, trapMask := lanes, trapPc := pc, trapIns := BitVec.ofNat 32 h
       trapDst := 0, trapAddr := BitVec.ofNat 64 addr, handler := true, handlerLanes := lanes, tret := 0
       entered := cause.code, resumePc := t.w.resumePc, parkHeld := s.w.parkAtEnd, parkAtEnd := [], clause := none
       fast := false, hold := .none, refused := none, pack := 0, owed := 0, pc := t.w.pc, resume := .ends } } ∧
     ∀ k, t.w.pcOf k = if lanes.getLsbD k = true then at_ else s.w.pcOf k) ∧
  (∀ (s : State) (x : LateTrap) (xs : List LateTrap) (l : Launch) (at_ : DWord), s.w.on = true → s.w.ended = false →
     s.w.clause = none → s.w.handler = false → s.w.late = x :: xs → s.myLaunch = some l →
     l.kernel.traph = some at_ →
     let lanes := x.mask &&& s.w.live
     lanes ≠ 0 → Gives (exec .evLateTrap s) fun t =>
       t.w.handler = true ∧ t.w.handlerLanes = lanes ∧ t.w.trapMask = lanes ∧ t.w.late = xs ∧
       t.w.trapCause = BitVec.ofNat 32 x.cause.code ∧ t.w.trapPc = x.pc ∧ (x.addrs = [] → t.w.trapAddr = x.addr) ∧
       (∀ l a, lanes.getLsbD l = true → (∀ k, k < l → lanes.getLsbD k = false) →
         (x.addrs.find? fun e => e.1 == l) = some (l, a) → t.w.trapAddr = BitVec.ofNat 64 a) ∧
       t.w.trapDst = BitVec.ofNat 32 x.dst ∧ t.w.trapIns = BitVec.ofNat 32 x.word ∧
       t.w.resume = .perLane ∧ t.w.parked = s.w.parked &&& ~~~lanes ∧
       (∀ k, lanes.getLsbD k = true → SMap.get 0 t.w.resumePc k = s.w.pcOf k ∧ t.w.pcOf k = at_) ∧
       (∀ p, p ∈ t.w.parks ↔ p ∈ s.w.parks ∧ lanes.getLsbD p.lane = false) ∧
       t.w.v = s.w.v ∧ t.w.p = s.w.p ∧ t.w.s = s.w.s ∧ t.w.m = s.w.m ∧ t.w.fpmode = s.w.fpmode ∧
       (s.w.parks = [] → t.mem = s.mem))

/-- R166: TRAP raises USER and BKPT raises BREAK for the ACTIVE lanes, with TRAPDST and TRAPADDR 0; with ACTIVE empty
neither traps. R99, R165: TRET outside handler mode raises ILLEGAL_OP. In handler mode the ACTIVE lanes leave the
handler: while a handler lane remains, they wait, and the fast path ends (R84); when none remains, handler mode ends and
the lanes that executed TRET stand at the resume point, forming ISSUE and ACTIVE of the rest of the clause when that is
where the trap was taken; after a header trap they exit (R32). -/
def Obligations.SoftwareTrapsAndReturn : Prop :=
  (∀ (f : RI) (s : State),
     (s.w.active ≠ 0 → exec (.trap f) s = .next (raise .user s.w.active 0 0 s) ∧
       exec .bkpt s = .next (raise .break_ s.w.active 0 0 s)) ∧
     (s.w.active = 0 → exec (.trap f) s = .next s ∧ exec .bkpt s = .next s)) ∧
  (∀ s : State, s.w.active ≠ 0 →
     let left := s.w.handlerLanes &&& ~~~(s.w.tret ||| s.w.active) &&& ~~~s.w.exited
     let back := (s.w.tret ||| s.w.active) &&& ~~~s.w.exited
     (s.w.handler = false → exec .tret s = .next (raise .illegalOp s.w.active 0 0 s)) ∧
     (s.w.handler = true → left ≠ 0 →
       exec .tret s = .next { s with w := { s.w with tret := s.w.tret ||| s.w.active, fast := false } }) ∧
     (s.w.handler = true → left = 0 → s.w.resume = .ends → s.w.parks = [] → (∀ l, back.getLsbD l = true → l < s.w.width) →
       (∃ l, l < 64 ∧ l < s.w.width ∧ s.w.exited.getLsbD l = false ∧ back.getLsbD l = false) →
       Gives (exec .tret s) fun t => t.w.handler = false ∧
         ∀ l, t.w.exited.getLsbD l = true ↔ s.w.exited.getLsbD l = true ∨ back.getLsbD l = true) ∧
     (∀ pc, s.w.handler = true → left = 0 → back ≠ 0 → s.w.resume = .next pc → s.w.parkHeld = [] →
       Gives (exec .tret s) fun t => t.w.handler = false ∧ t.w.clause = none ∧ t.w.exited = s.w.exited ∧
         ∀ l, t.w.pcOf l = if back.getLsbD l = true then pc else s.w.pcOf l) ∧
     (∀ c : Clause, s.w.handler = true → left = 0 → back ≠ 0 → s.w.resume = .clause c →
       Gives (exec .tret s) fun t => t.w.handler = false ∧
         t.w.clause = some { c with issue := back, active := back, refetch := true } ∧
         ∀ l, t.w.pcOf l = if back.getLsbD l = true then c.hdr + BitVec.ofNat 64 (4 * (c.words.length + 1))
           else s.w.pcOf l) ∧
     (s.w.handler = true → left = 0 → back ≠ 0 → s.w.resume = .perLane →
       Gives (exec .tret s) fun t => t.w.handler = false ∧
         ∀ l, t.w.pcOf l = if back.getLsbD l = true then SMap.get 0 s.w.resumePc l else s.w.pcOf l))

/-! ## Barriers and the cohort (R94, R103, R155-R164) -/

/-- R157: an arrival by BARA or BARS. When ARRIVED plus the ACTIVE lanes would exceed EXPECTED it raises BARRIER; with
every earlier access performed, it makes its release and then counts: a phase that is complete restarts at 0 with
GEN one higher. BARA writes the old GEN to its scalar; BARS holds the wave unless its arrival completed the phase.
Until every earlier access has been performed the wave is held and tries again. R158, R159: BARW holds the wave
while GEN equals its token and otherwise makes its acquire; BARM sets MODE and EXPECTED (0 gives AUTO and the
threads that have not exited), completes a phase that is thereby full, and raises BARRIER for a count above
1,048,575 or below ARRIVED, the barrier unchanged. A held wave tries again at its next turn (log entry 1). TRAPDST is
BARA's scalar, and 0 for BARS and BARM (log entry 30). -/
def Obligations.Barriers : Prop :=
  (∀ (f : SF) (s : State) (x : Barrier), f.imm < 8 → s.barrier f.imm = some x → s.w.active ≠ 0 →
     let k := (lanesOf s.w.active).length
     let u := releaseNow 2 {} s
     let y : Barrier := if x.expected ≤ x.arrived + k then { x with arrived := 0, gen := x.gen + 1 }
       else { x with arrived := x.arrived + k }
     (x.expected < x.arrived + k →
       exec (.bara f) s = .next (raise .barrier s.w.active (dstOf 2 f.sd) 0 s) ∧
       exec (.bars f) s = .next (raise .barrier s.w.active 0 0 s)) ∧
     (x.arrived + k ≤ x.expected → (∃ o ∈ s.w.ops, o.perf ≠ o.lanes ∧ o.ctr ≠ 2) →
       exec (.bara f) s = .next { s with w := { s.w with hold := .again (.bara f) } } ∧
       exec (.bars f) s = .next { s with w := { s.w with hold := .again (.bars f) } }) ∧
     (s.pending = [] → s.updates = [] → u = s) ∧
     (x.arrived + k ≤ x.expected → (∀ o ∈ s.w.ops, o.perf = o.lanes ∨ o.ctr = 2) → u.cohorts = s.cohorts →
       u.w.cohort = s.w.cohort → u.w.active = s.w.active →
       (Gives (exec (.bara f) s) fun t =>
         t = { u with w := { u.w with s := t.w.s, changed := t.w.changed }, cohorts := t.cohorts } ∧
         t.barrier f.imm = some y ∧ (∀ r, t.w.sreg r = if r = f.sd then x.gen else u.w.sreg r) ∧
         (∀ b, b ≠ f.imm → t.barrier b = s.barrier b)) ∧
       (Gives (exec (.bars f) s) fun t => t.barrier f.imm = some y ∧
         (x.expected ≤ x.arrived + k → t = { acquireNow u.w.core 2 {} u with cohorts := t.cohorts }) ∧
         (x.arrived + k < x.expected →
           t = { u with w := { u.w with hold := .barrier f.imm x.gen }, cohorts := t.cohorts })))) ∧
  (∀ (f : SF) (s : State) (x : Barrier), f.imm < 8 → s.barrier f.imm = some x →
     let n := (s.w.sreg f.sa).toNat
     let want : Barrier := if n = 0 then { x with count := false, expected := liveThreads s s.w.cohort }
       else { x with count := true, expected := n }
     (x.gen = s.w.sreg f.sa → exec (.barw f) s = .next { s with w := { s.w with hold := .again (.barw f) } }) ∧
     (x.gen ≠ s.w.sreg f.sa → exec (.barw f) s = .next (acquireNow s.w.core 2 {} s)) ∧
     (s.w.active ≠ 0 → n ≤ 1048575 → x.arrived ≤ want.expected → Gives (exec (.barm f) s) fun t =>
       t = { s with cohorts := t.cohorts } ∧ t.barrier f.imm =
         some (if x.arrived ≠ 0 ∧ x.arrived = want.expected then { want with arrived := 0, gen := x.gen + 1 } else want)) ∧
     (s.w.active ≠ 0 → (1048575 < n ∨ want.expected < x.arrived) →
       exec (.barm f) s = .next (raise .barrier s.w.active 0 0 s)))

/-- R94, R161: GROW under a speculative VERSION raises SPEC_EXT; a count that would pass 2^32 − 1, or a pool, gives
false and the unchanged count; otherwise, after its release, the launch's count rises by n and the predicate is true.
R103, R162: RSTLBL sets the restart label of the cohort. R163: EVENT posts a USER record at once at tag 0, and is
logged under a speculative version; it waits for nothing, and an entry of its wave's earlier instructions that enters
the log later stands before its own (R363). R164: PGREQ without the power-request
right raises PRIV, under a speculative version SPEC_EXT, and otherwise writes the status word of the answer (R413-R418).
TRAPDST is GROW's predicate and PGREQ's scalar (log entry 30). -/
def Obligations.CohortSystemInstructions : Prop :=
  (∀ (f : SF) (s : State) (l : Launch), f.imm < 2 → s.myLaunch = some l → s.w.active ≠ 0 →
     let n := (s.w.sreg f.sa).toNat
     let u := releaseNow 4 {} s
     let frame := fun (v t : State) => t = { v with
       w := { v.w with p := t.w.p, s := t.w.s, changed := t.w.changed }, launches := t.launches }
     (s.w.version ≠ 0 → exec (.grow f) s = .next (raise .specExt s.w.active (dstOf 3 (f.sd % 8)) 0 s)) ∧
     (s.w.version = 0 → (l.pool = true ∨ 2 ^ 32 - 1 < l.count + n) → Gives (exec (.grow f) s) fun t =>
       frame s t ∧ t.launches = s.launches ∧ PredicateIs (f.sd % 8) (fun _ => false) s t ∧
       ∀ r, t.w.sreg r = if f.imm = 1 ∧ r = f.sb then BitVec.ofNat 32 l.count else s.w.sreg r) ∧
     (s.w.version = 0 → l.pool = false → l.count + n ≤ 2 ^ 32 - 1 → (∀ o ∈ s.w.ops, o.perf = o.lanes ∨ o.ctr = 2) →
       u.w = s.w → u.launches = s.launches → Gives (exec (.grow f) s) fun t =>
       frame u t ∧ t.launch l.id = some { l with count := l.count + n } ∧
       (∀ id, id ≠ l.id → t.launch id = s.launch id) ∧ PredicateIs (f.sd % 8) (fun _ => true) s t ∧
       ∀ r, t.w.sreg r = if f.imm = 1 ∧ r = f.sb then BitVec.ofNat 32 l.count else s.w.sreg r)) ∧
  ((∀ (f : BF) (s : State) (c : Cohort) (k : Clause), s.myCohort = some c → s.w.clause = some k → s.w.active ≠ 0 →
     Gives (exec (.rstlbl f) s) fun t => t = { s with cohorts := t.cohorts } ∧
       t.myCohort = some { c with label := k.hdr + (BitVec.ofNat 20 f.off).signExtend 64 * 4 } ∧
       ∀ id, id ≠ s.w.cohort → t.cohort id = s.cohort id) ∧
   (∀ (f : SF) (s : State), s.w.active ≠ 0 → s.w.version = 0 → exec (.event f) s =
     .next (postEvent 1 s.w.ctx 0 s.w.core s.w.index (s.w.sreg f.sa).toNat (s.w.sreg f.sb).toNat s)) ∧
   (∀ (f : SF) (s : State) (c : Context), s.w.active ≠ 0 → s.context s.w.ctx = some c → s.w.version ≠ 0 →
     live s s.w.ctx s.w.version = true → logUsed s s.w.ctx < 2 ^ c.vlogLog2 →
     (∀ e ∈ s.logs, e.num < s.nextId) → Gives (exec (.event f) s) fun t =>
       t = { s with logs := t.logs, nextId := s.nextId + 1 } ∧ ∃ e : LogEntry, t.logs = s.logs ++ [e] ∧
         e.ctx = s.w.ctx ∧ e.tag = s.w.version ∧ e.i = .event f ∧ e.wid = s.w.id ∧ e.num = s.nextId ∧
         e.data.take 3 = [(s.w.sreg f.sa).toNat, (s.w.sreg f.sb).toNat, s.now]) ∧
   (∀ (s : State) (c : Context) (e : LogEntry), s.context e.ctx = some c → live s e.ctx e.tag = true →
     logUsed s e.ctx + e.recs ≤ 2 ^ c.vlogLog2 → ∃ xs ys, (logEntry e s).logs = xs ++ e :: ys ∧
       (∀ x, x ∈ s.logs ↔ x ∈ xs ∨ x ∈ ys) ∧
       (∀ x ∈ xs, x.isEvent = true → x.ctx = e.ctx → x.tag = e.tag → x.wid = e.wid → x.num ≤ e.num) ∧
       ∀ x ∈ ys, x.isEvent = true ∧ x.ctx = e.ctx ∧ x.tag = e.tag ∧ x.wid = e.wid ∧ e.num < x.num) ∧
   (∀ (f : SF) (s : State), s.w.active ≠ 0 →
     let pwr := ((s.context s.w.ctx).map Context.pwr).getD false
     let answer := powerRequest (s.w.sreg f.sa).toNat (s.w.sreg f.sb).toNat (holdsForeign s s.w.ctx) s
     (pwr = false → exec (.pgreq f) s = .next (raise .priv s.w.active (dstOf 2 f.sd) 0 s)) ∧
     (pwr = true → s.w.version ≠ 0 → exec (.pgreq f) s = .next (raise .specExt s.w.active (dstOf 2 f.sd) 0 s)) ∧
     (pwr = true → s.w.version = 0 → s.w.on = true → answer.2.w = s.w → Gives (exec (.pgreq f) s) fun t =>
       t = { answer.2 with w := { s.w with s := t.w.s, changed := t.w.changed } } ∧
       ∀ r, t.w.sreg r = if r = f.sd then BitVec.ofNat 32 answer.1 else s.w.sreg r)))

/-! ## Memory (R36, R38, R42, R169-R231) -/

/-- R36, R42, R203, R208, R214, R222-R226: each counted memory instruction passes its checks in every ACTIVE lane and
joins its counter, or takes the cause of the lowest failing lane; with ACTIVE empty it does nothing. SLD accesses
once, for the lowest ACTIVE lane. R169, R170-R172, R203: the checks of an access of the focused wave, in their
order: alignment, the 52-bit address space, the translation, the permissions, full/empty on its page, and what a
speculative version may not do. A walk whose four entries are present and well formed ends in the page of the
last, whatever the words between. A leaf's KEY is checked against the keys of log entry 8. -/
def Obligations.CountedAccesses : Prop :=
  (let at_ := fun (f : MF) (s : State) => globalAddr s.w f.a (f.offset (offUnit f.bytes))
   let word := fun (f : MF) (s : State) => globalAddr s.w f.a (f.offset 4)
   let off := fun (f : MF) (s : State) => scratchOff s.w f.a (f.offset (offUnit f.bytes))
   let offWord := fun (f : MF) (s : State) => scratchOff s.w f.a (f.offset 4)
   let none_ := fun (_ : State) (_ : Nat) => (0 : Nat)
   let data := fun (r n : Nat) (s : State) (l : Nat) => storeData s.w l r n
   let low := fun (r : Nat) (s : State) (l : Nat) => (s.w.vreg l r).toNat
   let rmw : Ask := { need := { r := true, w := true }, write := true, spec := true }
   let red : Ask := { need := { r := true, w := true }, write := true }
   (∀ f : MF, GlobalRuns (.ld f) 0 { need := { r := true } } false (at_ f) none_ ∧
     GlobalRuns (.st f) 1 { need := { w := true }, write := true } true (at_ f) (data f.d f.bytes) ∧
     ScratchRuns (.lds f) 0 false (off f) none_ ∧
     ScratchRuns (.sts f) 1 true (off f) (data f.d f.bytes) ∧
     AccessRuns (.sld f) 0 false (fun s l => Active s l ∧ ∀ k, k < l → ¬Active s k)
       (fun s _ => (s.w.spair f.a + f.offset (offUnit f.bytes)).toNat) none_
       (fun s _ => checkGlobal s { need := { r := true } } f.bytes (s.w.spair f.a + f.offset (offUnit f.bytes)).toNat) ∧
     (f.w ≠ 1 → GlobalRuns (.feset f) 1 { need := { w := true }, fe := true, write := true } true (word f) (low f.d)) ∧
     (f.w = 1 → ScratchRuns (.feset f) 1 true (offWord f) (low f.d)) ∧
     (f.w ≠ 1 → GlobalRuns (.feget f) 0 { need := { r := true }, fe := true } false (word f) none_) ∧
     (f.w = 1 → ScratchRuns (.feget f) 0 false (offWord f) none_)) ∧
   (∀ f : AM, let n := if f.t = 1 then 8 else 4
     GlobalRuns (.atom f) 0 rmw true (fun s => amAddr s.w f) (data f.b n) ∧
     GlobalRuns (.atomf f) 0 rmw true (fun s => amAddr s.w f) (data f.b 4) ∧
     GlobalRuns (.cas f) 0 rmw true (fun s => amAddr s.w f) (data f.b (2 * n)) ∧
     GlobalRuns (.red f) 1 red true (fun s => amAddr s.w f) (data f.b n) ∧
     GlobalRuns (.redf f) 1 red true (fun s => amAddr s.w f) (data f.b 4) ∧
     (f.ax.aop ≠ 1 → GlobalRuns (.vismin f) 1 red true (fun s => amAddr s.w f) (data f.b 8)) ∧
     (f.ax.aop = 1 → ScratchRuns (.vismin f) 1 true (fun s => amOff s.w f) (data f.b 8)) ∧
     ScratchRuns (.atoms f) 0 true (fun s => amOff s.w f) (data f.b n) ∧
     ScratchRuns (.cass f) 0 true (fun s => amOff s.w f) (data f.b (2 * n)))) ∧
  ((∀ (s : State) (ask : Ask) (n va : Nat), s.w.refused = none →
     (va % n ≠ 0 → checkGlobal s ask n va = .trap .memAlign) ∧
     (va % n = 0 → 2 ^ 52 ≤ va → checkGlobal s ask n va = .trap .memXlate) ∧
     (va % n = 0 → va < 2 ^ 52 → ∀ root l3 l2 l1 l0 : Nat, tlbHit s s.w.core s.w.ctx va = none → s.updates = [] →
       root = ((s.context s.w.ctx).map Context.ptroot).getD 0 →
       l3 = readMem s.mem (root + 8 * (va / 2 ^ 39 % 2 ^ 13)) 8 →
       l2 = readMem s.mem (l3 / 2 ^ 8 % 2 ^ 40 * 2 ^ 8 + 8 * (va / 2 ^ 30 % 2 ^ 9)) 8 →
       l1 = readMem s.mem (l2 / 2 ^ 8 % 2 ^ 40 * 2 ^ 8 + 8 * (va / 2 ^ 21 % 2 ^ 9)) 8 →
       l0 = readMem s.mem (l1 / 2 ^ 8 % 2 ^ 40 * 2 ^ 8 + 8 * (va / 2 ^ 16 % 2 ^ 5)) 8 →
       let table := fun (e align : Nat) => e % 2 ^ 8 = 1 ∧ e / 2 ^ 48 = 0 ∧
         e / 2 ^ 8 % 2 ^ 40 * 2 ^ 8 % align = 0 ∧ e / 2 ^ 8 % 2 ^ 40 * 2 ^ 8 < 0x1F00000000
       let leaf := readLeaf l0 16
       (l3 % 2 = 0 → checkGlobal s ask n va = .replay 3) ∧
       (table l3 4096 → l2 % 2 = 0 → checkGlobal s ask n va = .replay 2) ∧
       (l3 % 4 = 3 → checkGlobal s ask n va = .trap .memXlate) ∧
       (table l3 4096 → l2 % 4 = 3 → leafBad s.plat.config.node l2 30 = false →
         rawLeaf s s.w.core s.w.ctx va = .ok (readLeaf l2 30)) ∧
       (table l3 4096 → table l2 4096 → l1 % 4 = 3 → leafBad s.plat.config.node l1 21 = false →
         rawLeaf s s.w.core s.w.ctx va = .ok (readLeaf l1 21)) ∧
       (table l3 4096 → table l2 4096 → table l1 256 → l0 % 4 = 3 → leafBad s.plat.config.node l0 16 = false →
         ((ask.need.r = true ∧ leaf.r = false) ∨ (ask.need.w = true ∧ leaf.w = false) ∨
           (ask.need.x = true ∧ leaf.x = false) ∨ leaf.node ≠ s.plat.config.node ∨
           (leaf.key ≠ 0 ∧ leaf.key ∉ s.keys) → checkGlobal s ask n va = .trap .memPerm) ∧
         ((ask.need.r = true → leaf.r = true) → (ask.need.w = true → leaf.w = true) →
           (ask.need.x = true → leaf.x = true) → leaf.node = s.plat.config.node → (leaf.key = 0 ∨ leaf.key ∈ s.keys) →
           (ask.fe = true → leaf.fe = false → checkGlobal s ask n va = .trap .fePage) ∧
           ((ask.fe = true → leaf.fe = true) → s.w.version = 0 → checkGlobal s ask n va = .ok leaf) ∧
           ((ask.fe = true → leaf.fe = true) → s.w.version ≠ 0 → leaf.ver = false → ask.spec = true →
             checkGlobal s ask n va = .trap .specExt))))) ∧
   (∀ (l : Leaf) (va : Nat), l.addr va = l.pa + va % 2 ^ l.bits))

/-- R223-R226: the new value of a location under each atomic operation, from the old value and the lane's data. R224:
the floating-point ones sum, or take the minimum or maximum of, each element of T, rounded to nearest-even, with
subnormals kept and canonical NaNs; ATOMS 12 to 14 do so in F32. -/
def Obligations.AtomicOperations : Prop :=
  ∀ (f : AM) (old b : Nat), let n := if f.t = 1 then 64 else 32
    old < 2 ^ n → b < 2 ^ n →
    let signed := fun (x : Nat) => if x < 2 ^ (n - 1) then (x : Int) else (x : Int) - 2 ^ n
    (∀ i, (i = .atom f ∨ i = .red f ∨ (i = .atoms f ∧ f.ax.aop < 12)) →
      (f.ax.aop = 0 → rmwNew i old b = (old + b) % 2 ^ n) ∧
      (f.ax.aop = 1 → rmwNew i old b = (old + 2 ^ n - b) % 2 ^ n) ∧
      (f.ax.aop = 2 → rmwNew i old b = min old b) ∧
      (f.ax.aop = 3 → rmwNew i old b = if signed old ≤ signed b then old else b) ∧
      (f.ax.aop = 4 → rmwNew i old b = max old b) ∧
      (f.ax.aop = 5 → rmwNew i old b = if signed old ≤ signed b then b else old) ∧
      (f.ax.aop = 6 → rmwNew i old b = old &&& b) ∧
      (f.ax.aop = 7 → rmwNew i old b = old ||| b) ∧
      (f.ax.aop = 8 → rmwNew i old b = old ^^^ b) ∧
      (f.ax.aop = 9 → rmwNew i old b = b) ∧
      (f.ax.aop = 10 → rmwNew i old b = if b ≤ old then 0 else old + 1) ∧
      (f.ax.aop = 11 → rmwNew i old b = if old = 0 ∨ b < old then b else old - 1)) ∧
    (∀ new, new < 2 ^ n → rmwNew (.cas f) old (b + new * 2 ^ n) = (if old = b then new else old) ∧
      rmwNew (.cass f) old (b + new * 2 ^ n) = (if old = b then new else old)) ∧
    (rmwNew (.vismin f) old b = min old b) ∧
    (let elem := fun (k : FFmt) (op x y : Nat) =>
       (delivered k { mode := 1, sat := false, ftz := false, nanc := true } [x, y]
         (if op = 0 then fAdd 1 (k.read x) (k.read y) else k.minMax (decide (op = 2)) false x y)).1
     let k : FFmt := if f.t = 1 then .f16 else .bf16
     (∀ i, i = .atomf f ∨ i = .redf f → f.t < 3 → rmwNew i old b =
       if f.t = 0 then elem .f32 f.ax.aop old b
       else elem k f.ax.aop (old % 2 ^ 16) (b % 2 ^ 16)
         + elem k f.ax.aop (old / 2 ^ 16 % 2 ^ 16) (b / 2 ^ 16 % 2 ^ 16) * 2 ^ 16) ∧
     (12 ≤ f.ax.aop → rmwNew (.atoms f) old b = elem .f32 (f.ax.aop - 12) old b))

/-- R38, R189, R202, R208, R214: the loads: when its operation is performed and lands, the bytes at its page are in
its registers, zero-extended, and memory is as before; FEGET gives the full/empty bit, SLD writes scalars. Bytes
of scratch that nothing has written are free values (log entry 3), of memory the model's (log entry 2). -/
def Obligations.LoadLandings : Prop :=
  ∀ (s : State) (o : Op) (l : Nat) (leaf : Leaf) (va data : Nat), Alone s o l leaf va data → o.ctr = 0 →
    let pa := leaf.addr va
    (∀ f, o.i = .ld f → f.d + f.bytes / 4 ≤ 128 → f.d < 128 → Calm s pa f.bytes →
      Landed 0 s fun t => InRegisters l f.d f.bytes (readMem s.mem pa f.bytes) s t ∧ t.w.s = s.w.s ∧ ReadFrame s t) ∧
    (∀ f, o.i = .sld f → f.w < 3 → Calm s pa f.bytes → Landed 0 s fun t => t.w.ops = [] ∧ t.w.v = s.w.v ∧
      ReadFrame s t ∧ ∀ r, t.w.sreg r = if f.d ≤ r ∧ r < f.d + f.bytes / 4
        then BitVec.ofNat 32 (readMem s.mem pa f.bytes / 2 ^ (32 * (r - f.d))) else s.w.sreg r) ∧
    (∀ f, o.i = .feget f → f.w ≠ 1 → f.d < 128 → Calm s pa 4 →
      Landed 0 s fun t => InRegisters l f.d 4 (if readBit s.mem (feCell pa) = true then 1 else 0) s t ∧
        t.w.s = s.w.s ∧ ReadFrame s t) ∧
    (∀ f, o.i = .lds f → f.d + f.bytes / 4 ≤ 128 → f.d < 128 → s.pending = [] → s.updates = [] →
      Landed 0 s fun t => InRegisters l f.d f.bytes (readScratch s.scratch leaf.pa f.bytes) s t ∧ t.w.s = s.w.s ∧
        ReadFrame s t) ∧
    (∀ f, o.i = .feget f → f.w = 1 → f.d < 128 → s.pending = [] → s.updates = [] →
      Landed 0 s fun t => InRegisters l f.d 4 (if scratchFull s leaf.pa = true then 1 else 0) s t ∧ t.w.s = s.w.s ∧
        ReadFrame s t)

/-- R197, R223-R225: the atomics at their home or scratch bank: the old value is in the registers, the location holds
the new one and every other byte is as before; a compare-and-swap says in its predicate whether it matched. R205:
several lanes of one atomic on one location act in ascending order, each with the value that the lower ones left. -/
def Obligations.AtomicLandings : Prop :=
  (∀ (s : State) (o : Op) (l : Nat) (leaf : Leaf) (va data : Nat), Alone s o l leaf va data → o.ctr = 0 →
    let pa := leaf.addr va
    let old := fun (n : Nat) => readMem s.mem pa n
    let cell := fun (n : Nat) => readScratch s.scratch leaf.pa n
    let bank := fun (n : Nat) (t : State) =>
      readScratch t.scratch leaf.pa n = rmwNew o.i (cell n) data % 2 ^ (8 * n) ∧
      (∀ a, a < leaf.pa ∨ leaf.pa + n ≤ a → scratchByte t.scratch a = scratchByte s.scratch a) ∧ t.mem = s.mem
    (∀ f, o.i = .atom f → let n := if f.t = 1 then 8 else 4
      f.d + n / 4 ≤ 128 → Calm s pa n → Landed 0 s fun t =>
        InRegisters l f.d n (old n) s t ∧ Stored pa n (rmwNew o.i (old n) data) s t ∧ t.w.p = s.w.p ∧ WriteFrame s t) ∧
    (∀ f, o.i = .atomf f → f.d < 128 → Calm s pa 4 → Landed 0 s fun t =>
        InRegisters l f.d 4 (old 4) s t ∧ Stored pa 4 (rmwNew o.i (old 4) data) s t ∧ t.w.p = s.w.p ∧ WriteFrame s t) ∧
    (∀ f, o.i = .cas f → let n := if f.t = 1 then 8 else 4
      f.d + n / 4 ≤ 128 → Calm s pa n → Landed 0 s fun t =>
        InRegisters l f.d n (old n) s t ∧ Stored pa n (rmwNew o.i (old n) data) s t ∧ WriteFrame s t ∧
        ∀ q k, t.w.pred q k = if q = f.ax.aop % 8 ∧ q ≠ 7 ∧ k = l then decide (old n = data % 2 ^ (8 * n))
          else s.w.pred q k) ∧
    (∀ f, o.i = .atoms f → let n := if f.t = 1 then 8 else 4
      f.d + n / 4 ≤ 128 → s.pending = [] → s.updates = [] → Landed 0 s fun t =>
        InRegisters l f.d n (cell n) s t ∧ bank n t) ∧
    (∀ f, o.i = .cass f → let n := if f.t = 1 then 8 else 4
      f.d + n / 4 ≤ 128 → s.pending = [] → s.updates = [] → Landed 0 s fun t =>
        InRegisters l f.d n (cell n) s t ∧ bank n t ∧
        ∀ q k, t.w.pred q k = if q = f.ax.aop % 8 ∧ q ≠ 7 ∧ k = l then decide (cell n = data % 2 ^ (8 * n))
          else s.w.pred q k)) ∧
  (∀ (s : State) (o : Op) (ls : List Nat) (leaf : Leaf) (va : Nat) (data : Nat → Nat), Crowd s o ls leaf va data →
    o.ctr = 0 → ∀ f : AM, f.d < 128 → (o.i = .atom f ∧ f.t ≠ 1) ∨ o.i = .atomf f →
    let pa := leaf.addr va
    let after := fun (pre : List Nat) => pre.foldl (fun v l => rmwNew o.i v (data l) % 2 ^ 32) (readMem s.mem pa 4)
    Calm s pa 4 → Landed 0 s fun t => t.w.ops = [] ∧ Stored pa 4 (after ls) s t ∧ WriteFrame s t ∧
      (∀ pre l post, ls = pre ++ l :: post → t.w.vreg l f.d = BitVec.ofNat 32 (after pre)) ∧
      ∀ k r, r < 128 → ¬(k ∈ ls ∧ r = f.d) → t.w.vreg k r = s.w.vreg k r)

/-- R178, R180, R189, R198, R200, R214: a store or FESET of a page is accepted by its core and then waits, a reduction
on a cached page waits in the L1; neither changes memory yet. When its home performs it, exactly its bytes, or
exactly its full/empty bit, are written. R205: stores of several lanes of one instruction to one location are
accepted in ascending order and performed together, so that the highest lane's data is left. On scratch the bank writes
at once. The turns at which a home performs a
store and a line is flushed are the model's (log entries 1 and 18). -/
def Obligations.StoreLandings : Prop :=
  (∀ (s : State) (o : Op) (l : Nat) (leaf : Leaf) (va data : Nat), Alone s o l leaf va data → o.ctr = 1 →
    let pa := leaf.addr va
    let waits := fun (n : Nat) (feset : Bool) (t : State) =>
      t = { s with w := { s.w with ops := t.w.ops }, waves := t.waves, pending := t.pending, nextId := s.nextId + 1,
                   l1 := t.l1 } ∧
      ∃ p : Pending, t.pending = [p] ∧ p.id = s.nextId ∧ p.core = s.w.core ∧ p.tag = 0 ∧ p.pa = pa ∧ p.n = n ∧
        p.data = data ∧ p.feset = feset ∧ p.buf = 0 ∧ p.op = o.num ∧ p.atom = false ∧ p.org.lane = l ∧ p.org.wave = s.w.id
    (∀ f, o.i = .st f → leaf.cache ≠ 2 → Calm s pa f.bytes → Landed 1 s (waits f.bytes false)) ∧
    (∀ f, o.i = .feset f → f.w ≠ 1 → Calm s pa 4 → Landed 1 s (waits 4 true)) ∧
    (∀ i, o.i = i → ((∃ f, i = .red f) ∨ (∃ f, i = .redf f) ∨ ∃ f, i = .vismin f ∧ f.ax.aop ≠ 1) →
      leaf.cache = 0 → Calm s pa (rmwBytes i) → Landed 1 s fun t =>
        t = { s with w := { s.w with ops := [] }, waves := t.waves, updates := t.updates } ∧
        ∃ u : Update, t.updates = [u] ∧ u.core = s.w.core ∧ u.pa = pa ∧ u.i = i ∧ u.data = data ∧ u.tag = 0) ∧
    (∀ i, o.i = i → ((∃ f, i = .red f) ∨ (∃ f, i = .redf f) ∨ ∃ f, i = .vismin f ∧ f.ax.aop ≠ 1) →
      leaf.cache ≠ 0 → Calm s pa (rmwBytes i) → Landed 1 s fun t =>
        Stored pa (rmwBytes i) (rmwNew i (readMem s.mem pa (rmwBytes i)) data) s t ∧ t.w.ops = [] ∧ WriteFrame s t) ∧
    (∀ f, o.i = .sts f → s.pending = [] → s.updates = [] → Landed 1 s fun t =>
      t = { s with w := { s.w with ops := [], parks := t.w.parks }, waves := t.waves, scratch := t.scratch
                   scratchWait := t.scratchWait } ∧
      readScratch t.scratch leaf.pa f.bytes = data % 2 ^ (8 * f.bytes) ∧
      ∀ a, a < leaf.pa ∨ leaf.pa + f.bytes ≤ a → scratchByte t.scratch a = scratchByte s.scratch a) ∧
    (∀ f, o.i = .feset f → f.w = 1 → s.pending = [] → s.updates = [] → Landed 1 s fun t =>
      t = { s with w := { s.w with ops := [], parks := t.w.parks }, waves := t.waves, scratchFe := t.scratchFe
                   scratchWait := t.scratchWait } ∧
      ∀ a, scratchFull t a = if a = leaf.pa then decide (data % 2 = 1) else scratchFull s a)) ∧
  (∀ (s : State) (p : Pending), s.pending = [p] → s.updates = [] → p.tag = 0 → Sound s p.pa p.n →
    let home := fun (o : Host.Outcome State Fault Refusal) => Gives o fun t =>
      t.pending = [] ∧ (s.w.ended = false → t.w.v = s.w.v) ∧ t.scratch = s.scratch ∧ t.l1 = s.l1 ∧
      (p.feset = false → Stored p.pa p.n p.data s t) ∧
      (p.feset = true → BitStored (feCell p.pa) (decide (p.data % 2 = 1)) s t)
    (p.buf = 0 → home (takeTurn (.background none (.storeHome p.id)) s)) ∧
    (p.buf ≠ 0 → home (exec (.evCombiningBufferDrain p.core p.buf) s))) ∧
  (∀ (s : State) (o : Op) (ls : List Nat) (leaf : Leaf) (va : Nat) (data : Nat → Nat) (f : MF),
    Crowd s o ls leaf va data → o.ctr = 1 → o.i = .st f → leaf.cache ≠ 2 → Calm s (leaf.addr va) f.bytes →
    Landed 1 s fun t => t.mem = s.mem ∧ (t.pending.map fun p => (p.org.lane, p.data)) = ls.map (fun l => (l, data l)) ∧
      ∀ p ∈ t.pending, p.core = s.w.core ∧ p.pa = leaf.addr va ∧ p.n = f.bytes ∧ p.op = o.num ∧ p.feset = false ∧
        p.buf = 0 ∧ p.tag = 0) ∧
  (∀ (s : State) (p : Pending) (ps : List Pending) (q : Pending), s.pending = p :: ps → (p :: ps).getLast? = some q →
    s.updates = [] → (∀ x ∈ p :: ps, x.core = p.core ∧ x.op = p.op ∧ x.pa = p.pa ∧ x.n = p.n ∧ x.tag = 0 ∧
      x.feset = false ∧ x.buf = 0) → Sound s p.pa p.n →
    Gives (takeTurn (.background none (.storeHome p.id)) s) fun t => t.pending = [] ∧ Stored p.pa p.n q.data s t) ∧
  (∀ (s : State) (u : Update), s.updates = [u] → u.tag = 0 → Sound s u.pa (rmwBytes u.i) →
    Gives (takeTurn (.background none (.updateFlush 0)) s) fun t => t.updates = [] ∧ t.w = s.w ∧
      Stored u.pa (rmwBytes u.i) (rmwNew u.i (readMem s.mem u.pa (rmwBytes u.i)) u.data) s t)

/-- R211-R213, R221: a full/empty form or WAITA of one ACTIVE lane whose word satisfies it: LDW and LDC take the
value, which lands in the register, and LDC empties the word; STF stores and fills it; WAITA writes the register
at once. No other bit of memory or scratch changes. R211, R215, R216, R219, R221: a form whose word does not
satisfy it parks its lane; so does one that an earlier acquire holds back, for its first attempt (log entry 72). A woken lane attempts again: it takes its value and leaves the parked state, or parks
again with its budget one lower, a first attempt excepted; when that brings the budget to 0 it takes FE_BUDGET. The turn
at which a woken lane attempts again is the model's (log entry 1). -/
def Obligations.FullEmptyWaits : Prop :=
  ((∀ (f : MF) (s : State) (l : Nat) (leaf : Leaf), Single s l → f.d < 128 →
     let va := globalAddr s.w f.a (f.offset 4) l
     let pa := leaf.addr va
     let v := readMem s.mem pa 4
     Calm s pa 4 →
     (checkGlobal s { need := .load, fe := true } 4 va = .ok leaf → readBit s.mem (feCell pa) = true →
       Gives (exec (.ldw f) s) fun t => t.mem = s.mem ∧ t.w.v = s.w.v ∧ t.w.parked = s.w.parked ∧
         Landed 0 t (InRegisters l f.d 4 v s)) ∧
     (checkGlobal s { need := .rmw, fe := true, write := true, spec := true } 4 va = .ok leaf →
       readBit s.mem (feCell pa) = true →
       Gives (exec (.ldc f) s) fun t => BitStored (feCell pa) false s t ∧ t.w.v = s.w.v ∧ t.w.parked = s.w.parked ∧
         Landed 0 t (InRegisters l f.d 4 v s)) ∧
     (checkGlobal s { need := .rmw, fe := true, write := true, spec := true } 4 va = .ok leaf →
       readBit s.mem (feCell pa) = false →
       Gives (exec (.stf f) s) fun t => readMem t.mem pa 4 = (s.w.vreg l f.d).toNat ∧
         readBit t.mem (feCell pa) = true ∧ t.w.v = s.w.v ∧ t.w.parked = s.w.parked ∧ t.w.ops = [] ∧
         ∀ d : Nat × Nat, d.2 < 8 → (d.1 < pa ∨ pa + 4 ≤ d.1) → d ≠ feCell pa → readBit t.mem d = readBit s.mem d)) ∧
   (∀ (f : V3) (s : State) (l : Nat) (leaf : Leaf), Single s l → f.d < 128 →
     let va := globalAddr s.w f.a 0 l
     let pa := leaf.addr va
     let v := readMem s.mem pa 4
     Calm s pa 4 → checkGlobal s { need := .load } 4 va = .ok leaf →
     (if f.t = 0 then v ≠ (s.w.srcB f l).toNat else v = (s.w.srcB f l).toNat) →
     Gives (exec (.waita f) s) fun t => InRegisters l f.d 4 v s t ∧ t.mem = s.mem ∧ t.w.parked = s.w.parked) ∧
   (∀ (f : MF) (s : State) (l cell : Nat), Single s l → f.d < 128 → s.pending = [] → s.updates = [] →
     let off := scratchOff s.w f.a (f.offset 4) l
     let v := readScratch s.scratch cell 4
     off % 4 = 0 → scratchCell s off 4 = some cell →
     (scratchFull s cell = true → Gives (exec (.ldsw f) s) fun t => t.scratch = s.scratch ∧ t.scratchFe = s.scratchFe ∧
       t.w.v = s.w.v ∧ t.w.parked = s.w.parked ∧ Landed 0 t (InRegisters l f.d 4 v s)) ∧
     (scratchFull s cell = true → Gives (exec (.ldsc f) s) fun t => t.scratch = s.scratch ∧
       (∀ a, scratchFull t a = if a = cell then false else scratchFull s a) ∧
       t.w.v = s.w.v ∧ t.w.parked = s.w.parked ∧ Landed 0 t (InRegisters l f.d 4 v s)) ∧
     (scratchFull s cell = false → Gives (exec (.stsf f) s) fun t => t.w.ops = [] ∧ t.w.v = s.w.v ∧
       readScratch t.scratch cell 4 = (s.w.vreg l f.d).toNat ∧
       (∀ a, a < cell ∨ cell + 4 ≤ a → scratchByte t.scratch a = scratchByte s.scratch a) ∧
       (∀ a, scratchFull t a = if a = cell then true else scratchFull s a)))) ∧
  ((∀ f : MF, let at_ := fun (s : State) => globalAddr s.w f.a (f.offset 4)
     let off := fun (s : State) => scratchOff s.w f.a (f.offset 4)
     let none_ := fun (_ : State) (_ : Nat) => (0 : Nat)
     let low := fun (s : State) (l : Nat) => (s.w.vreg l f.d).toNat
     WaitParks (.ldw f) at_ none_ 1 { need := .load, fe := true } (fun s pa _ => readBit s.mem (feCell pa) = false) ∧
     WaitParks (.ldc f) at_ none_ 2 { need := .rmw, fe := true, write := true, spec := true }
       (fun s pa _ => readBit s.mem (feCell pa) = false) ∧
     WaitParks (.stf f) at_ low 3 { need := .rmw, fe := true, write := true, spec := true }
       (fun s pa _ => readBit s.mem (feCell pa) = true) ∧
     WaitParksScratch (.ldsw f) off none_ 1 false ∧ WaitParksScratch (.ldsc f) off none_ 2 false ∧
     WaitParksScratch (.stsf f) off low 3 true ∧
     WaitsFirst (.ldw f) at_ 1 { need := .load, fe := true } ∧
     WaitsFirst (.ldc f) at_ 2 { need := .rmw, fe := true, write := true, spec := true } ∧
     WaitsFirst (.stf f) at_ 3 { need := .rmw, fe := true, write := true, spec := true }) ∧
   (∀ f : V3, WaitParks (.waita f) (fun s => globalAddr s.w f.a 0) (fun s l => (s.w.srcB f l).toNat) 4 { need := .load }
     (fun s pa b => ¬if f.t = 0 then readMem s.mem pa 4 ≠ b else readMem s.mem pa 4 = b)) ∧
   (∀ f : MF, f.d < 128 →
     let full := fun (s : State) (pa _ : Nat) => readBit s.mem (feCell pa) = true
     let consume : Ask := { need := .rmw, fe := true, write := true, spec := true }
     Reevaluates (.ldw f) 1 (some f.d) { need := .load, fe := true } full (fun _ _ s t => t.mem = s.mem) ∧
     Reevaluates (.ldc f) 2 (some f.d) consume full (fun pa _ s t => BitStored (feCell pa) false s t) ∧
     Reevaluates (.stf f) 3 none consume (fun s pa d => ¬full s pa d)
       (fun pa d _ t => readMem t.mem pa 4 = d % 2 ^ 32 ∧ readBit t.mem (feCell pa) = true) ∧
     ReevaluatesScratch (.ldsw f) 1 (some f.d) true (fun _ _ s t => t.scratch = s.scratch ∧ t.scratchFe = s.scratchFe) ∧
     ReevaluatesScratch (.ldsc f) 2 (some f.d) true (fun a _ s t => t.scratch = s.scratch ∧ scratchFull t a = false) ∧
     ReevaluatesScratch (.stsf f) 3 none false
       (fun a d _ t => readScratch t.scratch a 4 = d % 2 ^ 32 ∧ scratchFull t a = true)) ∧
   (∀ f : V3, f.d < 128 → Reevaluates (.waita f) 4 (some f.d) { need := .load }
     (fun s pa b => if f.t = 0 then readMem s.mem pa 4 ≠ b else readMem s.mem pa 4 = b)
     (fun _ _ s t => t.mem = s.mem)))

/-- R180, R189, R190, R209: FENCE waits until every earlier access has been performed, and drains the core's
write-combining buffers. At COHORT scope or wider its release leaves no store and no reduction of the core on its way,
and its acquire drops the core's L1 lines; at WAVE and TEAM scope its release leaves only stores to cached pages, which
the core has accepted, and its acquire drops nothing. R210: BIND and UNBIND add or drop a
binding of the context, or answer why not; under a speculative version they raise SPEC_EXT. The order of the
refusals of BIND is the reading of log entry 47; a release drains every store of its core in the extent (log entry
18). -/
def Obligations.FencesAndBindings : Prop :=
  (∀ (f : MF) (s : State), (s.w.active = 0 → exec (.fence f) s = .next s) ∧
    (s.w.active ≠ 0 → (∃ o ∈ s.w.ops, o.perf ≠ o.lanes ∧ o.ctr ≠ 2) →
      exec (.fence f) s = .next { s with w := { s.w with hold := .again (.fence f) } }) ∧
    (s.w.active ≠ 0 → (∀ o ∈ s.w.ops, o.perf = o.lanes ∨ o.ctr = 2) → Gives (exec (.fence f) s) fun t =>
      (∀ p ∈ t.pending, p.core = s.w.core → p.buf = 0) ∧
      (f.m.order = 1 → (∀ p ∈ s.pending, p.core = s.w.core → p.buf = 0) →
        t = { s with l1 := t.l1 } ∧
        ∀ x, x ∈ t.l1 ↔ x ∈ s.l1 ∧ (2 ≤ f.m.scope → x.core ≠ s.w.core)) ∧
      (f.m.order = 2 ∨ f.m.order = 3 →
        (∀ p ∈ t.pending, p.core = s.w.core → p.org.wave = s.w.id → p.uncached = false) ∧
        (2 ≤ f.m.scope → (∀ p ∈ t.pending, p.core ≠ s.w.core) ∧ (∀ u ∈ t.updates, u.core ≠ s.w.core))) ∧
      (f.m.order = 3 → 2 ≤ f.m.scope → s.w.ended = false → s.poison = [] → s.ecc = [] →
        ∀ x ∈ t.l1, x.core ≠ s.w.core))) ∧
  (∀ (f : V3) (s : State) (c : Context), s.context s.w.ctx = some c →
    (s.w.active = 0 → exec (.bind f) s = .next s ∧ exec (.unbind f) s = .next s) ∧
    (s.w.active ≠ 0 → s.w.version ≠ 0 →
      exec (.bind f) s = .next (raise .specExt s.w.active (dstOf 2 f.d) 0 s) ∧
      exec (.unbind f) s = .next (raise .specExt s.w.active (dstOf 2 f.d) 0 s)) ∧
    (s.w.active ≠ 0 → s.w.version = 0 →
      let base := (s.w.spair f.a).toNat
      let len := (s.w.sreg f.d).toNat
      let word := (s.w.spair f.b).toNat
      let inside := fun (a b n : Nat) => b ≤ a ∧ a < b + n
      let status : Nat :=
        if base % 128 ≠ 0 ∨ len % 128 ≠ 0 ∨ len = 0 ∨ 2 ^ 52 < base + len ∨ word % 4 ≠ 0 then 3
        else if 64 ≤ c.bindings.length then 1
        else if (∃ b ∈ c.bindings, base < b.base + b.len ∧ b.base < base + len) ∨
          (∃ b ∈ c.bindings, inside b.word base len) ∨ (∃ b ∈ c.bindings, inside word b.base b.len) ∨
          inside word base len then 2 else 0
      let frame := fun (t : State) =>
        t = { s with w := { s.w with s := t.w.s, changed := t.w.changed }, contexts := t.contexts }
      (Gives (exec (.bind f) s) fun t => frame t ∧ ScalarIs f.d (BitVec.ofNat 32 status) s t ∧
        t.context s.w.ctx = some (if status = 0
          then { c with bindings := c.bindings ++ [{ base := base, len := len, word := word }] } else c)) ∧
      (Gives (exec (.unbind f) s) fun t => frame t ∧
        ScalarIs f.d (if ∃ b ∈ c.bindings, b.base = base then 0 else 4) s t ∧
        t.context s.w.ctx = some { c with bindings := c.bindings.filter fun b => b.base ≠ base })))

/-- R182, R227-R231: the cache-range instructions check every page first, and a trap names every ACTIVE lane (R97). CINV
flushes the core's update-only lines of the range and drops its L1 lines there; ICINV drops those of every instruction
cache, CUNPIN the context's pins. CWB waits for the wave's earlier writes of the range, sends the core's stores and
reductions of it to their homes and leaves its lines clean. CPIN pins every line or changes nothing and says which, and
is refused for an uncached page. FETCHBAR drops the words held fetched. PREF changes only caches. That FETCHBAR drops
every word held fetched is the reading of log entry 19. -/
def Obligations.CacheControl : Prop :=
  (∀ f : MF,
    RangeRuns (.cinv f) f .load 0 (fun _ => False) (fun s t =>
      (∀ x ∈ t.l1, ¬(x.core = s.w.core ∧ RangeHas s f .load (x.num / 8))) ∧
      (∀ u ∈ t.updates, ¬(u.core = s.w.core ∧ RangeHas s f .load (u.pa / 1024))) ∧
      ((∀ u ∈ s.updates, ¬(u.core = s.w.core ∧ RangeHas s f .load (u.pa / 1024))) → t = { s with l1 := t.l1 } ∧
        ∀ x, x ∈ t.l1 ↔ x ∈ s.l1 ∧ ¬(x.core = s.w.core ∧ RangeHas s f .load (x.num / 8)))) ∧
    RangeRuns (.icinv f) f .fetch 0 (fun _ => False) (fun s t => t = { s with icache := t.icache } ∧
      ∀ x, x ∈ t.icache ↔ x ∈ s.icache ∧ ¬RangeHas s f .fetch (x.num / 8)) ∧
    RangeRuns (.cunpin f) f .load 0 (fun _ => False) (fun s t => t = { s with lines := t.lines } ∧
      ∀ x, x ∈ t.lines ↔ ∃ y ∈ s.lines,
        (RangeHas s f .load y.num ∧ x = { y with pins := y.pins.filter fun c => c ≠ s.w.ctx }) ∨
        (¬RangeHas s f .load y.num ∧ x = y)) ∧
    RangeRuns (.cwb f) f .load 0
      (fun s => ∃ o ∈ s.w.ops, o.perf ≠ o.lanes ∧ o.ctr ≠ 2 ∧ writesMem o.i = true ∧ onScratch o.i = false ∧
        ∃ a ∈ o.sites, RangeHas s f .load (a.2 / 1024))
      (fun s t =>
        (∀ p ∈ t.pending, ¬(p.core = s.w.core ∧ RangeHas s f .load (p.pa / 1024))) ∧
        (∀ u ∈ t.updates, ¬(u.core = s.w.core ∧ RangeHas s f .load (u.pa / 1024))) ∧
        (∀ x ∈ t.lines, RangeHas s f .load x.num → x.dirty = 0) ∧
        ((∀ p ∈ s.pending, ¬(p.core = s.w.core ∧ RangeHas s f .load (p.pa / 1024))) →
          (∀ u ∈ s.updates, ¬(u.core = s.w.core ∧ RangeHas s f .load (u.pa / 1024))) → t = { s with lines := t.lines } ∧
          ∀ x, x ∈ t.lines ↔ ∃ y ∈ s.lines, (RangeHas s f .load y.num ∧ x = { y with dirty := 0 }) ∨
            (¬RangeHas s f .load y.num ∧ x = y))) ∧
    (f.d < 8 → RangeRuns (.cpin f) f .load (dstOf 3 f.d) (fun _ => False) (fun s t =>
      t = { s with w := { s.w with p := t.w.p, changed := t.w.changed }, lines := t.lines, fresh := t.fresh
                   evicted := t.evicted } ∧
      ∃ b : Bool, PredicateIs f.d (fun _ => b) s t ∧ (b = false → t.lines = s.lines ∧ t.evicted = s.evicted) ∧
        ((∃ va leaf, va ∈ rangeLines s.w f ∧ checkGlobal s { need := .load } 4 va = .ok leaf ∧ leaf.cached = false) →
          b = false) ∧
        (b = true → pinCount t s.w.ctx ≤ ((s.context s.w.ctx).map Context.pinQuota).getD 0 ∧
          ∀ num, RangeHas s f .load num → ∃ x ∈ t.lines, x.num = num ∧ s.w.ctx ∈ x.pins)))) ∧
  (∀ (f : SF) (s : State), exec (.fetchbar f) s = .next { s with w := { s.w with fetched := [] } }) ∧
  (∀ (f : MF) (s : State), Gives (exec (.pref f) s) fun t => s.pending = [] → s.updates = [] →
    t = { s with l1 := t.l1, lines := t.lines, fresh := t.fresh, evicted := t.evicted })

/-! ## Copy and layout engines, PUT (R232-R263) -/

/-- R236, R241, R245, R252, R259: COPY, LAYOUT and PUT issue one command. CWAIT waits for the slots its mask names or
for the barrier's poison, then writes the status and makes its acquire; its condition is tested at issue and when an
engine sets a slot of the barrier, and with its result its wave goes on. CSEAL seals a batch; CBWAIT seals it,
waits for its commands, writes its status and frees the slot. The steps of an engine are the model's (log entries
1 and 27). -/
def Obligations.CopyCommands : Prop :=
  CommandRuns .copy 0 (fun f s l => [(s.w.spair f.sa).toNat, (s.w.vpair l f.vb).toNat, (s.w.vreg l f.va).toNat,
    (s.w.vreg l (f.va + 1)).toNat, (s.w.vreg l (f.va + 2)).toNat, (s.w.vreg l (f.va + 3)).toNat,
    (s.w.vreg l (f.va + 4)).toNat]) (fun _ => true) ∧
  CommandRuns .layout 1 (fun f s l => [(s.w.spair f.sa).toNat, (s.w.spair (f.sa + 2)).toNat,
    (s.w.spair (f.sa + 4)).toNat] ++ coords s.w l f.va ++ coords s.w l f.vb) layoutRoom ∧
  CommandRuns .put 2 (fun f s l => [(s.w.spair f.sa).toNat, (s.w.spair (f.sa + 2)).toNat,
    (s.w.spair (f.sa + 4)).toNat, (s.w.vreg l f.va).toNat, (s.w.vreg l f.vb).toNat]) layoutRoom ∧
  (∀ (f : V3) (s : State) (cell : Nat), s.w.active ≠ 0 →
    let bar := (s.w.sreg f.a).toNat
    let expect := readScratch s.scratch cell 2
    let poisoned := readScratch s.scratch (cell + 8) 1 % 2 = 1
    let set_ := fun (k : Nat) => readScratch s.scratch (cell + 16 + 4 * (k / 32)) 4 / 2 ^ (k % 32) % 2 = 1
    let past := poisoned ∨ ∀ i, i < 64 → (s.w.spair f.b).getLsbD i = true → expect ≤ 64 * f.t + i ∨ set_ (64 * f.t + i)
    bar % 16 = 0 → scratchCell s bar 16 = some cell →
    (¬past → exec (.cwait f) s = .next { s with w := { s.w with hold := .cwait cell f.t (s.w.spair f.b) f.d none } }) ∧
    (past → Gives (exec (.cwait f) s) fun t =>
      t = { s with w := { s.w with s := t.w.s, changed := t.w.changed }, l1 := t.l1 } ∧
      (∀ x, x ∈ t.l1 ↔ x ∈ s.l1 ∧ x.core ≠ s.w.core) ∧
      (poisoned → ScalarIs f.d (BitVec.ofNat 32 (256 * readScratch s.scratch (cell + 9) 1 + 1)) s t) ∧
      (¬poisoned → ScalarIs f.d 0 s t))) ∧
  (∀ (s : State) (a t d k : Nat) (mask : Lanes), s.w.on = true → s.w.hold = .cwait a t mask d none →
    let u := setSlot a k s
    let set_ := fun (i : Nat) => readScratch u.scratch (a + 16 + 4 * (i / 32)) 4 / 2 ^ (i % 32) % 2 = 1
    let past := readScratch u.scratch (a + 8) 1 % 2 = 1 ∨
      ∀ i, i < 64 → mask.getLsbD i = true → readScratch u.scratch a 2 ≤ 64 * t + i ∨ set_ (64 * t + i)
    (¬past → u.w.hold = .cwait a t mask d none) ∧
    (past → u.w.hold = .cwait a t mask d (some (if readScratch u.scratch (a + 8) 1 % 2 = 1
      then BitVec.ofNat 32 (256 * readScratch u.scratch (a + 9) 1 + 1) else 0)))) ∧
  (∀ (s : State) (a t d : Nat) (mask : Lanes) (v : Word), s.w.on = true → s.w.ended = false →
    s.w.hold = .cwait a t mask d (some v) → s.w.clause = none → ∃ u, issueTurn s = .done u ∧ ScalarIs d v s u ∧
      u.w.hold = .none ∧ ∀ x, x ∈ u.l1 ↔ x ∈ s.l1 ∧ x.core ≠ s.w.core) ∧
  (∀ (f : V3) (s : State), s.w.active ≠ 0 → (s.w.sreg f.a).toNat % 16 ≠ 0 → exec (.cwait f) s =
    .next (raise .memAlign s.w.active (dstOf 2 f.d) ((s.w.sreg f.a).setWidth 64) s)) ∧
  (∀ (f : SF) (s : State), s.w.active ≠ 0 →
    let b : Batch := SMap.get {} s.w.batches f.imm
    (Gives (exec (.cseal f) s) fun t => t = { s with w := { s.w with batches := t.w.batches } } ∧
      ∀ k, SMap.get {} t.w.batches k = if k = f.imm then { b with state := 2 } else SMap.get {} s.w.batches k) ∧
    (b.incomplete ≠ 0 → Gives (exec (.cbwait f) s) fun t => t.w.hold = .again (.cbwait f) ∧
      t = { s with w := { s.w with batches := t.w.batches, hold := t.w.hold } } ∧
      ∀ k, SMap.get {} t.w.batches k = if k = f.imm then { b with state := 2 } else SMap.get {} s.w.batches k) ∧
    (b.incomplete = 0 → Gives (exec (.cbwait f) s) fun t =>
      t = { s with w := { s.w with batches := t.w.batches, s := t.w.s, changed := t.w.changed }, l1 := t.l1 } ∧
      (∀ k, SMap.get {} t.w.batches k = if k = f.imm then {} else SMap.get {} s.w.batches k) ∧
      ScalarIs f.sd (BitVec.ofNat 32 (if b.err = 0 then 0 else 256 * b.err + 1)) s t))

/-- R233, R234, R239-R243, R246, R250, R254-R257, R261: the engines. A COPY, LAYOUT or PUT is accepted when its records
pass their checks, and is poisoned with the code of the first that fails; it then reserves its slots at NEXT, or
overruns (0x39) or has a bitmap beyond its region (0x21); that a reserved bit of its barrier gives it 0x02, and that 0x39
goes before 0x21, is the model's choice (log entry 73). The moves of a chunk are those of R234 and R255, and a chunk
that lands leaves every element, or its fill value, at its destination, with the full/empty bits of the policy; its
slot is then set: its bit of the bitmap and DONE, and PHASE when DONE reaches EXPECT. A page without the FE that the
policy needs poisons with 0x29. A PUT that another node sends is written and its counter rises, or it is refused; the
answer goes back. The steps of an engine are the model's (log entries 1 and 27), and the steps of a PUT those of log
entry 28. -/
def Obligations.CopyEngines : Prop :=
  (∀ (s : State) (c : Cmd), Offered s c 2 → Reserves c 1 c s) ∧
  (∀ (s : State) (c : Cmd) (v : Nat), Offered s c 0 →
    let a := c.nums.getD 0 0
    let tile := if recMODE v < 2 then c.nums.getD 1 0 % 2 ^ 32 else c.nums.getD 1 0
    let odd := recFMT v = 5 ∧ (recEXTENT v 0 % 2 ≠ 0 ∨ recBOX v 0 % 2 ≠ 0 ∨ c.nums.getD 2 0 % 2 ≠ 0)
    let fine := ¬RecordMalformed v ∧ ¬(RecordMisaligned v ∨ tile % recES v ≠ 0 ∨ odd)
    let n := (recBYTES v + 511) / 512
    (a % 128 ≠ 0 → Gives (exec (.evCopyAccept c.id) s) (Poisons c 0x20 s)) ∧
    (RecordRead s c a v →
      (RecordMalformed v → Gives (exec (.evCopyAccept c.id) s) (Poisons c 0x02 s)) ∧
      (¬RecordMalformed v → (RecordMisaligned v ∨ tile % recES v ≠ 0 ∨ odd) →
        Gives (exec (.evCopyAccept c.id) s) (Poisons c 0x20 s)) ∧
      (fine → recMODE v < 2 → cellAt c.tags c.rank c.scratch c.column tile (recBYTES v) = none →
        Gives (exec (.evCopyAccept c.id) s) (Poisons c 0x21 s)) ∧
      (∀ cell, fine → recMODE v < 2 → cellAt c.tags c.rank c.scratch c.column tile (recBYTES v) = some cell →
        Reserves c n { c with record := toBytes 128 v, nums := c.nums.set 1 cell } s ∧
        ∀ t, exec (.evCopyAccept c.id) s = .next t → t.cmds ≠ [] → resident s cell = true → ∀ b, b % 4 = 0 →
          scratchFull t b = if recMODE v = 0 ∧ recFEPOL v = 0 ∧ cell / 4 * 4 ≤ b ∧ b < cell + recBYTES v then false
            else scratchFull s b) ∧
      (fine → 2 ≤ recMODE v → Reserves c n { c with record := toBytes 128 v } s))) ∧
  (∀ (s : State) (c : Cmd) (v w : Nat), Offered s c 1 →
    let a := c.nums.getD 0 0
    let b := c.nums.getD 1 0
    let map := c.nums.getD 2 0
    let order3 := RecordMalformed v ∨ RecordMalformed w ∨ recMODE v ≠ 0 ∨ recMODE w ≠ 0 ∨ recFEPOL v ≠ 0 ∨
      recFEPOL w ≠ 0 ∨ recFMT v ≠ recFMT w ∨ recFMT v = 5
    (a % 128 ≠ 0 ∨ b % 128 ≠ 0 → Gives (exec (.evCopyAccept c.id) s) (Poisons c 0x20 s)) ∧
    (RecordRead s c a v → RecordRead s c b w →
      (order3 ∨ MappingBad map v w → Gives (exec (.evCopyAccept c.id) s) (Poisons c 0x02 s)) ∧
      (¬(order3 ∨ MappingBad map v w) → (RecordMisaligned v ∨ RecordMisaligned w) →
        Gives (exec (.evCopyAccept c.id) s) (Poisons c 0x20 s)) ∧
      (¬(order3 ∨ MappingBad map v w) → ¬(RecordMisaligned v ∨ RecordMisaligned w) →
        Reserves c ((recBYTES v + 511) / 512) { c with record := toBytes 128 v ++ toBytes 128 w } s))) ∧
  (∀ (s : State) (c : Cmd), s.cmds = [c] → c.kind = 1 → c.accepted = true → c.started = false →
    exec (.evLayoutStart (c.core / 4)) s = .next { s with cmds := [{ c with started := true }] }) ∧
  (∀ (c : Cmd) (v k : Nat) (m : Move), c.kind = 0 → c.record = toBytes 128 v → v < 2 ^ 1024 → ¬RecordMalformed v →
    (m ∈ c.moves k → ∃ lin, lin * recES v / 512 = k ∧ lin * recES v < recBYTES v ∧
      CopyMoveIs v (c.nums.drop 2) (c.nums.getD 1 0) lin m) ∧
    (∀ lin, lin * recES v / 512 = k → lin * recES v < recBYTES v →
      ∃ x ∈ c.moves k, CopyMoveIs v (c.nums.drop 2) (c.nums.getD 1 0) lin x)) ∧
  (∀ (c : Cmd) (v w k : Nat) (m : Move), c.kind = 1 → c.record = toBytes 128 v ++ toBytes 128 w → v < 2 ^ 1024 →
    w < 2 ^ 1024 → ¬RecordMalformed v → ¬RecordMalformed w → ¬MappingBad (c.nums.getD 2 0) v w →
    recFMT v = recFMT w → recFMT v ≠ 5 →
    let is := LayoutMoveIs (c.nums.getD 2 0) v w (c.nums.drop 3) (c.nums.drop 8)
    (m ∈ c.moves k → m.off / 512 = k ∧ ∃ lin, lin * recES v < recBYTES v ∧ is lin m) ∧
    (∀ lin, lin * recES v < recBYTES v → is lin m → m.off / 512 = k → m ∈ c.moves k)) ∧
  (∀ (s : State) (c : Cmd) (k part : Nat), s.cmds = [c] → (c.kind = 0 ∨ (c.kind = 1 ∧ c.started = true)) →
    c.accepted = true → c.todo = [k] → c.packet = none → c.tag = 0 → c.base + k < 256 → resident s c.bar = true →
    c.bar % 16 = 0 → s.pending = [] → s.updates = [] → s.l1 = [] →
    (∀ m ∈ c.moves k, MoveFits s c m) →
    (∀ m ∈ c.moves k, ∀ m' ∈ c.moves k, m ≠ m' → ∀ y, spot s c .store m.dst = some y →
      (∀ x, spot s c .load m'.src = some x → ¬SpotsMeet y m.n x m'.n) ∧
      ∀ x, spot s c .store m'.dst = some x → ¬SpotsMeet y m.n x m'.n) →
    ((∃ m, c.moves k = [m]) ∨ ∀ m ∈ c.moves k, ∃ a, m.dst = .cell a) →
    Gives (exec (.evChunkComplete c.id k part) s) fun t => t.cmds = [] ∧ (∀ m ∈ c.moves k, MoveLands s t c m) ∧
      SlotSet c.bar (c.base + k) s t ∧
      (∀ a, a < 0x1F00000000 → (∀ m ∈ c.moves k, ∀ b, spot s c .store m.dst = some (false, b) → a < b ∨ b + m.n ≤ a) →
        readByte t.mem a = readByte s.mem a) ∧
      (∀ a, a < c.bar ∨ c.bar + 48 ≤ a →
        (∀ m ∈ c.moves k, ∀ b, spot s c .store m.dst = some (true, b) → a < b ∨ b + m.n ≤ a) →
        scratchByte t.scratch a = scratchByte s.scratch a)) ∧
  (∀ (s : State) (c : Cmd) (k part va : Nat) (leaf : Leaf) (m : Move), s.cmds = [c] →
    (c.kind = 0 ∨ (c.kind = 1 ∧ c.started = true)) → c.accepted = true → c.todo = [k] → c.packet = none → c.tag = 0 →
    resident s c.bar = true → c.moves k = [m] → m.src = .glob va → va < 2 ^ 52 →
    xlate s c.unit c.ctx va .load = .ok leaf →
    (leaf.fe = false → c.policy = 1 ∨ c.policy = 3 →
      Gives (exec (.evChunkComplete c.id k part) s) (Poisons c 0x29 s)) ∧
    (leaf.fe = true ∨ c.policy = 0 ∨ c.policy = 2 → s.poison.contains (leaf.addr va / 128) = true →
      Gives (exec (.evChunkComplete c.id k part) s) (Poisons c 0x24 s))) ∧
  (∀ (s : State) (c : Cmd), s.cmds = [c] → c.kind = 2 → c.started = true → c.packet = none → resident s c.bar = true →
    c.bar % 16 = 0 → c.base < 256 → (∀ h ∈ s.plat.held, ¬(h.kind = 0 ∧ h.id = c.id)) →
    Gives (exec (.evPutack c.id 0) s) fun t => t.cmds = [] ∧ t.mem = s.mem ∧ SlotSet c.bar c.base s t ∧
      ∀ b, b < c.bar ∨ c.bar + 48 ≤ b → scratchByte t.scratch b = scratchByte s.scratch b) ∧
  (∀ (s : State) (m : PutMsg) (x y b0 b1 b2 b3 b4 b5 b6 b7 : Nat), m.pieces = [(x, 4), (y, 4)] →
    m.data = [b0, b1, b2, b3, b4, b5, b6, b7] → s.updates = [] →
    (∃ c ∈ s.contexts, c.id < 4096 ∧ c.fabric.testBit m.src = true) →
    Sound s x 4 → Sound s y 4 → Sound s m.counter 4 → (x + 4 ≤ y ∨ y + 4 ≤ x) →
    (x + 4 ≤ m.counter ∨ m.counter + 4 ≤ x) → (y + 4 ≤ m.counter ∨ m.counter + 4 ≤ y) →
    Gives (exec (.evPutMessage m) s) fun t =>
      let word := fun (b c d e : Nat) => b % 256 + 256 * (c % 256 + 256 * (d % 256 + 256 * (e % 256)))
      readMem t.mem x 4 = word b0 b1 b2 b3 ∧ readMem t.mem y 4 = word b4 b5 b6 b7 ∧
      readMem t.mem m.counter 4 = (readMem s.mem m.counter 4 + m.increment) % 2 ^ 32 ∧
      (∀ a, (a < x ∨ x + 4 ≤ a) → (a < y ∨ y + 4 ≤ a) → (a < m.counter ∨ m.counter + 4 ≤ a) →
        readByte t.mem a = readByte s.mem a) ∧
      t.out = s.out ++ [{ kind := 5, dest := m.src, data := [m.id, 0] }] ∧ t.w = s.w ∧ t.scratch = s.scratch) ∧
  (∀ (s : State) (m : PutMsg), (∀ c ∈ s.contexts, c.id < 4096 → c.fabric.testBit m.src = false) ∨
    (∃ p ∈ m.pieces, 0x1F00000000 < p.1 + p.2) ∨ 0x1F00000000 < m.counter + 4 → exec (.evPutMessage m) s =
    .next { s with out := s.out ++ [{ kind := 5, dest := m.src, data := [m.id, 0x22] }] })

/-! ## Vertical FIFOs (R406-R412) -/

/-- R406, R408-R411: VPUSH appends one entry of 64 words, the ACTIVE lanes' registers and 0 elsewhere; VPOP takes the
oldest available entry of its context into the ACTIVE lanes; each waits while it cannot, and VPUSH until the wave's
earlier accesses have been performed, for its release; a FIFO that is DOWN clears the predicate that the instruction
names. An entry for a core whose island is closing is dropped and counted (R412, R417). VFREE counts. An entry becomes
available in order. -/
def Obligations.VerticalFifos : Prop :=
  (∀ (f : V3) (s : State), s.w.active ≠ 0 →
    let k := 2 * (16 * (s.w.core / 32) + s.w.core % 16) + (if s.w.core % 32 < 16 then 0 else 1)
    let fifo := s.fifo k
    (fifo.down = true → f.xw = none → exec (.vpush f) s = .next { s with w := { s.w with hold := .again (.vpush f) } }) ∧
    (∀ x, fifo.down = true → f.xw = some x → Gives (exec (.vpush f) s)
      (PredicateResult (x.c % 8) (fun _ => false) s)) ∧
    (fifo.down = false → 16 ≤ fifo.entries.length ∨ (∃ o ∈ s.w.ops, o.perf ≠ o.lanes ∧ o.ctr ≠ 2) →
      exec (.vpush f) s = .next { s with w := { s.w with hold := .again (.vpush f) } }) ∧
    (fifo.down = false → fifo.entries.length < 16 → (∀ o ∈ s.w.ops, o.perf = o.lanes ∨ o.ctr = 2) →
      s.pending = [] → s.updates = [] → pushDropped s k = true → Gives (exec (.vpush f) s) fun t =>
        t = { s with w := t.w, plat := { s.plat with vfdiag := t.plat.vfdiag } } ∧
        (∀ j, SMap.get 0 t.plat.vfdiag j = if j = k / 2 then min 0xFFFF (SMap.get 0 s.plat.vfdiag j + 1)
          else SMap.get 0 s.plat.vfdiag j) ∧
        (∀ x, f.xw = some x → PredicateIs (x.c % 8) (fun _ => true) s t)) ∧
    (fifo.down = false → fifo.entries.length < 16 → (∀ o ∈ s.w.ops, o.perf = o.lanes ∨ o.ctr = 2) →
      s.pending = [] → s.updates = [] → pushDropped s k = false → Gives (exec (.vpush f) s) fun t =>
        t = { s with w := t.w, plat := { s.plat with fifos := t.plat.fifos } } ∧ t.w.v = s.w.v ∧ t.w.s = s.w.s ∧
        (∀ j, j ≠ k → t.fifo j = s.fifo j) ∧
        (∃ e : FifoEntry, t.fifo k = { fifo with entries := fifo.entries ++ [e] } ∧ e.ctx = s.w.ctx ∧ e.ready = false ∧
          ∀ l, e.data.getD l 0 = if Active s l then s.w.vreg l f.a else 0) ∧
        (f.xw = none → t.w.p = s.w.p) ∧
        (∀ x, f.xw = some x → PredicateIs (x.c % 8) (fun _ => true) s t))) ∧
  (∀ (f : V3) (s : State), s.w.active ≠ 0 → f.d < 128 →
    let k := 2 * (16 * (s.w.core / 32) + s.w.core % 16) + (if s.w.core % 32 < 16 then 1 else 0)
    let fifo := s.fifo k
    (∀ (pre post : List FifoEntry) (e : FifoEntry), fifo.entries = pre ++ e :: post → (∀ d ∈ pre, d.ctx ≠ s.w.ctx) →
      e.ctx = s.w.ctx →
      (e.ready = false → exec (.vpop f) s = .next { s with w := { s.w with hold := .again (.vpop f) } }) ∧
      (e.ready = true → Gives (exec (.vpop f) s) fun t =>
        t = { s with w := { s.w with v := t.w.v, p := t.w.p, changed := t.w.changed }, l1 := t.l1
                     plat := { s.plat with fifos := t.plat.fifos } } ∧
        t.fifo k = { fifo with entries := pre ++ post } ∧ (∀ j, j ≠ k → t.fifo j = s.fifo j) ∧
        VectorIs f.d (fun l => e.data.getD l 0) s t ∧ (f.xw = none → t.w.p = s.w.p) ∧
        (∀ x, f.xw = some x → PredicateIs (x.c % 8) (fun _ => true) s t))) ∧
    ((∀ d ∈ fifo.entries, d.ctx ≠ s.w.ctx) →
      (∀ x, fifo.down = true → f.xw = some x → Gives (exec (.vpop f) s)
        (PredicateResult (x.c % 8) (fun _ => false) s)) ∧
      (fifo.down = false ∨ f.xw = none →
        exec (.vpop f) s = .next { s with w := { s.w with hold := .again (.vpop f) } }))) ∧
  (∀ (f : SF) (s : State),
    let pair := 2 * (16 * (s.w.core / 32) + s.w.core % 16)
    let lower := if s.w.core % 32 < 16 then 1 else 0
    let out := s.fifo (pair + (1 - lower))
    let into := s.fifo (pair + lower)
    let flag := fun (x : Fifo) => if x.down = true then 2 ^ 31 else 0
    Gives (exec (.vfree f) s) (ScalarResult f.sd (BitVec.ofNat 32 (if f.imm % 2 = 1
      then (into.entries.countP fun e => e.ready && e.ctx == s.w.ctx) + flag into
      else 16 - out.entries.length + flag out)) s)) ∧
  (∀ (pair dir : Nat) (s : State) (pre post : List FifoEntry) (e : FifoEntry), pair < 64 → dir < 2 →
    (s.fifo (2 * pair + dir)).entries = pre ++ e :: post → (∀ d ∈ pre, d.ready = true) → e.ready = false →
    Gives (exec (.evFifoEntryAvailable pair dir) s) fun t =>
      t = { s with plat := { s.plat with fifos := t.plat.fifos } } ∧
      t.fifo (2 * pair + dir) = { s.fifo (2 * pair + dir) with entries := pre ++ { e with ready := true } :: post } ∧
      ∀ j, j ≠ 2 * pair + dir → t.fifo j = s.fifo j)

/-! ## Versions (R355-R374) -/

/-- R356, R364-R370, R372-R374: the version instructions. VFORK makes LIVE children of the current tag from the lowest
FREE tags, or answers false; VSET takes a LIVE tag that is its own or a descendant; VCOMMIT and VSQUASH answer 1
for a tag that is not LIVE and 2 for one that the wave may not end; VDEADL sets a deadline; VQUERY reads the
status word. VCOMMIT merges the sectors and log of its version into the parent, squashes the version's siblings with
their descendants, and hands its children, waves and deadline to the parent (R368). A deadline that passes sets DMISS; an ended
tag that nothing carries becomes FREE. When a tag becomes FREE and when a deadline's expiry has been performed are the readings of log entry 32. -/
def Obligations.Versions : Prop :=
  ∀ (f : SF) (s : State) (c : Context), s.context s.w.ctx = some c → s.w.active ≠ 0 → s.w.on = true →
    let ctx := s.w.ctx
    let cur := s.w.version
    let tag := (s.w.sreg f.sa).toNat % 16
    let g := tagOf s ctx tag
    let performed := (∀ o ∈ s.w.ops, o.perf = o.lanes ∨ o.ctr = 2) ∧ s.pending = [] ∧ s.updates = []
    (let n := (s.w.sreg f.sa).toNat
     let free := (List.range 16).filter fun t => t ≠ 0 ∧ (tagOf s ctx t).state = 0
     (n = 0 ∨ 8 < n → exec (.vfork f) s = .next (raise .rsvdField s.w.active (dstOf 2 f.sd) 0 s)) ∧
     (1 ≤ n → n ≤ 8 → ((tagOf s ctx cur).state ≠ 1 ∨ (tagOf s ctx cur).depth = 2 ∨ free.length < n) →
       Gives (exec (.vfork f) s) fun t => ScalarIs f.sd 0 s t ∧ PredicateIs (f.imm % 8) (fun _ => false) s t ∧
         t = { s with w := { s.w with s := t.w.s, p := t.w.p, changed := t.w.changed } }) ∧
     (1 ≤ n → n ≤ 8 → (tagOf s ctx cur).state = 1 → (tagOf s ctx cur).depth ≠ 2 → n ≤ free.length → performed →
       Gives (exec (.vfork f) s) fun t => PredicateIs (f.imm % 8) (fun _ => true) s t ∧
         t = { s with w := { s.w with s := t.w.s, p := t.w.p, changed := t.w.changed }, contexts := t.contexts
                      l1 := t.l1 } ∧
         (∀ k, tagOf t ctx k = if k ∈ free.take n then { state := 1, parent := cur, depth := (tagOf s ctx cur).depth + 1 }
           else tagOf s ctx k) ∧
         (∀ x, x ∈ t.l1 ↔ x ∈ s.l1 ∧ ¬(x.ctx = ctx ∧ x.tag ∈ free.take n)) ∧
         ∀ j, j < n → (t.w.sreg f.sd).toNat / 16 ^ j % 16 = (free.take n).getD j 0)) ∧
    (let mine := tag = cur ∨ isAncestor s ctx cur tag = true
     ((g.state ≠ 1 ∨ ¬mine) → exec (.vset f) s = .next (raise .version s.w.active 0 0 s)) ∧
     (g.state = 1 → mine → performed →
       exec (.vset f) s = .next { s with w := { s.w with version := tag } })) ∧
    (let kids := (List.range 16).countP fun k => k ≠ 0 ∧ (tagOf s ctx k).state = 1 ∧ (tagOf s ctx k).parent = tag
     let ended := g.reason * 2 ^ 8 + if g.dmiss = true then 2 ^ 13 else 0
     Gives (exec (.vquery f) s) (ScalarResult f.sd (BitVec.ofNat 32 (if tag = 0 then 0x40 + kids * 2 ^ 16
       else if g.state = 0 then ended
       else g.parent + g.depth * 2 ^ 4 + g.state * 2 ^ 6 + ended + (if g.dset = true then 2 ^ 12 else 0)
         + kids * 2 ^ 16)) s)) ∧
    ((tag = 0 ∨ g.state ≠ 1) → Gives (exec (.vcommit f) s) (ScalarResult f.sd 1 s) ∧
      Gives (exec (.vsquash f) s) (ScalarResult f.sd 1 s) ∧ Gives (exec (.vdeadl f) s) (ScalarResult f.sd 1 s)) ∧
    (tag ≠ 0 → g.state = 1 →
      (let d := (s.w.spair f.sb).toNat
       Gives (exec (.vdeadl f) s) fun t => ScalarIs f.sd 0 s t ∧
         t = { s with w := { s.w with s := t.w.s, changed := t.w.changed }, contexts := t.contexts } ∧
         ∀ k, tagOf t ctx k = if k = tag then { g with deadline := d, dset := decide (d ≠ 0), expired := false }
           else tagOf s ctx k) ∧
      (cur ≠ tag → cur ≠ g.parent → Gives (exec (.vcommit f) s) (ScalarResult f.sd 2 s)) ∧
      (cur ≠ tag → isAncestor s ctx cur tag = false → Gives (exec (.vsquash f) s) (ScalarResult f.sd 2 s)) ∧
      ((cur = tag ∨ cur = g.parent) → (∃ o ∈ s.w.ops, o.perf ≠ o.lanes ∧ o.ctr ≠ 2) →
        exec (.vcommit f) s = .next { s with w := { s.w with hold := .again (.vcommit f) } }) ∧
      ((cur = tag ∨ cur = g.parent) → performed → CommitsAlone ctx tag s →
        Gives (exec (.vcommit f) s) fun t => ScalarIs f.sd 0 s t ∧ t.w.version = g.parent ∧ Committed ctx tag s t) ∧
      (cur ≠ tag → isAncestor s ctx cur tag = true → children s ctx tag = [] →
        (∀ w ∈ allWaves s, w.version ≠ tag) → s.st = {} → s.streams = [] → Gives (exec (.vsquash f) s) fun t =>
          ScalarIs f.sd 0 s t ∧ (tagOf t ctx tag).state = 2 ∧ (tagOf t ctx tag).reason = 1 ∧ t.mem = s.mem ∧
          (∀ x, x ∈ t.sectors ↔ x ∈ s.sectors ∧ ¬(x.ctx = ctx ∧ x.tag = tag)) ∧
          (∀ e, e ∈ t.logs ↔ e ∈ s.logs ∧ ¬(e.ctx = ctx ∧ e.tag = tag))) ∧
      (g.dset = true → g.expired = false → (g.deadline : Int) < timeNow s → s.plat.frames = [] →
        Gives (exec (.evDeadlineExpiry ctx tag) s) fun t => (tagOf t ctx tag).dmiss = true ∧
          (tagOf t ctx tag).expired = true ∧ (tagOf t ctx tag).state = 1) ∧
      (g.dset = false → exec (.evDeadlineExpiry ctx tag) s = .next s)) ∧
    (2 ≤ g.state → tag ≠ 0 → tagUnused s ctx tag = true → Gives (exec (.evTagReclaim ctx tag) s) fun t =>
      t = { s with contexts := t.contexts } ∧
      ∀ k, tagOf t ctx k = if k = tag then { reason := g.reason, dmiss := g.dmiss } else tagOf s ctx k)

/-! ## Matrix sequencer and engine (R264-R294) -/

/-- R267-R272, R277-R279, R286: MFORK starts the cohort's stream or answers that one runs; MJOIN waits while it runs
and then writes STATUS. The words that act in the sequencer change only its registers, loop stack and claims and
the word index; a slot that becomes claimed has no tag, and an accumulator is 0. MBARA arrives at a barrier of the
cohort and MBARW waits on one; MHALT ends the stream. TRAPDST of MFORK and MJOIN is their destination (R77, log entry
30). A word that waits is tried again at the stream's next turn (log entry 1); claims and releases act as log entry 29
says. -/
def Obligations.MatrixStreams : Prop :=
  (∀ (f : SF) (s : State) (l : Launch), s.myLaunch = some l → s.w.active ≠ 0 →
    (l.kernel.matrix = false → exec (.mfork f) s = .next (raise .illegalOp s.w.active (dstOf 3 (f.sd % 8)) 0 s) ∧
      exec (.mjoin f) s = .next (raise .illegalOp s.w.active (dstOf 2 f.sd) 0 s)) ∧
    (l.kernel.matrix = true → l.kernel.mlen ≤ (s.w.sreg f.sa).toNat →
      exec (.mfork f) s = .next (raise .rsvdField s.w.active (dstOf 3 (f.sd % 8)) 0 s)) ∧
    (∀ x, l.kernel.matrix = true → (s.w.sreg f.sa).toNat < l.kernel.mlen → s.stream s.w.cohort = some x →
      (x.state = 1 → Gives (exec (.mfork f) s) (PredicateResult (f.sd % 8) (fun _ => false) s)) ∧
      (x.state ≠ 1 → (∃ o ∈ s.w.ops, o.perf ≠ o.lanes ∧ o.ctr ≠ 2) →
        exec (.mfork f) s = .next { s with w := { s.w with hold := .again (.mfork f) } }) ∧
      (x.state ≠ 1 → (∀ o ∈ s.w.ops, o.perf = o.lanes ∨ o.ctr = 2) → s.pending = [] → s.updates = [] →
        Gives (exec (.mfork f) s) fun t => PredicateIs (f.sd % 8) (fun _ => true) s t ∧
          t = { s with w := { s.w with p := t.w.p, changed := t.w.changed }, st := t.st, streams := t.streams
                       nextId := s.nextId + 1 } ∧
          ∃ y : Stream, t.stream s.w.cohort = some y ∧ y.state = 1 ∧ y.idx = (s.w.sreg f.sa).toNat ∧
            (∀ n, y.reg n = if n = 0 then s.w.spair f.sb else 0) ∧ y.loops = [] ∧ y.fetched = [] ∧
            y.version = s.w.version ∧ y.forker = s.w.id ∧ y.forkLanes = s.w.active ∧ y.claims = x.claims ∧
            y.forkCore = s.w.core ∧ y.forkSlot = s.w.slot ∧ y.forkPart = s.w.part ∧ y.aq = fpAq s.w.fpmode ∧
            y.run = s.nextId ∧
            Active s y.leader ∧ ∀ j, j < y.leader → ¬Active s j)) ∧
    (∀ x, l.kernel.matrix = true → s.stream s.w.cohort = some x →
      (x.state = 1 → exec (.mjoin f) s = .next { s with w := { s.w with hold := .again (.mjoin f) } }) ∧
      (x.state ≠ 1 → Gives (exec (.mjoin f) s) fun t => ScalarIs f.sd (BitVec.ofNat 32 x.status) s t ∧
        t = { s with w := { s.w with s := t.w.s, changed := t.w.changed }, l1 := t.l1 } ∧
        ∀ y, y ∈ t.l1 ↔ y ∈ s.l1 ∧ y.core ≠ s.w.core))) ∧
  (∀ s : State, s.st.on = true → s.st.state = 1 → s.st.parked = none →
    let x := s.st
    let waits := fun (p : EngineWord → Prop) => ∃ e ∈ s.engine, e.lost = false ∧ e.cohort = x.cohort ∧ p e
    let moves := waits fun e => isMove e.i = true
    let regs := fun (i : Instr) (d : Nat) (v : DWord) => Gives (exec i s) fun t =>
      t = { s with st := { x with x := t.st.x, idx := x.idx + 1 } } ∧
      ∀ n, t.st.reg n = if n = d then v else x.reg n
    (∀ fen, (fen = 1 → moves → exec (.mnop fen) s = .next s) ∧
      ((fen ≠ 1 ∨ ¬moves) → exec (.mnop fen) s = .next { s with st := { x with idx := x.idx + 1 } })) ∧
    (∀ xd q imm, q < 4 → regs (.msetStream xd q 0 imm) xd (BitVec.ofNat 64 (imm % 2 ^ 16 * 2 ^ (16 * q)))) ∧
    (∀ xd q imm, q < 4 → Gives (exec (.msetStream xd q 1 imm) s) fun t =>
      t = { s with st := { x with x := t.st.x, idx := x.idx + 1 } } ∧ (∀ n, n ≠ xd → t.st.reg n = x.reg n) ∧
      ∀ b, b < 64 → (t.st.reg xd).getLsbD b =
        if 16 * q ≤ b ∧ b < 16 * q + 16 then imm.testBit (b - 16 * q) else (x.reg xd).getLsbD b) ∧
    (∀ xd xa imm, regs (.maddImm xd xa imm) xd (x.reg xa + (BitVec.ofNat 15 imm).signExtend 64)) ∧
    (∀ xd xa xb, regs (.maddReg xd xa xb) xd (x.reg xa + x.reg xb)) ∧
    (∀ reg xc cnt, let n := if reg = 1 then (x.reg xc).toNat % 2 ^ 32 else cnt
      (4 ≤ x.loops.length → exec (.mloop reg xc cnt) s = .next (faultHere .illegalOp s)) ∧
      (x.loops.length < 4 → n ≠ 0 → exec (.mloop reg xc cnt) s =
        .next { s with st := { x with loops := (x.idx + 1, n) :: x.loops, idx := x.idx + 1 } })) ∧
    (x.loops = [] → exec .mend s = .next (faultHere .illegalOp s)) ∧
    (∀ start left rest, x.loops = (start, left) :: rest →
      (1 < left → exec .mend s = .next { s with st := { x with loops := (start, left - 1) :: rest, idx := start } }) ∧
      (left ≤ 1 → exec .mend s = .next { s with st := { x with loops := rest, idx := x.idx + 1 } })) ∧
    (∀ c : Cohort, s.cohort x.cohort = some c → c.waves ≠ 0 →
      (waits (fun _ => True) → exec .mhalt s = .next s) ∧
      (¬waits (fun _ => True) → Gives (exec .mhalt s) fun t => t.st = { x with state := 2, status := 0 } ∧
        t.mem = s.mem ∧ t.w = s.w)) ∧
    (∀ (c : Cohort) (b r : Nat) (y : Barrier), s.cohort x.cohort = some c → c.bars[b]? = some y →
      (moves → exec (.mbara b r) s = .next s) ∧
      (¬moves → (y.count = false ∨ y.expected < y.arrived + 1) →
        exec (.mbara b r) s = .next (faultHere .barrier s)) ∧
      (¬moves → y.count = true → y.arrived + 1 ≤ y.expected → Gives (exec (.mbara b r) s) fun t =>
        t = { s with cohorts := t.cohorts, st := { x with x := t.st.x, idx := x.idx + 1 } } ∧
        (∀ n, t.st.reg n = if n = r then y.gen.setWidth 64 else x.reg n) ∧
        t.cohort x.cohort = some { c with bars := c.bars.set b (if y.arrived + 1 = y.expected
          then { y with arrived := 0, gen := y.gen + 1 } else { y with arrived := y.arrived + 1 }) }) ∧
      (y.gen = (x.reg r).setWidth 32 → exec (.mbarw b r) s = .next s) ∧
      (y.gen ≠ (x.reg r).setWidth 32 →
        exec (.mbarw b r) s = .next { s with st := { x with idx := x.idx + 1, waits := x.waits + 1 } })) ∧
    (∀ (k : Kernel) (e kind mask : Nat), kernelOf s x.cohort = some k →
      let core := engineCore s x.cohort e
      let named := fun (q : Nat × Nat × Nat) => q.1 = core ∧ q.2.1 = kind ∧ q.2.2 < 16 ∧ mask.testBit q.2.2 = true
      let busy := waits fun w => w.core = core
      (k.teams ≤ e → exec (.mclaim e kind mask) s = .next (faultHere .rsvdField s) ∧
        exec (.mrel e kind mask) s = .next (faultHere .rsvdField s)) ∧
      (e < k.teams → busy → exec (.mclaim e kind mask) s = .next s ∧ exec (.mrel e kind mask) s = .next s) ∧
      (e < k.teams → ¬busy → (∃ y ∈ s.streams, y.cohort ≠ x.cohort ∧ ∃ q ∈ y.claims, named q) →
        exec (.mclaim e kind mask) s = .next s) ∧
      (e < k.teams → ¬busy → (∀ y ∈ s.streams, y.cohort = x.cohort ∨ ∀ q ∈ y.claims, ¬named q) →
        Gives (exec (.mclaim e kind mask) s) fun t =>
          t = { s with st := { x with claims := t.st.claims, idx := x.idx + 1 }, acc := t.acc, slotTag := t.slotTag } ∧
          (∀ q, q ∈ t.st.claims ↔ q ∈ x.claims ∨ named q) ∧
          (kind = 0 → t.acc = s.acc ∧ ∀ n, n < 16 → slotTagOf t core n =
            if mask.testBit n = true ∧ (core, 0, n) ∉ x.claims then none else slotTagOf s core n) ∧
          (kind = 1 → mask < 256 → t.slotTag = s.slotTag ∧ ∀ n r j, n < 8 → r < 128 → j < 128 → accElem t core n r j =
            if mask.testBit n = true ∧ (core, 1, n) ∉ x.claims then 0 else accElem s core n r j)) ∧
      (e < k.teams → ¬busy → Gives (exec (.mrel e kind mask) s) fun t =>
        t = { s with st := { x with claims := t.st.claims, idx := x.idx + 1 } } ∧
        ∀ q, q ∈ t.st.claims ↔ q ∈ x.claims ∧ ¬named q)))

/-- R67-R70, R264-R269, R276, R277, R280-R285: the words for an engine are sent to its queue with the registers they
read, wait while it is full, and fault for an engine that the cohort does not have. As they take effect on claimed slots
and accumulators: MZERO clears; MACT and MSCALE map every element; MMA and MMAS add the products of the rows of two
slots, in chunks of exact sums rounded once, with the scales of MMAS, or exactly modulo 2^32 for integers; AQ frees the
low bits of a chunk's result while the island is in approximate mode. MLOAD fills a slot from scratch or memory; MSTORE
converts rows of an accumulator to scratch, memory or a slot. An operand that is not claimed, or tags that do not pair,
fault with SLOT. The words of a stream take effect on an engine in order, a row or a word at a time (log entry 29), and
no move of another context while one is part-way. R292: the rows that an MSTORE of a cohort that is gone still sends are
dropped and counted. -/
def Obligations.MatrixEngines : Prop :=
  (ChunkSumRight ∧ ProductRight ∧ ChunkStepRight ∧ StoreRight ∧ ElementMapsRight) ∧
  (∀ (s : State) (k : Kernel) (i : Instr) (e xa xs : Nat), s.st.on = true → s.st.state = 1 → s.st.parked = none →
    kernelOf s s.st.cohort = some k →
    let rows := ((s.st.reg xs).toNat / 2 ^ 32)
    ((∃ q fmt sp, i = .mload e q xa xs fmt sp ∧ rows ≤ 128) ∨ (∃ mask, i = .mzero e mask ∧ xa = 0 ∧ xs = 0) ∨
      (∃ ac qa qb, i = .mma e ac qa qb ∧ xa = 0 ∧ xs = 0) ∨ (∃ ac qa qb qs, i = .mmas e ac qa qb qs ∧ xa = 0 ∧ xs = 0) ∨
      (∃ ac fmt sp sat toq q, i = .mstore e ac xa xs fmt sp sat toq q ∧ (toq ≠ 0 ∨ rows ≤ 128)) ∨
      (∃ ac fn sh, i = .mact e ac fn sh ∧ xa = 0 ∧ xs = 0) ∨ (∃ ac n, i = .mscale e ac n ∧ xa = 0 ∧ xs = 0)) →
    let core := engineCore s s.st.cohort e
    (k.teams ≤ e → exec i s = .next (faultHere .rsvdField s)) ∧
    let queued := s.engine.countP fun w => w.core == core && !w.lost
    (e < k.teams → 8 ≤ queued → exec i s = .next s) ∧
    (e < k.teams → queued < 8 → Gives (exec i s) fun t =>
      t = { s with st := { s.st with idx := s.st.idx + 1 }, engine := t.engine } ∧
      ∃ w : EngineWord, t.engine = s.engine ++ [w] ∧ w.core = core ∧ w.cohort = s.st.cohort ∧ w.i = i ∧
        w.xa = (s.st.reg xa).toNat ∧ w.xs = (s.st.reg xs).toNat ∧ w.done = 0 ∧ w.parked = none ∧
        w.ctx = streamCtx s s.st.cohort ∧ w.tag = s.st.version ∧ w.aq = s.st.aq ∧ w.run = s.st.run ∧
        w.waits = s.st.waits ∧ w.started = false ∧ w.lost = false)) ∧
  (∀ (s : State) (e xa xs : Nat), s.st.on = true → s.st.state = 1 → s.st.parked = none →
    128 < (s.st.reg xs).toNat / 2 ^ 32 →
    (∀ q fmt sp, exec (.mload e q xa xs fmt sp) s = .next (faultHere .rsvdField s)) ∧
    ∀ ac fmt sp sat q, exec (.mstore e ac xa xs fmt sp sat 0 q) s = .next (faultHere .rsvdField s)) ∧
  (∀ (s : State) (w : EngineWord) (part : Nat), s.engine = [w] → w.lost = true →
    let rows := min part (rowCount w.xs - w.done)
    let drops := fun (t : State) => SMap.get 0 t.cpdiag w.core % 2 ^ 24
    Gives (exec (.evEngineWordTakesEffect w.core 0 part) s) fun t =>
      t = { s with engine := [], cpdiag := t.cpdiag } ∧ drops t = min 0xFFFFFF (drops s + rows)) ∧
  (∀ (s : State) (w v : EngineWord) (part : Nat), s.engine = [v, w] → v.core = w.core → isMove w.i = true →
    v.lost = false → w.lost = false → (v.cohort = w.cohort ∨ (isMove v.i = true ∧ v.started = true)) →
    exec (.evEngineWordTakesEffect w.core 1 part) s = .next s) ∧
  (∀ (s : State) (w : EngineWord) (x : Stream) (part : Nat), s.engine = [w] → w.parked = none → w.lost = false →
    s.stream w.cohort = some x → x.state = 1 → w.core < 128 →
    let step_ := exec (.evEngineWordTakesEffect w.core 0 part) s
    let go := fun (P : State → Prop) => Gives step_ fun t => t.engine = [] ∧ t.w = s.w ∧ t.mem = s.mem ∧ P t
    let accs := AccsHold w.core
    let owns := fun (kind n : Nat) => (w.core, kind, n) ∈ x.claims
    let slotFault := step_ = .next (afterEngine w.cohort (engineFault w .slot 0 s))
    (∀ e mask, w.i = .mzero e mask → mask < 256 →
      ((∀ n, mask.testBit n = true → owns 1 n) → go fun t => t.scratch = s.scratch ∧ t.slotMem = s.slotMem ∧
        accs (fun n => mask.testBit n = true) (fun _ _ _ => 0) s t) ∧
      ((∃ n, mask.testBit n = true ∧ ¬owns 1 n) → slotFault)) ∧
    (∀ e ac fn sh, w.i = .mact e ac fn sh → ac < 8 → (owns 1 ac → go fun t => t.scratch = s.scratch ∧
      t.slotMem = s.slotMem ∧ accs (fun n => n = ac) (fun n r j => actElem fn sh (accElem s w.core n r j) % 2 ^ 32) s t) ∧
      (¬owns 1 ac → slotFault)) ∧
    (∀ e ac n, w.i = .mscale e ac n → ac < 8 → (owns 1 ac → go fun t => t.scratch = s.scratch ∧ t.slotMem = s.slotMem ∧
      accs (fun n => n = ac)
        (fun a r j => scaleElem (BitVec.ofNat 8 n).toInt (accElem s w.core a r j) % 2 ^ 32) s t) ∧
      (¬owns 1 ac → slotFault)) ∧
    (∀ e ac qa qb qs, (w.i = .mma e ac qa qb ∧ qs = none) ∨ (∃ q, w.i = .mmas e ac qa qb q ∧ qs = some q) → ac < 8 →
      (∀ ta tb, owns 1 ac → owns 0 qa → owns 0 qb → (∀ q, qs = some q → owns 0 q ∧ slotTagOf s w.core q = some 6) →
        slotTagOf s w.core qa = some ta → slotTagOf s w.core qb = some tb → TagsPair qs.isSome ta tb →
        (ta = 7 ∨ ta = 8 → go fun t => t.scratch = s.scratch ∧ t.slotMem = s.slotMem ∧
          accs (fun n => n = ac) (fun n r j => intBits 32 ((accElem s w.core n r j : Int) + ((List.range 256).map fun k =>
            intValue ta (slotByte s w.core qa r k) * intValue tb (slotByte s w.core qb j k)).sum)) s t) ∧
        (ta ≤ 5 → go fun t => t.scratch = s.scratch ∧ t.slotMem = s.slotMem ∧ ∃ a : Nat → Nat → Nat → Nat,
          accs (fun n => n = ac) (fun _ r j => a r j (rowK ta / chunkLen ta) % 2 ^ 32) s t ∧
          ∀ r j, r < 128 → j < 128 → a r j 0 = accElem s w.core ac r j ∧
            ChunkSteps (chunkLen ta) (rowK ta) w.aq
              (w.aq ≠ 0 ∧ 3 ≤ ta ∧ (s.island (w.core / 4)).state ≤ 1 ∧ (s.island (w.core / 4)).approx = true)
              (fun k => product (slotValue s w.core qa ta qs qa r k) (slotValue s w.core qb tb qs qb j k)) (a r j))) ∧
      ((¬owns 1 ac ∨ ¬owns 0 qa ∨ ¬owns 0 qb ∨ (∃ q, qs = some q ∧ (¬owns 0 q ∨ slotTagOf s w.core q ≠ some 6)) ∨
        slotTagOf s w.core qa = none ∨ slotTagOf s w.core qb = none ∨
        (∃ ta tb, slotTagOf s w.core qa = some ta ∧ slotTagOf s w.core qb = some tb ∧ ¬TagsPair qs.isSome ta tb)) →
        slotFault)) ∧
    (∀ e q xa xs fmt sp, w.i = .mload e q xa xs fmt sp → q < 16 → rowCount w.xs ≤ 128 →
      let filled := fun (byte : Nat → Nat → Nat) => go fun t => t.scratch = s.scratch ∧ t.acc = s.acc ∧
        SlotsBut w.core q s t ∧ slotTagOf t w.core q = some fmt ∧ ∀ r i, r < 128 → i < 256 →
          slotByte t w.core q r i = if r < rowCount w.xs then byte r i else 0
      (¬owns 0 q → slotFault) ∧
      (owns 0 q → (w.xa % 16 ≠ 0 ∨ (BitVec.ofNat 32 w.xs).toInt % 16 ≠ 0) →
        step_ = .next (afterEngine w.cohort (engineFault w .memAlign w.xa s))) ∧
      (owns 0 q → w.xa % 16 = 0 → (BitVec.ofNat 32 w.xs).toInt % 16 = 0 →
        (∀ (c : Cohort) (k : Kernel) (cell : Nat → Nat), sp = 1 → s.cohort w.cohort = some c →
          kernelOf s w.cohort = some k → w.xa < 2 ^ 32 →
          (∀ r, r < rowCount w.xs → cellAt c.tags e k.scratch k.column (rowAddr w 1 r) 256 = some (cell r)) →
          filled fun r i => (scratchByte s.scratch (cell r + i)).toNat) ∧
        (∀ leaf : Nat → Nat → Leaf, sp = 0 → w.tag = 0 → s.pending = [] → s.updates = [] → s.l1 = [] →
          (∀ r p, r < rowCount w.xs → p < 16 →
            let va := (rowAddr w 0 r + 16 * p) % 2 ^ 64
            checkAt s (engineUnit w.core) w.ctx 0 { need := .load } 16 va = .ok (leaf r p) ∧
            Sound s ((leaf r p).addr va) 16) →
          filled fun r i =>
            (readByte s.mem ((leaf r (i / 16)).addr ((rowAddr w 0 r + 16 * (i / 16)) % 2 ^ 64) + i % 16)).toNat))) ∧
    (∀ e ac xa xs fmt sp sat, w.i = .mstore e ac xa xs fmt sp sat 0 0 → rowCount w.xs ≤ 128 →
      fmt ∈ [0, 1, 2, 3, 4, 0xB] → w.done = 0 → part = 0 →
      let len := 128 * elemSize fmt
      let byte := fun (r i : Nat) => (storeRow s w.core ac fmt (sat == 1) r).getD i 0 % 256
      (¬owns 1 ac → slotFault) ∧
      (owns 1 ac → (w.xa % 16 ≠ 0 ∨ (BitVec.ofNat 32 w.xs).toInt % 16 ≠ 0) →
        step_ = .next (afterEngine w.cohort (engineFault w .memAlign w.xa s))) ∧
      (owns 1 ac → w.xa % 16 = 0 → (BitVec.ofNat 32 w.xs).toInt % 16 = 0 →
        (∀ (c : Cohort) (k : Kernel) (cell : Nat → Nat), sp = 1 → s.scratchWait = [] → s.cohort w.cohort = some c →
          kernelOf s w.cohort = some k → w.xa < 2 ^ 32 →
          (∀ r, r < rowCount w.xs → cellAt c.tags e k.scratch k.column (rowAddr w 1 r) len = some (cell r)) →
          (∀ r r', r < rowCount w.xs → r' < rowCount w.xs → r ≠ r' → cell r + len ≤ cell r' ∨ cell r' + len ≤ cell r) →
          go fun t => t.acc = s.acc ∧ t.slotMem = s.slotMem ∧
            (∀ r i, r < rowCount w.xs → i < len → (scratchByte t.scratch (cell r + i)).toNat = byte r i) ∧
            ∀ a, (∀ r, r < rowCount w.xs → a < cell r ∨ cell r + len ≤ a) →
              scratchByte t.scratch a = scratchByte s.scratch a) ∧
        (∀ leaf : Nat → Nat → Leaf, sp = 0 → w.tag = 0 → s.pending = [] → s.updates = [] → s.l1 = [] →
          let pa := fun (r p : Nat) => (leaf r p).addr ((rowAddr w 0 r + 16 * p) % 2 ^ 64)
          let in_ := fun (r p : Nat) => r < rowCount w.xs ∧ p < len / 16
          (∀ r p, in_ r p → checkAt s (engineUnit w.core) w.ctx 0 { need := .store, write := true, spec := true } 16
              ((rowAddr w 0 r + 16 * p) % 2 ^ 64) = .ok (leaf r p) ∧ Sound s (pa r p) 16) →
          (∀ r p r' p', in_ r p → in_ r' p' → (r, p) ≠ (r', p') → pa r p + 16 ≤ pa r' p' ∨ pa r' p' + 16 ≤ pa r p) →
          Gives step_ fun t => t.engine = [] ∧ t.w = s.w ∧ t.scratch = s.scratch ∧ t.acc = s.acc ∧
            t.slotMem = s.slotMem ∧
            (∀ r i, r < rowCount w.xs → i < len → (readByte t.mem (pa r (i / 16) + i % 16)).toNat = byte r i) ∧
            ∀ a, (∀ r p, in_ r p → a < pa r p ∨ pa r p + 16 ≤ a) → readByte t.mem a = readByte s.mem a))) ∧
    (∀ e ac fmt q, w.i = .mstore e ac 0 0 fmt 0 0 1 q → q < 16 → fmt = 1 ∨ fmt = 2 →
      (¬owns 1 ac ∨ ¬owns 0 q → slotFault) ∧
      (owns 1 ac → owns 0 q → go fun t => t.scratch = s.scratch ∧ t.acc = s.acc ∧ SlotsBut w.core q s t ∧
        slotTagOf t w.core q = some fmt ∧ ∀ r i, r < 128 → i < 256 →
          slotByte t w.core q r i = (storeRow s w.core ac fmt false r).getD i 0 % 256)) ∧
    (∀ fmt sat r j b, fmt ∈ [0, 1, 2, 3, 4, 0xB] → r < 128 → j < 128 → b < elemSize fmt → ∀ ac,
      (storeRow s w.core ac fmt sat r).getD (elemSize fmt * j + b) 0 =
        storeElem fmt sat (accElem s w.core ac r j) / 2 ^ (8 * b) % 256))

/-! ## Textures and hash grids (R295-R315) -/

/-- R295-R297, R301, R304, R305, R310, R312: the counted instructions of the texture and hash-grid unit. HGFETCH reads
the entry of every corner of every level, HGSCAT takes the gradients and touches the gradient descriptor and every
accumulator. The readings of the unit are those of log entries 25 and 26. -/
def Obligations.TextureIssue : Prop :=
  TextureRuns .tex ∧ TextureRuns .texl ∧ TextureRuns .texg ∧ TextureRuns .tld ∧ TextureRuns .tquery ∧
  (∀ f : V3,
    let d := fun (s : State) => descOf s.w f.b 16
    let wide := fun (s : State) => s.w.nregs ≤ f.a + gridDims (d s) - 1 ∨ s.w.nregs ≤ f.d + gridWords (d s) - 1
    let coord := fun (s : State) (l : Nat) => (List.range (gridDims (d s))).map fun k => (s.w.vreg l (f.a + k)).toNat
    let src := fun (s : State) (l : Nat) =>
      coord s l ++ (List.range (gridWords (d s))).map fun k => (s.w.vreg l (f.d + k)).toNat
    UnitRuns (.hgfetch f) (fun s => gridBad (d s) false = true) wide { need := .load } (dstOf 1 f.d) false coord d
      (fun s l => ((gridCorners (d s) fun k => (coord s l).getD k 0).map fun c =>
        entryAddr (d s) c.flat).eraseDups.map fun a => (a, 2 * gridF (d s))) ∧
    UnitRuns (.hgscat f) (fun s => gridBad (d s) true = true) wide { need := .rmw, write := true } 0 true src d
      (fun s l => (gridGbase (d s), 16) ::
        (((laneAdds (d s) (src s l)).map fun a => accumAddr (d s) a.1 a.2.1).eraseDups.map fun a => (a, 16)))) ∧
  (∀ (f : V3) (s : State), let d := descOf s.w f.b 16
    let e0 := (s.w.sreg f.a).toNat
    let n := (s.w.sreg (f.a + 1)).toNat
    (gridBad d true = true → exec (.hgsettle f) s = .next (raiseCheck .rsvdField s)) ∧
    (gridBad d true = false → 64 ≤ f.a → exec (.hgsettle f) s = .next (raiseCheck .regRange s)) ∧
    (gridBad d true = false → f.a < 64 → s.w.active = 0 → exec (.hgsettle f) s = .next s) ∧
    (gridBad d true = false → f.a < 64 → s.w.active ≠ 0 →
      (n = 0 ∨ 65536 < n ∨ (gridNlev d + 1) * 2 ^ gridK d < e0 + n) →
      exec (.hgsettle f) s = .next (raise .rsvdField s.w.active 0 0 s)) ∧
    ∀ (l : Nat) (p : Nat × Ask) (c : Cause), gridBad d true = false → f.a < 64 → Active s l → (∀ k, k < l → ¬Active s k) →
      n ≠ 0 → n ≤ 65536 → e0 + n ≤ (gridNlev d + 1) * 2 ^ gridK d → p ∈ settlePages d (f.t == 1) e0 n →
      checkGlobal s p.2 2 p.1 = .trap c →
      (∀ q ∈ settlePages d (f.t == 1) e0 n, q ≠ p → ∃ leaf, checkGlobal s q.2 2 q.1 = .ok leaf) →
      exec (.hgsettle f) s = .next (raise c (laneBit l) 0 (BitVec.ofNat 64 p.1) s))

/-- R302-R305, R310, R312, R314: what these instructions give. The texture instructions write the sampled, loaded or
queried components, HGFETCH its features, each from the texels or entries that memory holds, or, for a feature that has
been read before the rest (R315), held then. HGSCAT adds a lane's
gradients to the accumulators: with no saturation each holds its old value plus every addition to it, and no other
byte changes. HGSETTLE waits for the wave's earlier accesses; it then rounds the accumulators of its range into
the table and clears them, and no other byte changes. The readings of the unit, the sign of a sum that is zero
among them, are those of log entries 20, 25 and 26. -/
def Obligations.TextureResults : Prop :=
  (∀ (s : State) (o : Op) (l : Nat) (sp : List Span) (f : V3) (d : Nat), EngineAlone s o l sp → o.aux = [d] →
    (f.d + 2 ^ f.t ≤ 128 → (o.i = .tex f ∨ o.i = .texl f ∨ o.i = .texg f) → EngineLands l f.d (2 ^ f.t) (fun c =>
      sampleChannel d (tapsOf d ((o.args l).headD 0) fun k => (o.args l).getD (k + 1) 0) (valuesOf s Span.n sp) c) s) ∧
    (f.d + 2 ^ f.t ≤ 128 → o.i = .tld f →
      let coord := fun (k : Nat) => (BitVec.ofNat 32 ((o.args l).getD (k + 1) 0)).toInt
      (tldAddr d coord = none → EngineLands l f.d (2 ^ f.t) (fun _ => 0) s) ∧
      (∀ a, tldAddr d coord = some a →
        EngineLands l f.d (2 ^ f.t) (fun c => loadChannel d (valueAt (valuesOf s Span.n sp) a) c) s)) ∧
    (f.d + 2 ^ f.t ≤ 128 → o.i = .tquery f → sp = [] →
      let m := (o.args l).getD 1 0
      EngineLands l f.d (2 ^ f.t) (fun c => if texMips d < m then 0
        else if c = 0 then max 1 ((bits d 96 16 + 1) / 2 ^ m)
        else if c = 1 then max 1 ((bits d 112 16 + 1) / 2 ^ m)
        else if c = 2 then levelD d m else texMips d + 1) s) ∧
    (f.d + gridWords d ≤ 128 → o.i = .hgfetch f → EngineLands l f.d (gridWords d) (fun k =>
      gridFeature d (gridCorners d fun j => (o.args l).getD j 0) (valuesOf s (fun _ => 2) sp) (k / gridF d) (k % gridF d)) s)) ∧
  (∀ (s : State) (o : Op) (l : Nat) (p : Span) (f : V3) (k : Nat), EngineAlone s o l [p] → o.i = .hgfetch f →
    p.got = [] → 2 * k + 2 ≤ p.n → Gives (takeTurn (.background none (.readPiece 3 0 l p.va (2 * k))) s) fun t =>
      t.mem = s.mem ∧ t.w.v = s.w.v ∧ ∃ q : Op, t.w.ops = [q] ∧ q.perf = 0 ∧ q.lanes = o.lanes ∧
        SMap.get [] q.spans l = [{ p with got := [(2 * k, readMem s.mem (p.leaf.addr p.va + 2 * k) 2)] }]) ∧
  (∀ (s : State) (o : Op) (l : Nat) (sp : List Span) (f : V3) (d : Nat), EngineAlone s o l sp → o.aux = [d] →
    o.i = .hgscat f → (∀ a, readBit s.mem (waitCell a) = false) →
    let adds := laneAdds d (o.args l)
    let scale := (BitVec.ofNat 8 (readMem s.mem (gridGbase d) 4)).toInt
    let delta := fun (a : Nat × Nat × Nat × Nat × Nat) => (scatDelta a.2.2.1 a.2.2.2.1 a.2.2.2.2 scale).1
    let total := fun (e g : Nat) => ((adds.filter fun b => b.1 == e && b.2.1 == g).map delta).sum
    let big := fun (e g : Nat) => ((adds.filter fun b => b.1 == e && b.2.1 == g).map fun b => (delta b).natAbs).sum
    let val := fun (m : List Host.Cell) (e g : Nat) => accumValue (readMem m (accumAddr d e g) 16)
    gridGbase d % 256 = 0 → (∃ p ∈ sp, p.va = gridGbase d) → (∀ p ∈ sp, p.leaf.addr p.va = p.va ∧ p.n = 16) →
    (∀ a ∈ adds, (∃ p ∈ sp, p.va = accumAddr d a.1 a.2.1) ∧ a.2.1 < gridF d ∧
      (scatDelta a.2.2.1 a.2.2.2.1 a.2.2.2.2 scale).2 = false ∧
      (val s.mem a.1 a.2.1).natAbs + big a.1 a.2.1 < 2 ^ 95) →
    Landed 3 s fun t => t.w.ops = [] ∧ t.w.v = s.w.v ∧ t.w.s = s.w.s ∧ WriteFrame s t ∧
      (∀ a ∈ adds, val t.mem a.1 a.2.1 = val s.mem a.1 a.2.1 + total a.1 a.2.1) ∧
      ∀ x, (∀ a ∈ adds, x < accumAddr d a.1 a.2.1 ∨ accumAddr d a.1 a.2.1 + 16 ≤ x) →
        readByte t.mem x = readByte s.mem x) ∧
  (∀ (f : V3) (s : State) (l : Nat), let d := descOf s.w f.b 16
    let e0 := (s.w.sreg f.a).toNat
    let n := (s.w.sreg (f.a + 1)).toNat
    gridBad d true = false → f.a < 64 → Active s l → (∀ k, k < l → ¬Active s k) → n ≠ 0 → n ≤ 65536 →
    e0 + n ≤ (gridNlev d + 1) * 2 ^ gridK d →
    (∀ p ∈ settlePages d (f.t == 1) e0 n, ∃ leaf, checkGlobal s p.2 2 p.1 = .ok leaf) →
    ((∃ o ∈ s.w.ops, o.perf ≠ o.lanes ∧ o.ctr ≠ 2) →
      exec (.hgsettle f) s = .next { s with w := { s.w with hold := .again (.hgsettle f) } }) ∧
    (s.w.ops = [] → s.pending = [] → s.updates = [] → Gives (exec (.hgsettle f) s) fun t => t.w.v = s.w.v ∧ t.w.s = s.w.s ∧
      t.w.p = s.w.p ∧ t.w.pc = s.w.pc ∧ t.w.ops = [] ∧ t.w.hold = s.w.hold) ∧
    (let table := fun (a : Nat) => entryAddr d e0 ≤ a ∧ a < entryAddr d (e0 + n)
     let accs := fun (a : Nat) => accumAddr d e0 0 ≤ a ∧ a < accumAddr d (e0 + n) 0
     let scale := (BitVec.ofNat 8 (readMem s.mem (gridGbase d) 4)).toInt
     s.w.ops = [] → s.pending = [] → s.updates = [] → s.l1 = [] → s.poison = [] → s.ecc = [] → s.w.version = 0 →
     (∀ a, readBit s.mem (waitCell a) = false) →
     (entryAddr d (e0 + n) ≤ gridGbase d ∨ accumAddr d (e0 + n) 0 ≤ entryAddr d e0) →
     (∀ a, table a ∨ accs a ∨ a = gridGbase d → a < 0x1F00000000 ∧
       ∃ leaf, xlate s s.w.core s.ctxId a .load = .ok leaf ∧ leaf.cached = false ∧ leaf.addr a = a) →
     Gives (exec (.hgsettle f) s) fun t =>
       (∀ e g, e0 ≤ e → e < e0 + n → g < gridF d → readMem t.mem (accumAddr d e g) 16 = 0 ∧
         readMem t.mem (entryAddr d e + 2 * g) 2 = settleValue d (f.t == 1) (readMem s.mem (entryAddr d e + 2 * g) 2)
           (readMem s.mem (accumAddr d e g) 16) scale % 2 ^ 16) ∧
       ∀ a, ¬table a → ¬accs a → readByte t.mem a = readByte s.mem a))

/-! ## Raster unit and frames (R316-R335) -/

/-- R317-R320: TRISET. The tile's checks come first, in order; a triangle that is invalid, degenerate, culled or
outside the tile gives a DONE token with its reason; the others take a free slot, with the next GEN and CURSOR 0,
or wait for one. CLR fills the tile buffer with ones. That the tile is cleared before an instruction waits for a
slot is the reading of log entry 24. -/
def Obligations.TriangleSetup : Prop :=
  ∀ (f : SF) (s : State),
    let reg := fun (k : Nat) => (s.w.sreg (f.sb + k)).toNat
    let tile : List Nat := [reg 0 % 2 ^ 16, reg 0 / 2 ^ 16, reg 1 % 2 ^ 8 + 1, reg 1 / 2 ^ 8 % 2 ^ 8 + 1,
      reg 1 / 2 ^ 16 % 4, reg 2]
    let tb := reg 2
    let n := 8 * ((reg 1 % 2 ^ 8 + 1) * (reg 1 / 2 ^ 8 % 2 ^ 8 + 1) * 2 ^ (reg 1 / 2 ^ 16 % 4))
    let field := reg 1 / 2 ^ 18 ≠ 0 ∨ reg 1 / 2 ^ 16 % 4 = 3 ∨ 16384 < reg 0 % 2 ^ 16 + (reg 1 % 2 ^ 8 + 1) ∨
      16384 < reg 0 / 2 ^ 16 + (reg 1 / 2 ^ 8 % 2 ^ 8 + 1)
    let vx := fun (i : Nat) => readVertex (s.w.sreg (f.sa + 4 * i)).toNat (s.w.sreg (f.sa + 4 * i + 1)).toNat
      (s.w.sreg (f.sa + 4 * i + 2)).toNat (s.w.sreg (f.sa + 4 * i + 3)).toNat
    let dst := dstOf 2 f.sd
    (s.w.active = 0 → exec (.triset f) s = .next s) ∧
    (s.w.active ≠ 0 →
      (field → exec (.triset f) s = .next (raise .rsvdField s.w.active dst 0 s)) ∧
      (¬field → tb % 8 ≠ 0 → exec (.triset f) s = .next (raise .memAlign s.w.active dst (BitVec.ofNat 64 tb) s)) ∧
      (¬field → tb % 8 = 0 → (∀ cell, scratchCell s tb n = some cell → scratchTag cell ≠ teamTag s) →
        exec (.triset f) s = .next (raise .memXlate s.w.active dst (BitVec.ofNat 64 tb) s)) ∧
      (∀ cell, ¬field → tb % 8 = 0 → scratchCell s tb n = some cell → scratchTag cell = teamTag s →
        f.imm.testBit 3 = false →
        (vx 0 = none ∨ vx 1 = none ∨ vx 2 = none →
          Gives (exec (.triset f) s) (ScalarResult f.sd (BitVec.ofNat 32 (2 ^ 31 + 3 * 2 ^ 5)) s)) ∧
        (∀ a b c, vx 0 = some a → vx 1 = some b → vx 2 = some c →
          let xy := [a.x, a.y, b.x, b.y, c.x, c.y]
          let area := (b.x - a.x) * (c.y - a.y) - (c.x - a.x) * (b.y - a.y)
          let front := if f.imm.testBit 2 = true then area < 0 else 0 < area
          let culled := (f.imm % 4 = 1 ∧ ¬front) ∨ (f.imm % 4 = 2 ∧ front)
          let within := fun (lo hi x : Int) => lo ≤ x ∧ x ≤ hi
          let inside := ∃ t, t < n / 8 ∧
            within (min (min a.x b.x) c.x) (max (max a.x b.x) c.x) (tilePoint tile t).1 ∧
            within (min (min a.y b.y) c.y) (max (max a.y b.y) c.y) (tilePoint tile t).2
          let free := fun (k : Nat) => k < 32 ∧ ∀ r ∈ s.raster, ¬(r.core = s.w.core ∧ r.num = k)
          (area = 0 → Gives (exec (.triset f) s) (ScalarResult f.sd (BitVec.ofNat 32 (2 ^ 31 + 2 ^ 5)) s)) ∧
          (area ≠ 0 → culled →
            Gives (exec (.triset f) s) (ScalarResult f.sd (BitVec.ofNat 32 (2 ^ 31 + 2 * 2 ^ 5)) s)) ∧
          (area ≠ 0 → ¬culled → ¬inside →
            Gives (exec (.triset f) s) (ScalarResult f.sd (BitVec.ofNat 32 (2 ^ 31 + 4 * 2 ^ 5)) s)) ∧
          (area ≠ 0 → ¬culled → inside → (∀ k, ¬free k) → Gives (exec (.triset f) s) fun t =>
            t = { s with w := { s.w with hold := .again (.triset { f with imm := f.imm % 8 }) } }) ∧
          (area ≠ 0 → ¬culled → inside → ∀ k, free k → (∀ j, j < k → ¬free j) →
            let gen := (SMap.get 0 s.rasterGen (32 * s.w.core + k) + 1) % 256
            Gives (exec (.triset f) s) fun t => ScalarIs f.sd (BitVec.ofNat 32 (k + gen * 2 ^ 23)) s t ∧
              t = { s with w := { s.w with s := t.w.s, changed := t.w.changed }, raster := t.raster
                           rasterGen := t.rasterGen } ∧
              (∀ j, SMap.get 0 t.rasterGen j = if j = 32 * s.w.core + k then gen else SMap.get 0 s.rasterGen j) ∧
              t.raster = s.raster ++ [{ core := s.w.core, num := k, owner := teamTag s, xy := xy, z := [a.z, b.z, c.z]
                                        tile := tile }]))) ∧
      (∀ cell, ¬field → tb % 8 = 0 → scratchCell s tb n = some cell → scratchTag cell = teamTag s →
        f.imm.testBit 3 = true →
        (ScratchHeld s (Active s) cell n → exec (.triset f) s = .next { s with w := { s.w with hold := .again (.triset f) } }) ∧
        (s.w.ops = [] → Gives (exec (.triset f) s) fun t =>
          ScratchBut cell n s t ∧ (∀ k, k < n → scratchByte t.scratch (cell + k) = 255) ∧
          t.scratchFe = s.scratchFe ∧ t.mem = s.mem ∧ t.w.v = s.w.v ∧ t.w.p = s.w.p ∧ t.w.pc = s.w.pc) ∧
        (s.w.ops = [] → ∃ u : State, exec (.triset f) s = exec (.triset { f with imm := f.imm % 8 }) u ∧
          u = { s with w := { s.w.markStored s.w.active with parks := u.w.parks }, waves := u.waves
                       scratch := u.scratch, scratchWait := u.scratchWait })))

/-- R322-R325: RAST gives the ACTIVE lanes, in ascending order, the covered samples of its slot from the token's
cursor on: the word's offset, the depth and the position; the predicate says which lanes received one. The token
moves on to the next covered sample, or is DONE, and then its slot is free. A DONE token gives none; a token of
another team or of an older GEN traps. That a slot is free once its last token is DONE is the reading of log entry
24. -/
def Obligations.Rasterisation : Prop :=
  ∀ (f : V3) (s : State), f.d + 3 ≤ 128 → f.b < 8 →
    let tok := (s.w.sreg f.a).toNat
    let num := tok % 32
    let lanes := rank s 64
    let token := fun (v : Nat) (t : State) => ∀ r, t.w.sreg r = if r = f.a then BitVec.ofNat 32 v else s.w.sreg r
    let frame := fun (t : State) => t.w.ops = [] ∧ t = { s with
      w := { s.w with v := t.w.v, s := t.w.s, p := t.w.p, changed := t.w.changed, ops := t.w.ops }
      waves := t.waves, raster := t.raster, nextId := t.nextId }
    (s.w.active = 0 → exec (.rast f) s = .next s) ∧
    (s.w.active ≠ 0 → 2 ^ 31 ≤ tok → IssuesAndLands (.rast f) s fun t => frame t ∧ token tok t ∧ t.w.v = s.w.v ∧
      PredicateIs f.b (fun _ => false) s t) ∧
    (s.w.active ≠ 0 → tok < 2 ^ 31 →
      ((∀ r ∈ s.raster, ¬(r.core = s.w.core ∧ r.num = num)) →
        exec (.rast f) s = .next (raise .rsvdField s.w.active (dstOf 1 f.d) 0 s)) ∧
      (∀ r, s.raster.find? (fun x => x.core == s.w.core && x.num == num) = some r →
        (r.owner ≠ teamTag s ∨ SMap.get 0 s.rasterGen (32 * s.w.core + num) ≠ tok / 2 ^ 23 % 256 →
          exec (.rast f) s = .next (raise .rsvdField s.w.active (dstOf 1 f.d) 0 s)) ∧
        (r.owner = teamTag s → SMap.get 0 s.rasterGen (32 * s.w.core + num) = tok / 2 ^ 23 % 256 →
          let cs := coveredFrom r (tok / 2 ^ 5 % 2 ^ 18)
          IssuesAndLands (.rast f) s fun t => frame t ∧
            (∀ l q, q < 128 → t.w.vreg l q = match cs[rank s l]? with
              | some x => if Active s l ∧ q = f.d then BitVec.ofNat 32 (r.tile.getD 5 0 + 8 * x)
                  else if Active s l ∧ q = f.d + 1 then BitVec.ofNat 32 (depthAt r x)
                  else if Active s l ∧ q = f.d + 2 then BitVec.ofNat 32 (positionWord r.tile x)
                  else s.w.vreg l q
              | none => s.w.vreg l q) ∧
            PredicateIs f.b (fun l => decide (rank s l < cs.length)) s t ∧
            (cs.length ≤ lanes → token (2 ^ 31) t ∧
              ∀ x, x ∈ t.raster ↔ x ∈ s.raster ∧ ¬(x.core = s.w.core ∧ x.num = num)) ∧
            (∀ x, cs[lanes]? = some x → t.raster = s.raster ∧
              token (tok % 2 ^ 5 + x * 2 ^ 5 + tok / 2 ^ 23 * 2 ^ 23) t))))

/-- R328-R331: ATTR. Lanes whose visibility word is empty make no access and are Bad: three canonical NaNs and zeros;
so are lanes whose mesh record fails. A lane reads its record, its indices, and its vertices and attributes, and
receives the three weights and the interpolated attributes; a record that fails its checks on memory traps before
any read. The attributes of zero weights and the order of the rounds are the readings of log entries 20 and 24. -/
def Obligations.AttributeInterpolation : Prop :=
  ∀ (f : V3) (s : State), f.d + 3 + f.attrRegs ≤ 128 →
    let vis := fun (l : Nat) => (s.w.vpair l f.a).toNat
    let recAt := fun (l : Nat) => ((s.w.spair f.x.c).toNat + 64 * (vis l / 2 ^ 22 % 2 ^ 10)) % 2 ^ 64
    let word := fun (a : Nat) => readMem s.mem a 4
    let good := fun (a : Nat) => a % 4 = 0 ∧ a + 4 ≤ 0x1F00000000 ∧ readBit s.mem (waitCell a) = false ∧
      ∃ leaf, checkGlobal s { need := .load } 4 a = .ok leaf ∧ leaf.addr a = a ∧ leaf.cached = false
    let frame := fun (t : State) => t.w.ops = [] ∧ ReadFrame s { t with tlb := s.tlb, nextId := s.nextId } ∧ t.w.s = s.w.s
    let bad := fun (t : State) => frame t ∧ ∀ l r, r < 128 → t.w.vreg l r =
      if Active s l ∧ f.d ≤ r ∧ r < f.d + 3 then 0x7FC00000
      else if Active s l ∧ f.d + 3 ≤ r ∧ r < f.d + 3 + f.attrRegs then 0 else s.w.vreg l r
    (s.w.active = 0 → exec (.attr f) s = .next s) ∧
    (s.w.active ≠ 0 → (∃ o ∈ s.w.ops, (o.ctr = 0 ∨ o.ctr = 1) ∧ acquires (orderOf o.i).1 = true ∧ o.perf ≠ o.lanes) →
      exec (.attr f) s = .next { s with w := { s.w with hold := .again (.attr f) } }) ∧
    (s.w.active ≠ 0 → s.w.ops = [] → (∀ l, Active s l → vis l = 2 ^ 64 - 1) → IssuesAndLands (.attr f) s bad) ∧
    (s.w.active ≠ 0 → s.w.ops = [] → SpansTrap (.attr f) { need := .load } (dstOf 1 f.d)
      (fun l => if vis l = 2 ^ 64 - 1 then [] else wordSpans (recAt l) 16) s) ∧
    (∀ l, Single s l → vis l ≠ 2 ^ 64 - 1 → s.pending = [] → s.updates = [] → s.l1 = [] → s.poison = [] → s.ecc = [] →
      recAt l + 64 < 2 ^ 52 → (∀ k, k < 16 → good (recAt l + 4 * k)) →
      let rec_ := joinWords (fun k => word (recAt l + 4 * k)) 16
      (meshBad rec_ (vis l % 2 ^ 22) = true → IssuesAndLands (.attr f) s bad) ∧
      (meshBad rec_ (vis l % 2 ^ 22) = false →
        let idxAt := (rec_ / 2 ^ 64 % 2 ^ 64 + 12 * (vis l % 2 ^ 22)) % 2 ^ 64
        idxAt + 12 < 2 ^ 52 → (∀ k, k < 3 → good (idxAt + 4 * k)) →
        let idx := (List.range 3).map fun k => word (idxAt + 4 * k)
        let n := min (meshNattr rec_) f.attrRegs
        (∀ v ∈ idx, vertexAddr rec_ v + 16 < 2 ^ 52 ∧ attrAddr rec_ v 0 + 4 * n < 2 ^ 52 ∧
          (∀ k, k < 4 → good (vertexAddr rec_ v + 4 * k)) ∧ ∀ k, k < n → good (attrAddr rec_ v 0 + 4 * k)) →
        IssuesAndLands (.attr f) s fun t => frame t ∧ ∃ vs : List (Nat × Nat),
          (∀ v ∈ idx, (∀ k, k < 4 → wordAt vs (vertexAddr rec_ v + 4 * k) = word (vertexAddr rec_ v + 4 * k)) ∧
            ∀ k, k < n → wordAt vs (attrAddr rec_ v k) = word (attrAddr rec_ v k)) ∧
          t.w.v = (landAll s.w.active (attrResult f l { w := vis l, pos := (s.w.vreg l f.b).toNat, rec_ := rec_
                                                        idx := idx } vs) s.w).v))

/-- R332-R335, R422: FLIP refuses a surface that breaks a rule (2), logs under a speculative version (3), refuses on a
full ring (1), or appends a queued record (0). The egress engine takes a record that is queued and sends it with the
pixels of its rows, as they stand at their homes, or holds it for a route; a row that does not translate drops it, and
so does a reserved bit, with an ERR that is free (log entry 59). An acknowledged frame is sent, a refused one dropped;
a frame from another node is refused. The record and its rows are read in the step FRAME_SEND of the operation table. -/
def Obligations.Frames : Prop :=
  (∀ (f : SF) (s : State) (c : Context), s.context s.w.ctx = some c → s.w.active ≠ 0 →
    let d := descOf s.w f.sa 6
    let at_ := c.egressPa + 64 * c.append
    let st := fun (t : State) (a : Nat) => readMem t.mem (a + 32) 1 % 8
    let refused := 2 < d / 2 ^ 92 % 16 ∨ d % 256 ≠ 0 ∨ d / 2 ^ 96 % 2 ^ 32 % 256 ≠ 0 ∨
      d / 2 ^ 96 % 2 ^ 32 < (d / 2 ^ 64 % 2 ^ 14 + 1) * (if d / 2 ^ 92 % 16 = 1 then 8 else 4) ∨
      d / 2 ^ 144 % 2 ^ 16 ≠ 0 ∨ c.fabric.testBit (d / 2 ^ 128 % 2 ^ 8) = false ∨ c.egressPa = 0
    (refused → Gives (exec (.flip f) s) (ScalarResult f.sd 2 s)) ∧
    (¬refused → s.w.version ≠ 0 → (tagOf s s.w.ctx s.w.version).state = 1 →
      logsPending s s.w.leader s.nextId = true →
      exec (.flip f) s = .next { s with w := { s.w with hold := .again (.flip f) } }) ∧
    (¬refused → s.w.version ≠ 0 → (tagOf s s.w.ctx s.w.version).state = 1 →
      logsPending s s.w.leader s.nextId = false → (∀ x ∈ s.logs, x.num < s.nextId) →
      logUsed s s.w.ctx + 1 ≤ 2 ^ c.vlogLog2 → Gives (exec (.flip f) s) fun t => ScalarIs f.sd 3 s t ∧
        t = { s with w := { s.w with s := t.w.s, changed := t.w.changed }, logs := t.logs, nextId := s.nextId + 1 } ∧
        ∃ e : LogEntry, t.logs = s.logs ++ [e] ∧ e.ctx = s.w.ctx ∧ e.tag = s.w.version ∧ e.i = .flip f ∧
          e.data = [d] ∧ e.recs = 1) ∧
    (¬refused → s.w.version = 0 → (∃ o ∈ s.w.ops, o.perf ≠ o.lanes ∧ o.ctr ≠ 2) →
      exec (.flip f) s = .next { s with w := { s.w with hold := .again (.flip f) } }) ∧
    (¬refused → s.w.version = 0 → (∀ o ∈ s.w.ops, o.perf = o.lanes ∨ o.ctr = 2) → s.pending = [] → s.updates = [] →
      (st s at_ = 1 ∨ st s at_ = 2 → Gives (exec (.flip f) s) (ScalarResult f.sd 1 s)) ∧
      (st s at_ ≠ 1 → st s at_ ≠ 2 → at_ + 64 ≤ 0x1F00000000 → at_ % 64 = 0 → readBit s.mem (waitCell at_) = false →
        Gives (exec (.flip f) s) fun t => ScalarIs f.sd 0 s t ∧ t.w.v = s.w.v ∧ t.w.p = s.w.p ∧
          readMem t.mem at_ 24 = d % 2 ^ 192 ∧ readMem t.mem (at_ + 24) 8 = s.now % 2 ^ 64 ∧
          readMem t.mem (at_ + 32) 32 = 1 ∧
          (∀ a, a < at_ ∨ at_ + 64 ≤ a → readByte t.mem a = readByte s.mem a) ∧
          t.context s.w.ctx = some { c with append := (c.append + 1) % 2 ^ c.egressLog2 }))) ∧
  (∀ (s : State) (c : Context) (ctx : Nat), s.context ctx = some c →
    ((c.egressPa = 0 ∨ readMem s.mem (c.egressPa + 64 * c.take + 32) 1 % 8 ≠ 1 ∨
      ∃ x ∈ s.plat.frames, x.ctx = c.id ∧ x.repeated = false) → exec (.evFrameSend ctx) s = .next s) ∧
    (let a := c.egressPa + 64 * c.take
     let d := readMem s.mem a 64
     let clean := d / 2 ^ 144 % 2 ^ 16 = 0 ∧ d / 2 ^ 259 % 2 ^ 13 = 0 ∧ d / 2 ^ 280 = 0
     let size := if d / 2 ^ 92 % 16 = 1 then 8 else 4
     let width := d / 2 ^ 64 % 2 ^ 14 + 1
     let height := d / 2 ^ 78 % 2 ^ 14 + 1
     let node := d / 2 ^ 128 % 2 ^ 8
     let pixel := fun (x y : Nat) => d % 2 ^ 64 + y * (d / 2 ^ 96 % 2 ^ 32) + x * size
     let u := setFrameState ctx c.take 2 0 s
     let taken := fun (t : State) => t.w.v = s.w.v ∧ t.context ctx = some { c with take := (c.take + 1) % 2 ^ c.egressLog2 } ∧
       ∀ b, b < a + 32 ∨ a + 36 ≤ b → readByte t.mem b = readByte s.mem b
     c.id = ctx → c.egressPa ≠ 0 → readMem s.mem (a + 32) 1 % 8 = 1 → s.plat.frames = [] → s.updates = [] → a % 64 = 0 →
     a + 64 ≤ 0x1F00000000 → readBit s.mem (waitCell a) = false →
     (¬clean → Gives (exec (.evFrameSend ctx) s) fun t => readMem t.mem (a + 32) 2 = 4 ∧ t.plat.frames = [] ∧
       t.out = s.out ∧ taken t) ∧
     (clean → 2 ^ 52 ≤ d % 2 ^ 64 → Gives (exec (.evFrameSend ctx) s) fun t =>
       readMem t.mem (a + 32) 4 = 4 + 0x21 * 2 ^ 16 ∧ t.plat.frames = [] ∧ t.out = s.out ∧ taken t) ∧
     (clean → d % 2 ^ 64 % 256 = 0 → d / 2 ^ 96 % 2 ^ 32 % 256 = 0 → s.poison = [] → s.ecc = [] →
       (∀ x y, x < width → y < height → pixel x y < 2 ^ 52 ∧ ∃ leaf, xlate u egressUnit ctx (pixel x y) .load = .ok leaf) →
       Gives (exec (.evFrameSend ctx) s) fun t => taken t ∧ readMem t.mem (a + 32) 4 = 2 ∧ ∃ rows : List Nat,
         rows.length = width * height * size ∧
         (∀ x y k leaf, x < width → y < height → k < size → xlate u egressUnit ctx (pixel x y) .load = .ok leaf →
           rows.getD ((y * width + x) * size + k) 0 = (readByte u.mem (leaf.addr (pixel x y) + k)).toNat) ∧
         t.plat.frames = [{ id := s.nextId, ctx := ctx, index := c.take, repeated := false, node := node
                            data := toBytes 64 d ++ rows }] ∧
         (routeUp s node = true → t.out = s.out ++ [{ kind := 3, dest := node, data := s.nextId :: (toBytes 64 d ++ rows) }] ∧
           t.plat.held = s.plat.held) ∧
         (routeUp s node = false → t.out = s.out ∧
           t.plat.held = s.plat.held ++ [{ kind := 1, id := s.nextId, since := s.now }])))) ∧
  (∀ (s : State) (x : Frame) (c : Context), s.plat.frames = [x] → s.context x.ctx = some c → x.repeated = false →
    s.plat.held = [] → s.updates = [] → let a := c.egressPa + 64 * x.index
    a % 64 = 0 → a + 64 ≤ 0x1F00000000 → readBit s.mem (waitCell a) = false →
    ∀ ok : Bool, Gives (exec (.evFrameack x.id ok) s) fun t => t.plat.frames = [] ∧ t.w.v = s.w.v ∧
      readMem t.mem (a + 32) 4 = (if ok = true then 3 else 4 + 0x22 * 2 ^ 16) ∧
      ∀ b, b < a + 32 ∨ a + 36 ≤ b → readByte t.mem b = readByte s.mem b) ∧
  (∀ (src : Nat) (s : State),
    exec (.evFrameMessage src) s = .next { s with out := s.out ++ [{ kind := 6, dest := src, data := [0] }] })

/-! ## Ray engine (R336-R354) -/

/-- R340, R342-R348: RBOX, RTRI and RXFM at issue, and what they give. RBOX returns the children that the ray hits,
nearest first; RTRI tests the triangles of its leaf in order, each against the nearest so far, to the end or, with .ANY,
to the first hit; RXFM the transformed ray. A lane whose entry has another TYPE is given four empty entries by RBOX, no
hit by RTRI, and nothing by RXFM; a record that is malformed gives a late trap. Which entries are malformed, and which
records RTRI reads, are the readings of log entries 21 and 22; the sign of a zero sum is that of log entry 20. -/
def Obligations.RayQueries : Prop :=
  RayRuns .rbox 1 (fun _ => 8)
    (fun f s l => if f.xw.isSome then
      (s.w.vpair l (f.x.c + 18)).toNat / 2 ^ (4 * ((s.w.vpair l f.b).toNat / 2 ^ 54 % 16)) % 16 else 0)
    (fun f s l => let e := (s.w.vpair l f.b).toNat
      f.xw.isSome = true ∧ e % 4 = 1 ∧ (e / 2 ^ 54 % 16 = 15 ∨
        (s.w.vpair l (f.x.c + 18)).toNat / 2 ^ (4 * (e / 2 ^ 54 % 16)) / 4 % 2 = 1)) ∧
  RayRuns .rtri 2 (fun e => 4 * (e / 4 % 16 + 1)) (fun _ _ _ => 0) (fun _ _ _ => False) ∧
  RayRuns .rxfm 3 (fun _ => 4) (fun f s l => if f.xw.isSome then (s.w.vreg l f.x.c).toNat % 256 else 255)
    (fun _ _ _ => False) ∧
  (∀ (s : State) (o : Op) (l : Nat) (sp : List Span) (f : V3), EngineAlone s o l sp →
    let e := (o.args l).headD 0
    let extra := (o.args l).getD 1 0
    let at_ := entAddr e
    let record := fun (a n : Nat) => pieces16 (valuesOf s (fun _ => 16) sp) a n
    let ray := fun (k : Nat) => FFmt.f32.read ((o.args l).getD (k + 2) 0)
    let refuses := fun (a : Nat) => Landed 3 s fun t => t.w.v = s.w.v ∧ t.w.p = s.w.p ∧
      t.w.late = s.w.late ++ [{ cause := .rsvdField, mask := laneBit l, pc := o.pc, word := o.word, dst := dstOf 1 f.d
                                addr := BitVec.ofNat 64 a, addrs := [(l, a)] }]
    (o.i = .rbox f → f.d + 8 ≤ 128 →
      (entType e ≠ 1 → EngineLands l f.d 8 (fun _ => 0) s) ∧
      (entType e = 1 → ¬NodeMalformed (record at_ 8) → ∃ hits : List Nat, BoxOrder (record at_ 8) ray extra hits ∧
        EngineLands l f.d 8 (fun k => (match hits[k / 2]? with
          | some c => bits (record at_ 8) (768 + 64 * c) 64 + c * 2 ^ 52 + min (e / 2 ^ 54 % 16 + 1) 15 * 2 ^ 54
          | none => 0) / 2 ^ (32 * (k % 2))) s) ∧
      (entType e = 1 → NodeMalformed (record at_ 8) → refuses at_)) ∧
    (o.i = .rtri f → f.d + 4 ≤ 128 → f.a + 7 < 128 → (f.a + 7 < f.d ∨ f.d + 4 ≤ f.a + 7) →
      let lands := fun (regs : Option Nat) (tmax : Nat) => Landed 3 s fun t => t.w.ops = [] ∧ t.mem = s.mem ∧
        t = { s with w := { s.w with v := t.w.v, p := t.w.p, changed := t.w.changed, ops := t.w.ops }, waves := t.waves
                     l1 := t.l1, lines := t.lines, fresh := t.fresh } ∧
        (∀ k r, r < 128 → t.w.vreg k r = match regs with
          | some v => if k = l ∧ f.d ≤ r ∧ r < f.d + 4 then BitVec.ofNat 32 (v / 2 ^ (32 * (r - f.d)))
              else if k = l ∧ r = f.a + 7 then BitVec.ofNat 32 tmax else s.w.vreg k r
          | none => s.w.vreg k r) ∧
        (f.xw = none → t.w.p = s.w.p) ∧
        ∀ x, f.xw = some x → ∀ q k, t.w.pred q k =
          if q = x.c % 8 ∧ q ≠ 7 ∧ k = l then regs.isSome else s.w.pred q k
      let n := e / 4 % 16 + 1
      let tri := fun (i : Nat) => record (at_ + 64 * i) 4
      (entType e ≠ 2 → lands none 0) ∧
      (entType e = 2 → (sp.map fun p => (p.va, p.n)) = (List.range (4 * n)).map (fun k => (at_ + 16 * k, 16)) →
        ∃ h : Nat → Nat × Option Nat, h 0 = ((o.args l).getD 9 0, none) ∧
          (∀ i, i < n → TriangleStep (tri i) ray (h i) (h (i + 1))) ∧
          ∀ m, m ≤ n → (∀ i, i < m → tri i / 2 ^ 322 % 2 ^ 190 = 0 ∧ (f.t = 1 → (h i).2 = none)) →
            let ends := m = n ∨ (f.t = 1 ∧ (h m).2 ≠ none)
            (ends → lands (h m).2 (h m).1) ∧
            (¬ends → tri m / 2 ^ 322 % 2 ^ 190 ≠ 0 → refuses (at_ + 64 * m)))) ∧
    (o.i = .rxfm f → f.d + 11 ≤ 128 →
      (entType e ≠ 3 → EngineLands l f.d 0 (fun _ => 0) s) ∧
      (entType e = 3 → InstanceMalformed (record at_ 4) → refuses at_) ∧
      (entType e = 3 → ¬InstanceMalformed (record at_ 4) → ∃ val : Nat → Nat, EngineLands l f.d 11 val s ∧
        Transformed (record at_ 4) extra (fun k => (o.args l).getD (k + 2) 0) val)))

/-- R349-R352: the short stack. RSTKP pushes, and RSTKO pops or takes the named entry, in every ACTIVE lane; spill
mode goes on in scratch, after the lane's own earlier accesses to the same cell (R353), trail mode drops the oldest entry
and keeps the trail; RTRAIL restarts at the root. Lanes whose entry, state word or trail is malformed, or whose ring has
no room, trap and nothing is changed. That the stack instructions check their entries is the reading of log entry 21. -/
def Obligations.RayStacks : Prop :=
  (∀ (f : V3) (s : State) (cause : Nat → Option Cause), f.d + 19 < 128 →
    let v := fun (l : Nat) => (s.w.vreg l (f.d + 16)).toNat
    let xs := fun (l : Nat) => if f.t = 0 then [(s.w.vpair l f.a).toNat] else
      [(s.w.vpair l (f.a + 6)).toNat, (s.w.vpair l (f.a + 4)).toNat, (s.w.vpair l (f.a + 2)).toNat]
    (∀ l, Active s l → v l / 128 % 4 = 1 → PushesFit (xs l) (v l)) →
    (∀ l, ((∃ x ∈ xs l, entBad x = true) → cause l = some .rsvdField) ∧
      ((∀ x ∈ xs l, entBad x = false) → (stackBad (v l) = true ∨ ¬PushesFit (xs l) (v l)) →
        cause l = some .stackSpill) ∧
      ((∀ x ∈ xs l, entBad x = false) → stackBad (v l) = false → PushesFit (xs l) (v l) → cause l = none)) →
    OperandTrap (.rstkp f) (dstOf 1 f.d) cause s ∧
    ((∀ l, Active s l → cause l = none) → Gives (exec (.rstkp f) s) fun t => OnlyVector s t ∧ ∀ l r, r < 128 →
      let k := pushAll (xs l) (fun i => (s.w.vpair l (f.d + 2 * i)).toNat) (v l)
      t.w.vreg l r = if Active s l ∧ f.d ≤ r ∧ r < f.d + 16
          then BitVec.ofNat 32 (k.1 ((r - f.d) / 2) / 2 ^ (32 * ((r - f.d) % 2)))
        else if Active s l ∧ r = f.d + 16 then BitVec.ofNat 32 k.2 else s.w.vreg l r)) ∧
  (∀ (f : V3) (s : State) (l cell : Nat), f.t = 0 → l < 64 → s.w.active = laneBit l →
    let v := (s.w.vreg l (f.d + 16)).toNat
    let x := (s.w.vpair l f.a).toNat
    let off := ((s.w.vreg l (f.d + 17)).toNat + 8 * (v / 2 ^ 16)) % 2 ^ 32
    entBad x = false → x % 4 ≠ 0 → stackBad v = false → v / 8 % 16 = 8 → v / 128 % 4 = 1 → v / 2 ^ 16 < 65535 →
    off % 8 = 0 → scratchCell s off 8 = some cell → ScratchHeld s (· = l) cell 8 →
    exec (.rstkp f) s = .next { s with w := { s.w with hold := .again (.rstkp f) } }) ∧
  (∀ (f : V3) (s : State) (l cell : Nat), f.d + 19 < 128 → f.t = 0 → Single s l →
    let v := (s.w.vreg l (f.d + 16)).toNat
    let x := (s.w.vpair l f.a).toNat
    let off := ((s.w.vreg l (f.d + 17)).toNat + 8 * (v / 2 ^ 16)) % 2 ^ 32
    entBad x = false → x % 4 ≠ 0 → stackBad v = false → v / 8 % 16 = 8 → v / 128 % 4 = 1 →
    (v / 2 ^ 16 = 65535 → exec (.rstkp f) s = .next (raise .stackSpill (laneBit l) (dstOf 1 f.d) 0 s)) ∧
    (v / 2 ^ 16 < 65535 → off % 8 ≠ 0 →
      exec (.rstkp f) s = .next (raise .memAlign (laneBit l) (dstOf 1 f.d) (BitVec.ofNat 64 off) s)) ∧
    (v / 2 ^ 16 < 65535 → off % 8 = 0 → scratchCell s off 8 = some cell → Gives (exec (.rstkp f) s) fun t =>
      readScratch t.scratch cell 8 = (s.w.vpair l (f.d + 2 * (v % 8))).toNat ∧ ScratchBut cell 8 s t ∧ t.mem = s.mem ∧
      ∀ k r, r < 128 → t.w.vreg k r = if k = l ∧ r = f.d + 2 * (v % 8) then s.w.vreg l f.a
        else if k = l ∧ r = f.d + 2 * (v % 8) + 1 then s.w.vreg l (f.a + 1)
        else if k = l ∧ r = f.d + 16 then BitVec.ofNat 32 (v - v % 8 + (v % 8 + 1) % 8 + 2 ^ 16)
        else s.w.vreg k r)) ∧
  (∀ (f : V3) (s : State) (cause : Nat → Option Cause), f.a + 19 < 128 → f.d + 1 < 128 →
    (f.d + 1 < f.a ∨ f.a + 20 ≤ f.d) →
    let v := fun (l : Nat) => (s.w.vreg l (f.a + 16)).toNat
    let next := fun (l : Nat) => if f.t = 1 then (s.w.vpair l f.b).toNat else 0
    let takes := fun (l : Nat) => next l % 4 ≠ 0
    let trail := fun (l : Nat) => (s.w.vpair l (f.a + 18)).toNat
    let count := fun (l : Nat) => v l / 8 % 16
    let mode := fun (l : Nat) => v l / 128 % 4
    let spilt := fun (l : Nat) => ¬takes l ∧ count l = 0 ∧ mode l = 1 ∧ v l / 2 ^ 16 ≠ 0
    let off := fun (l : Nat) => ((s.w.vreg l (f.a + 17)).toNat + 8 * (v l / 2 ^ 16 - 1)) % 2 ^ 32
    let marked := fun (l : Nat) => ∃ k, k < 16 ∧ trail l / 2 ^ (4 * k + 2) % 2 = 1
    let bad := fun (l : Nat) => stackBad (v l) = true ∨ (¬takes l ∧ mode l = 2 ∧ marked l)
    (∀ l, Active s l → spilt l → off l % 8 = 0 ∧ ∃ cell, scratchCell s (off l) 8 = some cell) →
    (∀ l, (entBad (next l) = true → cause l = some .rsvdField) ∧
      (entBad (next l) = false → bad l → cause l = some .stackSpill) ∧
      (entBad (next l) = false → ¬bad l → cause l = none)) →
    OperandTrap (.rstko f) (dstOf 1 f.d) cause s ∧
    ((∀ l, Active s l → cause l = none) → (∃ l cell, Active s l ∧ spilt l ∧ scratchCell s (off l) 8 = some cell ∧
        ScratchHeld s (· = l) cell 8) →
      exec (.rstko f) s = .next { s with w := { s.w with hold := .again (.rstko f) } }) ∧
    ((∀ l, Active s l → cause l = none) → s.w.ops = [] → Gives (exec (.rstko f) s) fun t => OnlyVector s t ∧
      (∀ l r, r < 128 → (¬Active s l ∨ (r ≠ f.d ∧ r ≠ f.d + 1 ∧ r ≠ f.a + 16 ∧ r ≠ f.a + 18 ∧ r ≠ f.a + 19)) →
        t.w.vreg l r = s.w.vreg l r) ∧
      ∀ l, Active s l →
        let holds := fun (entry word path : Nat) => (t.w.vpair l f.d).toNat = entry ∧
          (t.w.vreg l (f.a + 16)).toNat = word ∧ (t.w.vpair l (f.a + 18)).toNat = path
        let h := (v l % 8 + 7) % 8
        let x := (s.w.vpair l (f.a + 2 * h)).toNat
        let depth := x / 2 ^ 54 % 16
        (takes l → holds (next l) (v l) (trail l)) ∧
        (¬takes l → count l ≠ 0 → holds x (v l - v l % 8 + h - 8) (if mode l = 2 ∧ depth ≠ 0
          then trail l % 2 ^ (4 * (depth - 1)) + (8 + x / 2 ^ 52 % 4) * 2 ^ (4 * (depth - 1)) else trail l)) ∧
        (∀ cell, spilt l → scratchCell s (off l) 8 = some cell →
          holds (readScratch s.scratch cell 8) (v l - 2 ^ 16) (trail l)) ∧
        (¬takes l → count l = 0 → ¬spilt l →
          holds (if mode l = 2 ∧ v l / 512 % 2 = 1 then 4 else 0) (v l) (trail l)))) ∧
  (∀ (f : V3) (s : State) (cause : Nat → Option Cause),
    let cur := fun (l : Nat) => (s.w.vpair l f.d).toNat
    let root := fun (l : Nat) => (s.w.vpair l f.b).toNat
    let v := fun (l : Nat) => (s.w.vreg l (f.a + 16)).toNat
    (∀ l, ((entBad (cur l) = true ∨ entBad (root l) = true) → cause l = some .rsvdField) ∧
      (entBad (cur l) = false → entBad (root l) = false → stackBad (v l) = true → cause l = some .stackSpill) ∧
      (entBad (cur l) = false → entBad (root l) = false → stackBad (v l) = false → cause l = none)) →
    (s.w.active = 0 → exec (.rtrail f) s = .next s) ∧ OperandTrap (.rtrail f) (dstOf 1 f.d) cause s ∧
    (s.w.active ≠ 0 → (∀ l, Active s l → cause l = none) → Gives (exec (.rtrail f) s) (EngineIssued (.rtrail f)
      (fun l => [cur l, root l, v l]) [] { need := .load } (fun _ => []) false s))) ∧
  (∀ (s : State) (o : Op) (l : Nat) (f : V3) (cur root v : Nat), EngineAlone s o l [] → o.i = .rtrail f →
    o.src = [(l, [cur, root, v])] → f.d + 1 < 128 → f.a + 16 < 128 → f.a + 16 ≠ f.d → f.a + 16 ≠ f.d + 1 →
    stackBad v = false →
    (cur ≠ 4 → EngineLands l f.d 0 (fun _ => 0) s) ∧
    (cur = 4 → Landed 3 s fun t => t.w.ops = [] ∧ ReadFrame s t ∧ t.w.s = s.w.s ∧ ∀ k r, r < 128 →
      t.w.vreg k r = if k = l ∧ r = f.d then BitVec.ofNat 32 root
        else if k = l ∧ r = f.d + 1 then BitVec.ofNat 32 (root / 2 ^ 32 % 2 ^ 20 + root / 2 ^ 58 % 2 ^ 6 * 2 ^ 26)
        else if k = l ∧ r = f.a + 16 then BitVec.ofNat 32 (v - v / 512 % 2 * 512) else s.w.vreg k r))

/-! ## Queue programs (R377-R395, R443) -/

/-- R386, R387, R389: the words of a queue program that compute, branch and loop, those that end a run without memory,
and LAUNCH and SIGNAL. The 257th instruction of a run faults the queue with BUDGET. R378, R385, R443: the timer
notifies a queue; a notified queue, unless it is suspended or faulted, reads WIDX at its home: a count beyond its ring
faults it with OVERRUN, a run goes on, and otherwise pending packets make it READY. The QUEUE event of a fault carries its
code (R389). A READY queue alone on its stack starts a run over the packet at its held index; a packet that
cannot be read faults it. A packet at 2^52 or above faults as log entry 40 says; a run takes turns as log entry 1
says. -/
def Obligations.QueueProgramWords : Prop :=
  ((∀ d off w, QueueRegister (.qpld d off w) 1 d fun q =>
     BitVec.ofNat 64 (ofBytes ((q.buf.drop off).take (if w = 1 then 8 else 4)))) ∧
   (∀ d a b, QueueRegister (.qadd d a b) 1 d (fun q => q.reg a + q.reg b) ∧
     QueueRegister (.qsub d a b) 1 d (fun q => q.reg a - q.reg b) ∧
     QueueRegister (.qand d a b) 1 d (fun q => q.reg a &&& q.reg b) ∧
     QueueRegister (.qor d a b) 1 d (fun q => q.reg a ||| q.reg b) ∧
     QueueRegister (.qxor d a b) 1 d (fun q => q.reg a ^^^ q.reg b) ∧
     QueueRegister (.qshl d a b) 1 d (fun q => BitVec.ofNat 64 ((q.reg a).toNat * 2 ^ ((q.reg b).toNat % 64))) ∧
     QueueRegister (.qshr d a b) 1 d (fun q => BitVec.ofNat 64 ((q.reg a).toNat / 2 ^ ((q.reg b).toNat % 64)))) ∧
   (∀ d a imm, QueueRegister (.qaddi d a imm) 1 d (fun q => q.reg a + (BitVec.ofNat 12 imm).signExtend 64)) ∧
   (∀ d imm, QueueRegister (.qli d imm) 2 d (fun _ => (BitVec.ofNat 32 imm).signExtend 64) ∧
     QueueRegister (.qlih d imm) 2 d (fun q =>
       BitVec.ofNat 64 (imm % 2 ^ 32 * 2 ^ 32 + (q.reg d).toNat % 2 ^ 32))) ∧
   (∀ d a b c, c < 6 → QueueRegister (.qcmp d a b c) 1 d (fun q =>
     let x := q.reg a
     let y := q.reg b
     let holds := (c = 0 ∧ x = y) ∨ (c = 1 ∧ x ≠ y) ∨ (c = 2 ∧ x.toNat < y.toNat) ∨ (c = 3 ∧ y.toNat ≤ x.toNat) ∨
       (c = 4 ∧ x.toInt < y.toInt) ∨ (c = 5 ∧ y.toInt ≤ x.toInt)
     if holds then 1 else 0)) ∧
   (∀ (s : State) (r : Run), Running s r →
     let q := s.q
     let out := fun (pc : Nat) => match r.loop with
       | some (b, e, k) => if e < pc then none else some (b, e, k)
       | none => none
     (∀ b off w, let n := if w = 1 then 8 else 4
       off + n ≤ q.buf.length → Gives (exec (.qpst b off w) s) fun t =>
         t = { s with q := { q with buf := t.q.buf, run := some (Run.at_ r (r.pc + 1)) } } ∧
         t.q.buf.length = q.buf.length ∧ ∀ k, t.q.buf.getD k 0 =
           if off ≤ k ∧ k < off + n then (q.reg b).toNat / 2 ^ (8 * (k - off)) % 256 else q.buf.getD k 0) ∧
     (∀ a imm, (q.reg a = 0 → QueueGoes (.qbz a imm) s r (r.pc + imm) (out (r.pc + imm)) ∧
         QueueGoes (.qbnz a imm) s r (r.pc + 1) r.loop) ∧
       (q.reg a ≠ 0 → QueueGoes (.qbz a imm) s r (r.pc + 1) r.loop ∧
         QueueGoes (.qbnz a imm) s r (r.pc + imm) (out (r.pc + imm)))) ∧
     (∀ imm, QueueGoes (.qjmp imm) s r (r.pc + imm) (out (r.pc + imm))) ∧
     (∀ a imm, let n := min (q.reg a).toNat imm
       let e := endlFrom (r.pc + 1) (q.prog.drop (r.pc + 1))
       (n = 0 → QueueGoes (.qloop a imm) s r (e + 1) r.loop) ∧
       (n ≠ 0 → QueueGoes (.qloop a imm) s r (r.pc + 1) (some (r.pc + 1, e, n)))) ∧
     (∀ b e k, r.loop = some (b, e, k) → (1 < k → QueueGoes .qendl s r b (some (b, e, k - 1))) ∧
       (k ≤ 1 → QueueGoes .qendl s r (r.pc + 1) none)) ∧
     (let list := s.ready.filter fun p => p.stack == q.home && p.cls == q.cls
      (list.length < 1024 → exec .qlaunch s = .next { s with
        q := { q with run := some (Run.at_ r (r.pc + 1)) }
        ready := s.ready ++ [{ ctx := q.ctx, q := q.num, stack := q.home, cls := q.cls, bytes := q.buf }] }) ∧
      (1024 ≤ list.length → exec .qlaunch s = .next s)) ∧
     (∀ a, let n := (q.reg a).toNat % 64
       (n = q.num → exec (.qsignal a) s = .next { s with
         q := { q with notified := true, run := some (Run.at_ r (r.pc + 1)) } }) ∧
       (n ≠ q.num → (∀ x ∈ s.queues, ¬(x.ctx = q.ctx ∧ x.num = n)) → QueueGoes (.qsignal a) s r (r.pc + 1) r.loop) ∧
       (∀ (pre post : List Queue) (x : Queue), n ≠ q.num → s.queues = pre ++ x :: post → x.ctx = q.ctx → x.num = n →
         (∀ y ∈ pre, ¬(y.ctx = q.ctx ∧ y.num = n)) → exec (.qsignal a) s = .next { s with
           q := { q with run := some (Run.at_ r (r.pc + 1)) }
           queues := pre ++ { x with notified := true } :: post })) ∧
     (Gives (exec .qretry s) fun t => t.q = { q with run := none, state := .waiting } ∧ t = { s with q := t.q, rr := t.rr }) ∧
     (∀ imm, Gives (exec (.qfault imm) s) fun t => QueueFaults s t ∧ QueueEvent (0x100 + imm) s t)) ∧
   (∀ (s : State) (r : Run), s.q.on = true → s.q.run = some r → 256 ≤ r.used →
     Gives (exec .evBudget s) fun t => QueueFaults s t ∧ QueueEvent 1 s t)) ∧
  (∀ s : State, s.q.on = true → s.queues = [] →
     let q := s.q
     let run := Instr.evRun q.ctx q.num
     exec (.evQueueTimer q.ctx q.num) s = .next { s with q := { q with notified := true } } ∧
     (∀ leaf, q.notified = true → q.state ≠ .suspended → q.state ≠ .faulted →
       CpPage s q.home q.ctx (q.desc + 12) 4 .load leaf →
       let widx := readMem s.mem (leaf.addr (q.desc + 12)) 4
       let pending := (widx + 2 ^ 32 - q.ridx) % 2 ^ 32
       (2 ^ q.ringLog2 < pending → Gives (exec run s) fun t => t.q.state = .faulted ∧ t.q.run = none ∧ t.q.ridx = q.ridx ∧
         QueueEvent 2 s t) ∧
       (∀ r, q.run = some r → pending ≤ 2 ^ q.ringLog2 → Gives (exec run s) fun t => t.q.run = some r ∧
         t.q.state = q.state ∧ t.q.widx = widx ∧ t.q.notified = false ∧ t.q.c = q.c ∧ t.q.ridx = q.ridx) ∧
       (q.run = none → pending ≤ 2 ^ q.ringLog2 → widx = q.ridx → Gives (exec run s) fun t => t.q.state = .idle ∧
         t.q.run = none ∧ t.q.widx = widx ∧ t.q.notified = false) ∧
       (q.run = none → pending ≤ 2 ^ q.ringLog2 → widx ≠ q.ridx → Gives (exec run s) fun t => t.q.widx = widx ∧
         (t.q.state = .ready ∨ t.q.state = .faulted) ∧ t.q.c = q.c ∧ t.q.ridx = q.ridx)) ∧
     ((q.state = .suspended ∨ q.state = .faulted) → exec run s = .next s) ∧
     (q.notified = false → q.state = .ready → q.run = none →
       let va := (q.ring + 64 * (q.ridx % 2 ^ q.ringLog2)) % 2 ^ 64
       (2 ^ 52 ≤ va → Gives (exec run s) fun t => t.q.state = .faulted ∧ t.q.run = none) ∧
       (∀ leaf, CpPage s q.home q.ctx va 64 .load leaf → Gives (exec run s) fun t =>
         t = { s with q := t.q, tlb := t.tlb, lines := t.lines, fresh := t.fresh, evicted := t.evicted, rr := t.rr } ∧
         t.q = { q with buf := (List.range 64).map fun k => (readByte s.mem (leaf.addr va + k)).toNat
                        run := some { pc := 0, used := 0, loop := none } })) ∧
     (q.notified = false → q.state ≠ .ready → exec run s = .next s))

/-- R386, R387, R390, R392-R394, R443: the words that access memory. A window access is made inside its window at its
home; a counter step decrements COUNT, or arms the pair with the packet buffer, and pushes the armed packet when
COUNT comes to 0; DONE advances the index and writes its copy, and a queue notified meanwhile reads WIDX before it rests. An access
that fails faults the queue, with the code of R389. An address at or above 2^52 is refused as log entry 40 says; an armed
slot's GEN starts as log entry 12 says and the lowest free slot is taken (log entry 42). A HANDLE with one of bits 15:14
set is refused as a stale one, by log entry 63. -/
def Obligations.QueueMemoryWords : Prop :=
  ∀ (s : State) (r : Run), Running s r →
    let q := s.q
    let unit := cpUnit q.home
    let refused := fun (va : Nat) (need : Need) =>
      2 ^ 52 ≤ va ∨ ∃ l k, xlate s unit q.ctx va need = .perm l k ∨ xlate s unit q.ctx va need = .bad l ∨
        xlate s unit q.ctx va need = .replay l
    let onto := fun (t : State) => t.q.run = some (Run.at_ r (r.pc + 1)) ∧ t.w = s.w
    let fails := fun (i : Instr) (va : Nat) (need : Need) =>
      (refused va need → Gives (exec i s) (QueueFaults s)) ∧
      (∀ l k, va < 2 ^ 52 → xlate s unit q.ctx va need = .perm l k → Gives (exec i s) (QueueEvent 5 s)) ∧
      (s.faults = [] → s.updates = [] → SMap.get 0 s.faultBase q.home = 0 →
        (2 ^ 52 ≤ va ∨ ∃ l, xlate s unit q.ctx va need = .bad l ∨ xlate s unit q.ctx va need = .replay l) →
        Gives (exec i s) (QueueEvent 4 s))
    (∀ d a off w n leaf, let size := if w = 1 then 8 else 4
      let va := windowAt q n a off size
      fails (.qwld d a off w n) va .load ∧
      (CpPage s q.home q.ctx va size .load leaf → Gives (exec (.qwld d a off w n) s) fun t => onto t ∧
        t.mem = s.mem ∧ ∀ k, t.q.reg k = if k = d then BitVec.ofNat 64 (readMem s.mem (leaf.addr va) size)
          else q.reg k)) ∧
    (∀ a b off w n leaf, let size := if w = 1 then 8 else 4
      let va := windowAt q n a off size
      fails (.qwst a b off w n) va .store ∧
      (CpPage s q.home q.ctx va size .store leaf → Gives (exec (.qwst a b off w n) s) fun t => onto t ∧
        Stored (leaf.addr va) size (q.reg b).toNat s t ∧ t.q.c = q.c)) ∧
    (∀ d a b off n leaf, let va := windowAt q n a off 4
      fails (.qwadd d a b off n) va .rmw ∧
      (CpPage s q.home q.ctx va 4 .rmw leaf → let old := readMem s.mem (leaf.addr va) 4
        Gives (exec (.qwadd d a b off n) s) fun t => onto t ∧
          Stored (leaf.addr va) 4 (old + (q.reg b).toNat) s t ∧
          ∀ k, t.q.reg k = if k = d then BitVec.ofNat 64 old else q.reg k)) ∧
    (∀ a off n leaf, let va := windowAt q n a off 8
      fails (.qdepdec a off n) va .rmw ∧
      (CpPage s q.home q.ctx va 8 .rmw leaf →
        let pa := leaf.addr va
        let count := (readMem s.mem pa 4 + (2 ^ 32 - 1)) % 2 ^ 32
        let handle := readMem s.mem (pa + 4) 4
        let slot := handle % 2 ^ 12
        let stack := handle / 2 ^ 12 % 4
        (handle < 2 ^ 31 → Gives (exec (.qdepdec a off n) s) fun t => onto t ∧ Stored pa 8 (count + handle * 2 ^ 32) s t ∧
          t.ready = s.ready ∧ t.armed = s.armed) ∧
        (∀ x : ArmedSlot, 2 ^ 31 ≤ handle → handle / 2 ^ 14 % 4 = 0 → s.armed = [x] → x.stack = stack → x.slot = slot → x.due = false →
          SMap.get 0 s.gens (4096 * stack + slot) = handle / 2 ^ 16 % 2 ^ 15 →
          (count ≠ 0 → Gives (exec (.qdepdec a off n) s) fun t => onto t ∧
            Stored pa 8 (count + handle * 2 ^ 32) s t ∧ t.ready = s.ready ∧ t.armed = s.armed) ∧
          (count = 0 → s.ready = [] → Gives (exec (.qdepdec a off n) s) fun t => onto t ∧ Stored pa 8 0 s t ∧
            t.ready = [x.packet] ∧ t.armed = [])) ∧
        (2 ^ 31 ≤ handle → (s.armed = [] ∨ handle / 2 ^ 14 % 4 ≠ 0) → s.eventRing = none →
          Gives (exec (.qdepdec a off n) s) fun t => onto t ∧
          Stored pa 8 count s t ∧ t.ready = s.ready ∧ t.overflow = s.overflow + 1))) ∧
    (∀ a b off n leaf, let va := windowAt q n a off 8
      fails (.qdepset a b off n) va .rmw ∧
      (CpPage s q.home q.ctx va 8 .rmw leaf →
        let pa := leaf.addr va
        let count := (readMem s.mem pa 4 + (q.reg b).toNat) % 2 ^ 32
        let handle := readMem s.mem (pa + 4) 4
        let slot := handle % 2 ^ 12
        let stack := handle / 2 ^ 12 % 4
        let packet : Packet := { ctx := q.ctx, q := q.num, stack := q.home, cls := q.cls, bytes := q.buf }
        (2 ^ 31 ≤ handle → handle / 2 ^ 14 % 4 = 0 → (∃ x ∈ s.armed, x.stack = stack ∧ x.slot = slot ∧ x.due = false) →
          SMap.get 0 s.gens (4096 * stack + slot) = handle / 2 ^ 16 % 2 ^ 15 →
          Gives (exec (.qdepset a b off n) s) fun t => QueueFaults s t ∧ QueueEvent 3 s t) ∧
        (handle < 2 ^ 31 → (∀ k, k < 4096 → ∃ x ∈ s.armed, x.stack = q.home ∧ x.slot = k) →
          Gives (exec (.qdepset a b off n) s) fun t => t = { s with tlb := t.tlb, lines := t.lines, fresh := t.fresh }) ∧
        ((handle < 2 ^ 31 ∨ s.eventRing = none) → s.armed = [] → q.home < 4 →
          let gen := (SMap.get 0 s.gens (4096 * q.home) + 1) % 2 ^ 15
          let new := q.home * 2 ^ 12 + gen * 2 ^ 16 + 2 ^ 31
          (count ≠ 0 → Gives (exec (.qdepset a b off n) s) fun t => onto t ∧ Stored pa 8 (count + new * 2 ^ 32) s t ∧
            t.armed = [{ stack := q.home, slot := 0, packet := packet }] ∧ t.ready = s.ready ∧
            SMap.get 0 t.gens (4096 * q.home) = gen) ∧
          (count = 0 → s.ready = [] → Gives (exec (.qdepset a b off n) s) fun t => onto t ∧ Stored pa 8 0 s t ∧
            t.armed = [] ∧ t.ready = [packet])))) ∧
    (∀ leaf, let next := (q.ridx + 1) % 2 ^ 32
      let va := q.desc + 16
      (refused va .store → Gives (exec .qdone s) fun t => t.q.state = .faulted ∧ t.q.run = none ∧ t.q.ridx = next) ∧
      (CpPage s q.home q.ctx va 4 .store leaf → q.notified = false →
        (q.widxPa = 0 ∨ leaf.addr va + 4 < q.widxPa ∨ q.widxPa + 3 ≤ leaf.addr va) →
        Gives (exec .qdone s) fun t => t.q.run = none ∧ t.q.ridx = next ∧ Stored (leaf.addr va) 4 next s t ∧ t.w = s.w ∧
          t.q.state = if q.widx = next then .idle else .ready) ∧
      (∀ page, let at_ := q.desc + 12
        let widx := readMem s.mem (page.addr at_) 4
        CpPage s q.home q.ctx va 4 .store leaf → CpHeld s q.home q.ctx at_ 4 .load page → q.notified = true →
        (leaf.addr va + 4 ≤ page.addr at_ ∨ page.addr at_ + 4 ≤ leaf.addr va) → Gives (exec .qdone s) fun t =>
          t.q.run = none ∧ t.q.ridx = next ∧ t.q.widx = widx ∧
          t.q.state = if 2 ^ q.ringLog2 < (widx + 2 ^ 32 - next) % 2 ^ 32 then .faulted
            else if widx = next then .idle else .ready))

/-- R380-R384, R398: the dispatch packets. A NOP completes with status 0; a refused or malformed packet with status 1,
a launch or copy of a squashed version with status 3. A launch reads its kernel header, and for a pool its descriptor (R399),
and joins the launches; a copy joins the commands of a copy engine, a commit merges its version into the parent and, into
tag 0, completes when its log has been replayed, a squash ends its version, an invalidation drops the TLB entries of its
range, a resolution ends a pending fault. The completion engine writes the status word, then decrements the
counter at DONE. The steps of a dispatcher and of the completion engine are the model's (log entries 1 and 37). -/
def Obligations.DispatchPackets : Prop :=
  (∀ (s : State) (p : Packet) (stack : Nat),
    (p.type = 0 → Takes (.evNopPacket stack) stack p s (Completes p 0 0 s)) ∧
    (6 ≤ p.type → Takes (.evNopPacket stack) stack p s (Completes p 1 0 s)) ∧
    (p.type = 1 →
      let launch := Takes (.evKernelLaunch stack) stack p s
      let v := mergedTag s p.ctx p.version
      ((tagOf s p.ctx v).state = 0 → launch (Completes p 1 0 s)) ∧
      (2 ≤ (tagOf s p.ctx v).state → launch (Completes p 3 0 s)) ∧
      ((tagOf s p.ctx v).state = 1 → launchBad p = true → launch (Completes p 1 v s)) ∧
      (∀ leaf, (tagOf s p.ctx v).state = 1 → v = 0 → launchBad p = false →
        CpPage s p.stack p.ctx p.khdr 64 .load leaf →
        let header := (List.range 64).map fun k => (readByte s.mem (leaf.addr p.khdr + k)).toNat
        (kernelRefusal p.khdr header p.pool ≠ 0 → launch (Completes p 1 0 s)) ∧
        (kernelRefusal p.khdr header p.pool = 0 → p.pool = false → launch fun t =>
          t.launches = s.launches ++ [newLaunch p (readKernel p.khdr header) 0 s.nextId] ∧
          t.completions = s.completions) ∧
        (kernelRefusal p.khdr header p.pool = 0 → p.pool = true → tlbHit s (cpUnit p.stack) p.ctx p.khdr = some leaf →
          let a := p.poola
          (a % 64 ≠ 0 → launch (Completes p 1 0 s)) ∧
          (∀ page, a % 64 = 0 → CpHeld s p.stack p.ctx a 64 .rmw page →
            let desc := (List.range 64).map fun k => (readByte s.mem (page.addr a + k)).toNat
            let ring := field desc 0 8
            let log2 := field desc 8 1
            let fits := page.ver = false ∧ ring % 65536 = 0 ∧ 5 ≤ log2 ∧ log2 ≤ 20 ∧ 1 ≤ field desc 9 1 ∧
              field desc 9 1 ≤ 64 ∧ field desc 10 2 = 0 ∧ ∀ k, 28 ≤ k → k < 64 → field desc k 1 = 0
            let formed := field desc 24 4
            (¬fits → launch (Completes p 1 0 s)) ∧
            (∀ k r, 65536 * k < 32 * 2 ^ log2 → CpHeld s p.stack p.ctx (ring + 65536 * k) 4 .rmw r → r.fe = false →
              launch (Completes p 1 0 s)) ∧
            (fits → (∀ k, 65536 * k < 32 * 2 ^ log2 → ∃ r, CpHeld s p.stack p.ctx (ring + 65536 * k) 4 .rmw r ∧
                r.fe = true) →
              launch fun t => t.completions = s.completions ∧ t.launches = s.launches ++
                [{ newLaunch p (readKernel p.khdr header) 0 s.nextId with
                   count := formed, nextGroup := formed, completed := formed
                   flushPa := page.addr (a + 20) + 1 }])))) ∧
      ((tagOf s p.ctx v).state = 1 → v = 0 → launchBad p = false →
        (2 ^ 52 ≤ p.khdr ∨ leafOf s (cpUnit p.stack) p.ctx p.khdr .load = none ∨
          ∃ leaf, leafOf s (cpUnit p.stack) p.ctx p.khdr .load = some leaf ∧
            s.poison.contains (leaf.addr p.khdr / 128) = true) → launch (Completes p 1 0 s))) ∧
    (p.type = 2 → ∀ core, copyCore s p core = true →
      let copy := Takes (.evCopyPacket stack core) stack p s
      let v := mergedTag s p.ctx p.version
      let bad := field p.bytes 0 8 / 2 ^ 12 ≠ 0 ∨ field p.bytes 44 4 ≠ 0
      ((tagOf s p.ctx v).state = 0 → copy (Completes p 1 0 s)) ∧
      (2 ≤ (tagOf s p.ctx v).state → copy (Completes p 3 0 s)) ∧
      ((tagOf s p.ctx v).state = 1 → bad → copy (Completes p 1 v s)) ∧
      ((tagOf s p.ctx v).state = 1 → ¬bad → copy fun t => t.completions = s.completions ∧ ∃ c : Cmd,
        t.cmds = s.cmds ++ [c] ∧ c.kind = 3 ∧ c.core = core ∧ c.ctx = p.ctx ∧ c.tag = v ∧ c.packet = some p ∧
        c.accepted = false ∧ c.nums = [field p.bytes 8 8, field p.bytes 16 8, field p.bytes 24 4, field p.bytes 28 4,
          field p.bytes 32 4, field p.bytes 36 4, field p.bytes 40 4])) ∧
    (p.type = 3 →
      let commit := Takes (.evCommitPacket stack) stack p s
      let op := field p.bytes 1 1 / 16 % 4
      let bad := field p.bytes 0 48 / 2 ^ 14 ≠ 0 ∨ 2 ≤ op ∨ p.version = 0 ∨ (tagOf s p.ctx p.version).state ≠ 1
      (bad → commit (Completes p 1 0 s)) ∧
      (¬bad → op = 0 → CommitsAlone p.ctx p.version s → s.pending = [] → s.updates = [] →
        (∀ c ∈ s.completions, c.packet.ctx ≠ p.ctx) →
        commit fun t => Committed p.ctx p.version s t ∧ t.completions = s.completions ++ [{
          packet := p, status := 0, cause := 0, version := 0
          stage := if (tagOf s p.ctx p.version).parent = 0 then 16 + p.version else 0 }]) ∧
      (¬bad → op = 1 → children s p.ctx p.version = [] → (∀ w ∈ allWaves s, w.version ≠ p.version) → s.st = {} →
        s.streams = [] → s.launches = [] → s.cohorts = [] →
        (∀ c ∈ s.completions, ¬(c.packet.ctx = p.ctx ∧ c.version = p.version)) →
        commit fun t => (tagOf t p.ctx p.version).state = 2 ∧ t.mem = s.mem ∧ Completes p 0 0 s t)) ∧
    (p.type = 4 →
      let drop := Takes (.evInvalidation stack) stack p s
      let base := field p.bytes 8 8
      let len := field p.bytes 16 8
      let bad := field p.bytes 0 8 / 2 ^ 13 ≠ 0 ∨ field p.bytes 24 24 ≠ 0 ∨ base % 65536 ≠ 0 ∨ len % 65536 ≠ 0
      (bad → drop (Completes p 1 0 s)) ∧
      (¬bad → drop fun t => (∀ x, x ∈ t.tlb ↔ x ∈ s.tlb ∧
          ¬(x.ctx = p.ctx ∧ base ≤ 65536 * x.vpn ∧ 65536 * x.vpn < base + len)) ∧
        t.completions = s.completions ++ [{ packet := p, status := 0, cause := 0, version := 0, stage := 8 }])) ∧
    (p.type = 5 →
      let end_ := Takes (.evFaultResolution stack) stack p s
      let act := field p.bytes 1 1 % 4
      let token := field p.bytes 4 4
      (2 ≤ act → end_ (Completes p 1 0 s)) ∧
      ((∀ r ∈ s.faults, ¬(r.replay = true ∧ r.written = true ∧ r.token = token ∧ r.ctx = p.ctx)) →
        end_ (Completes p 1 0 s)) ∧
      (∀ r, act = 0 → s.faults = [r] → r.replay = true → r.written = true → r.token = token → r.ctx = p.ctx →
        s.waves = [] → s.st = {} → s.streams = [] → s.engine = [] →
        (∀ again va, s.w.on = true → s.w.hold = .fault (some again) token va →
          end_ fun t => Completes p 0 0 s t ∧ t.faults = [] ∧ t.w = { s.w with hold := .again again }) ∧
        ((s.w.on = false ∨ s.w.hold = .none) → end_ fun t => Completes p 0 0 s t ∧ t.faults = [] ∧ t.w = s.w)))) ∧
  (∀ (s : State) (c : Completion), s.completions = [c] → c.cohorts = [] → c.version = 0 →
    let p := c.packet
    let step := Gives (exec (.evPacketCompletion 0) s)
    (s.cmds = [] → c.stage = 0 → p.statusa = 0 → step fun t => t = { s with completions := [{ c with stage := 1 }] }) ∧
    (∀ leaf, s.cmds = [] → c.stage = 0 → p.statusa ≠ 0 → CpPage s p.stack p.ctx p.statusa 4 .store leaf →
      step fun t => t.completions = [{ c with stage := 1 }] ∧
        Stored (leaf.addr p.statusa) 4 (c.status % 256 + c.cause % 256 * 2 ^ 8) s t ∧ t.w = s.w) ∧
    (s.cmds = [] → c.stage = 1 → p.done = 0 → step fun t => t = { s with completions := [] }) ∧
    (∀ leaf, s.cmds = [] → c.stage = 1 → p.done ≠ 0 → CpPage s p.stack p.ctx p.done 8 .rmw leaf →
      let pa := leaf.addr p.done
      readMem s.mem (pa + 4) 4 < 2 ^ 31 → step fun t => t.completions = [] ∧
        Stored pa 8 ((readMem s.mem pa 4 + (2 ^ 32 - 1)) % 2 ^ 32 + readMem s.mem (pa + 4) 4 * 2 ^ 32) s t) ∧
    (∀ tag, c.stage = 16 + tag →
      ((∃ e ∈ s.replay, e.ctx = p.ctx ∧ e.tag = tag) → exec (.evPacketCompletion 0) s = .next s) ∧
      ((∀ e ∈ s.replay, ¬(e.ctx = p.ctx ∧ e.tag = tag)) →
        step fun t => t = { s with completions := [{ c with stage := 0 }] })) ∧
    (let inside := fun (va : Nat) => field p.bytes 8 8 ≤ va ∧ va < field p.bytes 8 8 + field p.bytes 16 8
     c.stage = 8 → ((∃ x ∈ s.pending, x.ctx = p.ctx ∧ inside x.va) ∨
       (∃ u ∈ s.updates, u.ctx = p.ctx ∧ ∃ o ∈ u.orgs, inside o.va) ∨
       ∃ w ∈ allWaves s, w.ctx = p.ctx ∧ ∃ o ∈ w.ops, onScratch o.i = false ∧ o.perf ≠ o.lanes ∧ ∃ a ∈ o.sites, inside a.1) →
     exec (.evPacketCompletion 0) s = .next s))

/-- R16, R73, R93, R105, R267, R396, R397, R400-R403, R405: the dispatcher places the next cohort of the launch that has
the first claim on it, or places one again at its restart label, on the cluster with the fewest resident waves on which
it fits; a grid that is alone is placed as far as it fits. An expired watchdog discards every cohort of its context. A
pool's front end consumes a record into a bin and emits the bins that R400 names; a flush that is noticed, or
quiescence, emits every bin that holds a record; a quiescent pool without records completes. Which work a dispatcher
takes, how pre-emption comes in, and when the descriptor is read are the readings of log entries 34, 35 and 36. -/
def Obligations.LaunchesAndPools : Prop :=
  (∀ (s : State) (stack cluster : Nat) (l : Launch) (x : Waiting) (cores : List Nat), FirstWork s stack l →
    mergedTag s l.ctx x.version = x.version → (tagOf s l.ctx x.version).state = 1 → l.kernel.width ≤ 64 →
    let part := keyStacks s l.packet.key
    let group : Waiting :=
      { group := l.nextGroup, label := l.kernel.restart, restarts := 0, version := l.version, formed := none }
    PlacesOn s part l.kernel cluster cores →
    (l.waiting = [] → l.formedQueue = [] → l.pool = false → x = group →
      (l.nextGroup + 1 = l.count ∨ (l.nextGroup < l.count ∧
        ∃ c ∈ s.cohorts, c.launch ≠ l.id ∧ part.testBit (c.cluster / 8) = true)) →
      Gives (exec (.evPlacement stack) s) (Placed l x false cluster cores s)) ∧
    (∀ f, l.waiting = [] → l.formedQueue = [f] → l.pool = true → x = { group with group := 0, formed := some f } →
      Gives (exec (.evPlacement stack) s) (Placed l x false cluster cores s)) ∧
    (l.waiting.head? = some x → Gives (exec (.evRelaunch stack) s) (Placed l x true cluster cores s)) ∧
    (s.launches = [l] → s.ready = [] → s.cohorts = [] → l.waiting = [] → l.formedQueue = [] → l.pool = false →
      x = group → l.nextGroup < l.count → l.count < l.nextGroup + 16384 →
      Gives (exec (.evPlacement stack) s) fun t => ∃ m, t.launches = [m] ∧ l.nextGroup < m.nextGroup ∧
        m.nextGroup ≤ l.count ∧ t.cohorts.map Cohort.group = List.range' l.nextGroup (m.nextGroup - l.nextGroup) ∧
        (m.nextGroup = l.count ∨ ∀ c cs, ¬PlacesOn t part l.kernel c cs))) ∧
  (∀ (s : State) (stack : Nat) (l : Launch), FirstWork s stack l → s.launches = [l] → s.ready = [] → 0 < l.packet.cls →
    launchWork l ≠ none → mergedTag s l.ctx l.version = l.version → (tagOf s l.ctx l.version).state = 1 →
    (∀ x ∈ l.waiting, x.version = l.version) → (∀ c cs, ¬PlacesOn s (keyStacks s l.packet.key) l.kernel c cs) →
    exec (.evPlacement stack) s = .next s ∧ exec (.evRelaunch stack) s = .next s) ∧
  (∀ (s : State) (k : Nat) (x : Watch), s.watches[k]? = some x →
    (s.now < x.until_ → exec (.evWatchdog k) s = .next s) ∧
    (x.until_ ≤ s.now → Gives (exec (.evWatchdog k) s) fun t => ∀ c ∈ t.cohorts, c ∈ s.cohorts ∧ c.ctx ≠ x.ctx)) ∧
  (∀ (s : State) (l : Launch), s.launches = [l] → l.pool = true →
    (l.flush = true → l.bins = [] → Gives (exec (.evPoolFlush l.id) s) fun t =>
      t = { s with launches := [{ l with flush := false }] }) ∧
    (∀ leaf, l.flush = true → CpHeld s l.packet.stack l.ctx (l.poolA + 24) 4 .store leaf →
      l.flushPa = leaf.addr (l.poolA + 20) + 1 → Gives (exec (.evPoolFlush l.id) s) (EmitsAll l leaf s)) ∧
    (l.flush = false → exec (.evPoolFlush l.id) s = .next s) ∧
    (∀ leaf, l.version = 0 → l.status ≠ 3 → CpHeld s l.packet.stack l.ctx l.poolA 64 .load leaf →
      let desc := (List.range 64).map fun k => (readByte s.mem (leaf.addr l.poolA + k)).toNat
      let ridx := field desc 16 4
      (field desc 12 4 = ridx → s.cohorts = [] → l.waiting = [] → l.formedQueue = [] → l.bins = [] →
        Gives (exec (.evPoolQuiescence l.id) s) fun t => t.launches = [] ∧ t.completions = s.completions ++
          [{ packet := l.packet, status := l.status, cause := l.cause, version := 0, stage := 0
             cohorts := l.members }]) ∧
      (field desc 12 4 = ridx → s.cohorts = [] → l.waiting = [] → l.formedQueue = [] → l.flush = false →
        (∃ b, b < 64 ∧ SMap.get [] l.bins b ≠ []) → CpHeld s l.packet.stack l.ctx (l.poolA + 24) 4 .store leaf →
        l.flushPa = leaf.addr (l.poolA + 20) + 1 →
        Gives (exec (.evPoolQuiescence l.id) s) (EmitsAll l leaf s)) ∧
      (field desc 12 4 ≠ ridx → exec (.evPoolQuiescence l.id) s = .next s) ∧
      (∀ page, let va := poolRing desc + 32 * (ridx % 2 ^ poolLog2 desc)
        let pa := page.addr va
        CpHeld s l.packet.stack l.ctx va 32 .rmw page → page.fe = true → page.ver = false →
        (readBit s.mem (feCell (pa + 28)) = false → exec (.evPoolRecord l.id) s = .next s) ∧
        (∀ b first, readBit s.mem (feCell (pa + 28)) = true →
          let bin := fun (k : Nat) => SMap.get [] l.bins k
          let record := (readMem s.mem pa 8, (List.range 6).map fun k => readMem s.mem (pa + 8 + 4 * k) 4)
          let old := if first = true then [] else bin b
          let full := old.length + 1 = l.kernel.width
          BinFor bin (poolBins desc) record.1 b first →
          CpHeld s l.packet.stack l.ctx (l.poolA + 16) 4 .store leaf →
          CpHeld s l.packet.stack l.ctx (l.poolA + 24) 4 .store leaf →
          (∀ a, readBit s.mem (waitCell a) = false) → Gives (exec (.evPoolRecord l.id) s) fun t =>
            readBit t.mem (feCell (pa + 28)) = false ∧
            readMem t.mem (leaf.addr (l.poolA + 16)) 4 = (ridx + 1) % 2 ^ 32 ∧
            ∃ m, t.launches = [m] ∧
              Emits l ((if first = true then [bin b] else []) ++ if full then [old ++ [record]] else []) leaf m t ∧
              ∀ k, SMap.get [] m.bins k = if k = b then (if full then [] else old ++ [record]) else bin k))))

/-! ## The control protocol (R375-R379, R424-R435) -/

/-- R428-R430: ownership. A CLAIM while there is no owner joins the roll call that the first one opens; 20 ms after it
opened, the claim of lowest priority, nonce and MASTER wins and every claimant hears of it. Ownership lapses 500
ms after the owner's last request; HANDOVER names a successor, whose ACCEPT within 100 ms takes it. Which masters
are admitted, that a request not admitted is dropped without a reply, what a repeated request does and what counts as the
owner's last request are the readings of log entry 38; that a late ACCEPT is refused with status 1, of log entry 39; that a
waiting boot ROM drops these requests, of log entry 43. -/
def Obligations.Ownership : Prop :=
  (∀ rank nonce : Nat, DroppedAtBoot (fun h => .evClaim h rank nonce) ∧ DroppedAtBoot .evAccept) ∧
  (∀ (h : ZcpHdr) (rank nonce : Nat) (s : State), Arrives h s → s.plat.waiting = false → h.master < 8 →
    (s.plat.owner = none → Gives (exec (.evClaim h rank nonce) s) fun t => Replied h 0 [] s t ∧
      t = { s with out := t.out, plat := { s.plat with
        replies := t.plat.replies, roll := some s.now
        claims := s.plat.claims ++ [{ master := h.master, rank := rank % 2 ^ 16, nonce := nonce % 2 ^ 64 }] } }) ∧
    (∀ m, s.plat.owner = some m → m ≠ h.master → s.now < s.plat.lastRequest + 500000000 →
      Gives (exec (.evClaim h rank nonce) s) fun t => Replied h 2 [] s t ∧
        t = { s with out := t.out, plat := { s.plat with replies := t.plat.replies } })) ∧
  (∀ (s : State) (opened : Nat), s.plat.roll = some opened →
    (s.now < opened + 20000000 → exec .evRollCallClose s = .next s) ∧
    (opened + 20000000 ≤ s.now → s.plat.claims ≠ [] → ∃ c ∈ s.plat.claims,
      (∀ x ∈ s.plat.claims, c.rank < x.rank ∨ (c.rank = x.rank ∧ (c.nonce < x.nonce ∨
        (c.nonce = x.nonce ∧ c.master ≤ x.master)))) ∧
      Gives (exec .evRollCallClose s) fun t =>
        t.out = s.out ++ s.plat.claims.map (fun x => { kind := 1, dest := x.master, data := [7, c.master] }) ∧
        t = { s with out := t.out, plat := { s.plat with roll := none, claims := [], owner := some c.master
                                                         successor := none, lastRequest := opened + 20000000 } })) ∧
  (∀ (s : State) (m : Nat), s.plat.owner = some m →
    (s.now < s.plat.lastRequest + 500000000 → exec .evOwnershipLapse s = .next s) ∧
    (s.plat.lastRequest + 500000000 ≤ s.now → exec .evOwnershipLapse s =
      .next { s with plat := { s.plat with owner := none, successor := none } })) ∧
  (∀ (s : State) (next : Nat), Guarded (fun h => .evHandover h next) ∧
    Answers (fun h => .evHandover h next) 0 [] s (PlatformOf { s.plat with successor := some (next, s.now) } s)) ∧
  (∀ (h : ZcpHdr) (s : State) (m named : Nat), Arrives h s → s.plat.waiting = false → h.master < 8 →
    s.plat.owner = some m → m ≠ h.master → s.now < s.plat.lastRequest + 500000000 → s.plat.successor = some (h.master, named) →
    Gives (exec (.evAccept h) s) fun t =>
      (s.now ≤ named + 100000000 → Replied h 0 [] s t ∧
        PlatformOf { s.plat with owner := some h.master, successor := none } s t ∧ t.plat.lastRequest = s.now) ∧
      (named + 100000000 < s.now → Replied h 1 [] s t ∧ PlatformOf { s.plat with successor := none } s t))

/-- R375-R379, R388: the requests that start and end contexts and create, notify, suspend and resume queues. That
RESUME of a queue in another state answers 0, that queue 64 names every queue of a context, what CTXEND drops, and where a
queue's held index starts are the readings of log entry 39; what goes on after CTXEND, under a number of 4096 or above, is
log entry 60. That a request not admitted is dropped without a reply, what a repeated request does, and what counts as the
owner's last request are the readings of log entry 38; that a waiting boot ROM drops requests, of log entry 43. -/
def Obligations.ContextsAndQueues : Prop :=
  (∀ ctx a q : Nat, Guarded (fun h => .evCtxstart h a) ∧ Guarded (fun h => .evCtxend h ctx) ∧
    Guarded (fun h => .evQcreate h ctx a) ∧ Guarded (fun h => .evDoorbell h ctx q) ∧ Guarded (fun h => .evSuspend h ctx q) ∧
    Guarded (fun h => .evResume h ctx q)) ∧
  (∀ (s : State) (a ctx q : Nat),
    (0x1F00000000 < a + 128 → Answers (fun h => .evCtxstart h a) 1 [] s (PlatformOf s.plat s)) ∧
    (a + 128 ≤ 0x1F00000000 → s.poison = [] → s.ecc = [] → s.updates = [] →
      let r := readMem s.mem a 128
      (¬ContextStarts s r → Answers (fun h => .evCtxstart h a) 1 [] s (PlatformOf s.plat s)) ∧
      (ContextStarts s r → Answers (fun h => .evCtxstart h a) 0 [] s fun t =>
        t = { s with contexts := s.contexts ++ [readContext r], out := t.out, plat := t.plat } ∧
        ∃ c, t.context (r / 2 ^ 64 % 2 ^ 12) = some c ∧ c.ptroot = r % 2 ^ 64 ∧ c.append = 0 ∧ c.take = 0)) ∧
    (s.context ctx = none → Answers (fun h => .evCtxend h ctx) 1 [] s (PlatformOf s.plat s) ∧
      Answers (fun h => .evQcreate h ctx a) 1 [] s (PlatformOf s.plat s)) ∧
    (4096 ≤ ctx → Answers (fun h => .evCtxend h ctx) 1 [] s (PlatformOf s.plat s)) ∧
    (∀ c, s.context ctx = some c → ctx < 4096 → c.tags = [] → Answers (fun h => .evCtxend h ctx) 0 [] s fun t =>
      t.context ctx = none ∧ (∀ x ∈ t.cohorts, x.ctx ≠ ctx) ∧ (∀ x ∈ t.launches, x.ctx ≠ ctx) ∧
      (∀ x ∈ t.queues, x.ctx ≠ ctx) ∧ (∀ x ∈ t.ready, x.ctx ≠ ctx) ∧ (∀ x ∈ t.cmds, x.ctx ≠ ctx) ∧
      (∀ x ∈ t.sectors, x.ctx ≠ ctx) ∧ (∀ x ∈ t.tlb, x.ctx ≠ ctx) ∧ (∀ x ∈ t.lines, ctx ∉ x.pins)) ∧
    (∀ (c : Context) (desc page : Leaf), s.context ctx = some c → CpHeld s 0 ctx a 128 .load desc →
      let d := readMem s.mem (desc.addr a) 128
      let prog := bits d 192 64
      (¬QueueStarts s c ctx d → Answers (fun h => .evQcreate h ctx a) 1 [] s fun t => t.queues = s.queues ∧ t.q = s.q) ∧
      (QueueStarts s c ctx d → bits d 256 10 = 1 → CpHeld s (bits d 82 2) ctx prog 4 .load page →
        let word := readMem s.mem (page.addr prog) 4
        let ends := decodeQueue word none = .ok .qdone ∨ decodeQueue word none = .ok .qretry ∨
          ∃ n, decodeQueue word none = .ok (.qfault n)
        (¬ends → Answers (fun h => .evQcreate h ctx a) 1 [] s fun t =>
          t.queues = s.queues ∧ t.q = s.q) ∧
        (ends → Answers (fun h => .evQcreate h ctx a) 0 [] s fun t => t.q = s.q ∧
          ∃ x, t.queues = s.queues ++ [x] ∧ x.ctx = ctx ∧ x.num = bits d 84 6 ∧ x.prog = [word] ∧ x.state = .idle ∧
            x.home = bits d 82 2 ∧ x.ring = bits d 0 64 ∧ x.ringLog2 = bits d 64 4 ∧ x.cls = bits d 68 2 ∧
            x.weight = bits d 70 8 ∧ x.stackSet = bits d 78 4 ∧ x.wdog = bits d 160 32 ∧ x.desc = a ∧
            (∀ w, w < 4 → x.windows[w]? = some { base := bits d (384 + 128 * w) 64
                                                 len2 := bits d (384 + 128 * w + 64) 5
                                                 wr := d.testBit (384 + 128 * w + 69) }) ∧
            x.ridx = bits d 128 32 ∧ ∀ k, x.reg k = 0))) ∧
    ((s.queue ctx q = none → Answers (fun h => .evDoorbell h ctx q) 1 [] s (PlatformOf s.plat s)) ∧
     (s.queue ctx q = none → q ≠ 64 → Answers (fun h => .evSuspend h ctx q) 1 [] s (PlatformOf s.plat s) ∧
      Answers (fun h => .evResume h ctx q) 1 [] s (PlatformOf s.plat s))) ∧
    (s.context ctx = none → s.queue ctx 64 = none → Answers (fun h => .evSuspend h ctx 64) 1 [] s (PlatformOf s.plat s) ∧
      Answers (fun h => .evResume h ctx 64) 1 [] s (PlatformOf s.plat s)) ∧
    (s.context ctx ≠ none →
      let of := fun (f : Queue → Queue) (x : Queue) => if x.on = true ∧ x.ctx = ctx then f x else x
      (s.launches = [] → Answers (fun h => .evSuspend h ctx 64) 0 [] s fun t => t.w = s.w ∧ t.mem = s.mem ∧
        t.q = of (fun x => { x with state := .suspended, run := none }) s.q ∧
        t.queues = s.queues.map (of fun x => { x with state := .suspended, run := none })) ∧
      (let again := of fun x => if x.state = .suspended ∨ x.state = .faulted
        then { x with state := .idle, notified := true } else x
       Answers (fun h => .evResume h ctx 64) 0 [] s fun t =>
        t = { s with q := again s.q, queues := s.queues.map again, out := t.out, plat := t.plat })) ∧
    (s.q.on = true → s.q.ctx = ctx → s.q.num = q → q ≠ 64 → s.queues = [] →
      (∀ (l : Launch) (c : Cohort), s.launches = [l] → s.cohorts = [c] → c.launch = l.id → l.ctx = ctx →
        l.packet.ctx = ctx → l.packet.q = q →
        (l.kernel.restartMode = true → Answers (fun h => .evSuspend h ctx q) 0 [] s fun t =>
          t.q = { s.q with state := .suspended, run := none } ∧ t.cohorts = [] ∧
          (∀ w ∈ allWaves t, w.on = true → w.cohort = c.id → w.husk = true) ∧
          t.launches = [{ l with members := c.id :: l.members, waiting := l.waiting ++ [{
            group := c.group, label := c.label, version := c.version, formed := c.formed
            restarts := if c.restarts = 0xFFFFFFFF then c.restarts else c.restarts + 1 }] }]) ∧
        (l.kernel.restartMode = false → s.watches = [] → Answers (fun h => .evSuspend h ctx q) 0 [] s fun t =>
          t.q = { s.q with state := .suspended, run := none } ∧ t.cohorts = s.cohorts ∧ t.w = s.w ∧
          t.launches = [{ l with drained := true }] ∧
          t.watches = [{ ctx := ctx, q := q, launch := l.id, until_ := s.now + 1000 * s.q.wdog }])) ∧
      Answers (fun h => .evDoorbell h ctx q) 0 [] s (fun t =>
        t = { s with q := { s.q with notified := true }, out := t.out, plat := t.plat }) ∧
      (s.launches = [] → Answers (fun h => .evSuspend h ctx q) 0 [] s fun t =>
        t.q = { s.q with state := .suspended, run := none } ∧ t.w = s.w ∧ t.mem = s.mem) ∧
      (s.q.state = .suspended ∨ s.q.state = .faulted → Answers (fun h => .evResume h ctx q) 0 [] s fun t =>
        t = { s with q := { s.q with state := .idle, notified := true }, out := t.out, plat := t.plat }) ∧
      (s.q.state ≠ .suspended → s.q.state ≠ .faulted → Answers (fun h => .evResume h ctx q) 0 [] s
        (PlatformOf s.plat s))))

/-- R175, R370, R414-R416, R418, R425, R426, R432-R435, R437, R438, R440, R442: the other requests of the owner, with
every row of R416. The status 1 of EVENTRING, FAULTRING and CAP out of range and the order in which INPUT reads and
writes are the readings of log entry 39; whether a signature is good is an input (log entry 11). What a reset keeps,
poison among it, and the wait of the boot ROM, in which it drops requests, are log entry 43; the order of TELEMETRY's values
is log entry 61. That a request not admitted is dropped without a reply, what a repeated request does and what counts as the
owner's last request are the readings of log entry 38. -/
def Obligations.OwnerRequests : Prop :=
  (∀ (a b c : Nat) (refuse good : Bool) (data : List Nat), Guarded (fun h => .evSquashRequest h a b) ∧
    Guarded (fun h => .evIsland h a b) ∧ Guarded (fun h => .evCap h a) ∧ Guarded (fun h => .evEventring h a b) ∧
    Guarded (fun h => .evFaultring h a b) ∧ Guarded (fun h => .evReset h) ∧
    GuardedUnless (fun s => s.plat.waiting = true) (fun h => .evImage h a b data good) ∧
    GuardedUnless (fun s => s.plat.waiting = true) (fun h => .evConfig h a b data good) ∧
    DroppedAtBoot (fun h => .evResolve h a b refuse) ∧ DroppedAtBoot .evTelemetry ∧
    DroppedAtBoot (fun h => .evInput h a b data) ∧
    (∀ (s : State) (h : ZcpHdr), FromOwner h s → s.plat.waiting = false → (∀ r ∈ s.faults, ¬(r.replay = true ∧ r.written = true ∧ r.token = b ∧
      r.stack = a)) → Gives (exec (.evResolve h a b refuse) s) (Replied h 1 [] s)) ∧
    (∀ (s : State) (h : ZcpHdr) (again : Instr) (r : FaultRec), FromOwner h s → s.plat.waiting = false → (∀ lane, again ≠ .evReevaluation lane) →
      s.faults = [r] → r.replay = true →
      r.written = true → r.token = b → r.stack = a → s.waves = [] → s.w.on = true → s.w.hold = .fault (some again) b c →
      Gives (exec (.evResolve h a b refuse) s) fun t => Replied h 0 [] s t ∧ t.faults = [] ∧
        t.w = { s.w with hold := .again again, refused := if refuse = true then some c else s.w.refused }) ∧
    (∀ s : State,
      ((s.context a = none ∨ b = 0 ∨ 16 ≤ b ∨ (tagOf s a b).state ≠ 1) →
        Answers (fun h => .evSquashRequest h a b) 1 [] s (PlatformOf s.plat s)) ∧
      (s.context a ≠ none → b ≠ 0 → b < 16 → (tagOf s a b).state = 1 → children s a b = [] →
        (∀ w ∈ allWaves s, w.version ≠ b) → s.st = {} → s.streams = [] →
        Answers (fun h => .evSquashRequest h a b) 0 [] s fun t => (tagOf t a b).state = 2 ∧ (tagOf t a b).reason = 6 ∧
          t.mem = s.mem ∧ ∀ x, x ∈ t.sectors ↔ x ∈ s.sectors ∧ ¬(x.ctx = a ∧ x.tag = b)) ∧
      (32 ≤ a → Answers (fun h => .evIsland h a b) 0 [2] s (PlatformOf s.plat s)) ∧
      (a < 32 →
        let i := s.island a
        let answers := fun (word result : Nat) (P : State → Prop) => IslandAnswers a word result s P
        let same := PlatformOf s.plat s
        let becomes := fun (j : Island) => IslandBecomes a j s
        ((2 ^ 7 ≤ b ∨ (b % 4 ≠ 1 ∧ b / 4 % 2 = 1) ∨ (b % 4 ≠ 3 ∧ b / 8 % 16 ≠ 0) ∨ 5 < b / 16 % 8) → answers b 1 same) ∧
        answers 0 0 same ∧
        (i.state = 2 → answers 1 0 same ∧ answers 5 0 same ∧
          answers 2 4 (becomes { i with state := 3, gate := 0, since := s.now })) ∧
        (i.state = 3 → answers 1 4 (becomes { i with gate := max i.gate 1 }) ∧ answers 5 4 (becomes { i with gate := 2 }) ∧
          answers 2 4 (becomes { i with gate := 0 })) ∧
        (i.state = 1 → answers 1 4 (becomes { i with gate := 1, approx := false, wantApprox := false }) ∧
          answers 2 0 fun t => t.island a = { i with state := 0, gate := 0, drained := false } ∧
            ∀ d, d ≠ a → t.island d = s.island d) ∧
        (i.state = 0 → answers 2 0 same ∧ answers 1 4 fun t => (∀ d, d ≠ a → t.island d = s.island d) ∧
          t.cohorts = s.cohorts ∧ t.waves = s.waves ∧ t.island a = { i with
            state := 1, gate := 1, approx := false, wantApprox := false
            drained := s.cohorts.all (·.cluster != a) }) ∧
        (i.state = 0 ∨ i.state = 1 → answers 5 0 fun t => (∀ c ∈ t.cohorts, c.cluster ≠ a) ∧ (t.island a).state = 1 ∧
          (t.island a).drained = true ∧ ∀ k, k ∈ clusterFifos a → t.fifo k = { entries := [], down := true }) ∧
        (∀ lvl, lvl < 6 → answers (3 + 16 * lvl) 0 (becomes { i with want := lvl, wantApprox := false, approx := false }) ∧
          (lvl ≠ 0 ∨ s.plat.config.approxOk.testBit a = false ∨ throttled s (a / 8) = true →
            answers (11 + 16 * lvl) 3 same)) ∧
        (s.plat.config.approxOk.testBit a = true → throttled s (a / 8) = false →
          answers 11 0 (becomes { i with want := 0, wantApprox := true }))) ∧
      (300 ≤ a → a ≤ 800 → Answers (fun h => .evCap h a) 0 [] s (PlatformOf { s.plat with cap := a } s)) ∧
      (a < 300 ∨ 800 < a → Answers (fun h => .evCap h a) 1 [] s (PlatformOf s.plat s)) ∧
      (8 ≤ b → b ≤ 16 → a % 2 ^ 16 = 0 → a + 32 * 2 ^ b ≤ 0x1F00000000 → Answers (fun h => .evEventring h a b) 0 [] s
        fun t => t = { s with eventRing := some (a, b), eventNext := 0, out := t.out, plat := t.plat }) ∧
      (b < 8 ∨ 16 < b ∨ a % 2 ^ 16 ≠ 0 ∨ 0x1F00000000 < a + 32 * 2 ^ b →
        Answers (fun h => .evEventring h a b) 1 [] s (PlatformOf s.plat s)) ∧
      (4 ≤ a ∨ b % 2 ^ 16 ≠ 0 ∨ 0x1F00000000 < b + 2 ^ 16 →
        Answers (fun h => .evFaultring h a b) 1 [] s (PlatformOf s.plat s)) ∧
      (a < 4 → b % 2 ^ 16 = 0 → b + 2 ^ 16 ≤ 0x1F00000000 → SMap.get 0 s.faultBase a = 0 → s.faults = [] →
        readBit s.mem (waitCell (b + 0x2000)) = false → Answers (fun h => .evFaultring h a b) 0 [] s fun t =>
          SMap.get 0 t.faultBase a = b + 1 ∧ Stored (b + 0x2000) 8 0 s t ∧ t.w = s.w) ∧
      ((b = 0 ∨ 16777216 < b ∨ a % 8 ≠ 0 ∨ data = [] ∨ 1392 < data.length ∨ (data.length % 8 ≠ 0 ∧ a + data.length ≠ b)) →
        Answers (fun h => .evImage h a b data good) 3 [] s (PlatformOf s.plat s) ∧
        Answers (fun h => .evConfig h a b data good) 3 [] s (PlatformOf s.plat s)) ∧
      (a = 0 → data ≠ [] → data.length = b → b ≤ 1392 → good = true →
        (belowMinver s.plat.config (stage [] 0 data) = true →
          Answers (fun h => .evImage h a b data good) 4 [] s (PlatformOf { s.plat with image := none } s)) ∧
        (belowMinver s.plat.config (stage [] 0 data) = false → s.plat.waiting = false →
          Answers (fun h => .evImage h a b data good) 0 [] s (PlatformOf { s.plat with
            image := none, imageSlot := stage [] 0 data } s)) ∧
        (∀ h : ZcpHdr, belowMinver s.plat.config (stage [] 0 data) = false → s.plat.waiting = true →
          s.plat.nextConfig = none → Arrives h s → h.master < 8 → Gives (exec (.evImage h a b data good) s) fun t =>
            t.plat.waiting = false ∧ t.plat.imageSlot = stage [] 0 data ∧ t.plat.running = stage [] 0 data ∧
            t.plat.boots = s.plat.boots + 1 ∧ t.w = {} ∧
            t.out = s.out ++ [{ kind := 4, dest := h.master, data := [h.port, h.seq, 0] }])) ∧
      (a = 0 → data ≠ [] → data.length = b → b ≤ 1392 → good = false →
        Answers (fun h => .evImage h a b data good) 4 [] s (PlatformOf { s.plat with image := none } s) ∧
        Answers (fun h => .evConfig h a b data good) 4 [] s (PlatformOf { s.plat with record := none } s)) ∧
      (a = 0 → data ≠ [] → data.length = b → b ≤ 1392 → good = true →
        (configOk b (stage [] 0 data) = true → s.plat.waiting = false → Answers (fun h => .evConfig h a b data good) 0 [] s
          fun t => t.plat.nextConfig = some (readConfig (stage [] 0 data)) ∧ t.plat.config = s.plat.config) ∧
        (configOk b (stage [] 0 data) = false →
          Answers (fun h => .evConfig h a b data good) 4 [] s (PlatformOf { s.plat with record := none } s))) ∧
      (∀ h : ZcpHdr, FromOwner h s → s.plat.waiting = false → Gives (exec (.evReset h) s) fun t => t.w = {} ∧ t.contexts = [] ∧
        let cfg := s.plat.nextConfig.getD s.plat.config
        t.plat.config = cfg ∧ t.plat.cap = cfg.cap ∧ t.plat.boots = s.plat.boots + 1 ∧
        t.plat.waiting = belowMinver cfg s.plat.imageSlot ∧
        (belowMinver cfg s.plat.imageSlot = false → t.plat.running = s.plat.imageSlot ∧
          ∀ a, readBit t.mem (feCell a) = false ∧ readBit t.mem (waitCell a) = false) ∧ t.poison = s.poison ∧
        t.plat.owner = none ∧ t.out = s.out ++ [{ kind := 4, dest := h.master, data := [h.port, h.seq, 0] }]))) ∧
  (∀ (h : ZcpHdr) (s : State), Arrives h s → s.plat.waiting = false →
    Gives (exec (.evTelemetry h) s) fun t => (∃ values, Replied h 0 values s t ∧
      (∀ c, c < 32 → values.getD c 4 = (s.island c).state) ∧
      (∀ d, d < 28 → values.getD (32 + d) 4 = if d ∈ s.plat.deadDies then 2 else 0) ∧
      (∀ c, c < 128 → values.getD (60 + c) 0 = SMap.get 0 s.cpdiag c) ∧
      (∀ p, p < 64 → values.getD (188 + p) 0 = SMap.get 0 s.plat.vfdiag p) ∧ values.getD 252 0 = s.overflow ∧
      (∀ k, k < 156 → values.getD (253 + k) 0 = Config.freeSensor k s.fresh) ∧
      values.getD 409 0 = Config.publicKey s.plat.boots ∧
      values.getD 410 0 = Config.signature s.plat.boots s.plat.running) ∧
      t.mem = s.mem ∧ t.w = s.w ∧ t.fresh = s.fresh + 1) ∧
  (∀ (h : ZcpHdr) (s : State) (data : List Nat) (index slot : Leaf), FromOwner h s → s.plat.waiting = false → s.q.on = true →
    let q := s.q
    let run := fun (status : Nat) (P : State → Prop) =>
      Gives (exec (.evInput h q.ctx q.num data) s) fun t => Replied h status [] s t ∧ P t
    (56 < data.length → run 3 (PlatformOf s.plat s)) ∧
    (CpHeld s q.home q.ctx (q.desc + 12) 4 .load index → CpHeld s q.home q.ctx (q.desc + 12) 4 .store index →
      let widx := readMem s.mem (index.addr (q.desc + 12)) 4
      let va := (q.ring + 64 * (widx % 2 ^ q.ringLog2)) % 2 ^ 64
      (data.length ≤ 56 → 2 ^ q.ringLog2 ≤ (widx + 2 ^ 32 - q.ridx) % 2 ^ 32 → s.eventRing = none →
        run 1 fun t => t.overflow = s.overflow + 1 ∧ t.mem = s.mem) ∧
      (data.length ≤ 56 → (widx + 2 ^ 32 - q.ridx) % 2 ^ 32 < 2 ^ q.ringLog2 →
        CpHeld s q.home q.ctx va 64 .store slot → (∀ a, readBit s.mem (waitCell a) = false) →
        let at_ := slot.addr va
        let num := index.addr (q.desc + 12)
        (num + 4 ≤ at_ ∨ at_ + 64 ≤ num) →
        run 0 fun t => t.q.notified = true ∧ readMem t.mem num 4 = (widx + 1) % 2 ^ 32 ∧ t.w = s.w ∧
          (∀ k, k < 56 → readByte t.mem (at_ + k) = BitVec.ofNat 8 (data.getD k 0)) ∧
          readMem t.mem (at_ + 56) 8 = (timeNow s % 2 ^ 64).toNat ∧
          ∀ x, (x < at_ ∨ at_ + 64 ≤ x) → (x < num ∨ num + 4 ≤ x) → readByte t.mem x = readByte s.mem x)))

/-! ## Power, temperature and the platform (R413-R419, R427, R431, R435-R442) -/

/-- R416-R419, R438: the power manager. A measurement above the cap lowers every island below level 5 one level and
ends approximate mode; one below 95% of the cap lets them step back. A closing island whose conditions hold
becomes GATED and its FIFOs DOWN; an opening one is ON 20 µs after it began, its FIFOs UP and empty, and a gate
recorded meanwhile begins; a requested level takes effect. The measured power is an input (log entry 11); the code
of a capping event is a free value (log entry 41), and what ends it is the reading of log entry 44; that what the cap has
taken off stays off when a requested level takes effect is log entry 76. -/
def Obligations.PowerManagement : Prop :=
  (∀ (watts : Nat) (s : State),
    (s.plat.cap < watts → Gives (exec (.evPowerMeasurement watts) s) fun t => t.plat.capping = true ∧
      (∀ c, c < 32 → t.island c = { s.island c with
        cut := if (s.island c).base + (s.island c).cut < 5 then (s.island c).cut + 1 else (s.island c).cut
        approx := false, wantApprox := false }) ∧
      (s.plat.capping = true → t = { s with plat := t.plat }) ∧
      (s.plat.capping = false → s.eventRing = none → t.overflow = s.overflow + 1)) ∧
    (watts ≤ s.plat.cap → 100 * watts < 95 * s.plat.cap → Gives (exec (.evPowerMeasurement watts) s) fun t =>
      (∀ c, c < 32 → t.island c = { s.island c with cut := (s.island c).cut - 1 }) ∧
      (t.plat.capping = true ↔ s.plat.capping = true ∧ ∃ c, c < 32 ∧ 1 < (s.island c).cut) ∧
      (t.plat.capping = s.plat.capping → t = { s with plat := t.plat }) ∧
      (t.plat.capping ≠ s.plat.capping → s.eventRing = none → t.overflow = s.overflow + 1)) ∧
    (watts ≤ s.plat.cap → 95 * s.plat.cap ≤ 100 * watts → exec (.evPowerMeasurement watts) s = .next s)) ∧
  (∀ (c : Nat) (s : State),
    let i := s.island c
    ((i.state ≠ 1 ∨ i.drained = false ∨ (∃ x ∈ s.cohorts, x.cluster = c) ∨ inflight s c ≠ 0 ∨ workLeft s c = true) →
      exec (.evIslandGated c) s = .next s) ∧
    (i.state = 1 → i.drained = true → (∀ x ∈ s.cohorts, x.cluster ≠ c) → inflight s c = 0 → workLeft s c = false →
      s.pending = [] → s.updates = [] → Gives (exec (.evIslandGated c) s) fun t =>
        t.island c = { i with state := 2, gate := 0, drained := false, approx := false, wantApprox := false } ∧ (∀ d, d ≠ c → t.island d = s.island d) ∧
        (∀ k, k ∈ clusterFifos c → (t.fifo k).down = true) ∧ (i.gate = 1 → Posts 5 (c + 2 * 2 ^ 8) 0 s.now s t) ∧
        (i.gate ≠ 1 → t.overflow = s.overflow ∧ t.mem = s.mem)) ∧
    ((i.state ≠ 3 ∨ s.now < i.since + 20000) → exec (.evIslandOn c) s = .next s) ∧
    (i.state = 3 → i.since + 20000 ≤ s.now → Gives (exec (.evIslandOn c) s) fun t =>
      (i.gate ≠ 2 → ∀ d, d ≠ c → t.island d = s.island d) ∧
      (i.gate = 0 → t.island c = { i with
        state := 0, gate := 0, drained := false, base := i.want
        approx := i.wantApprox && !throttled s (c / 8)
        cut := if i.wantApprox && !throttled s (c / 8) then 0 else min i.cut (5 - i.want) } ∧ Posts 5 c 0 s.now s t ∧
        ∀ k, k ∈ clusterFifos c → (s.fifo k).down = true →
          (∀ x, x = (pairClusters (k / 2)).1 ∨ x = (pairClusters (k / 2)).2 → x = c ∨ (s.island x).state = 0) →
          (∀ d ∈ s.plat.deadDies, ¬(d / 7 = k / 32 ∧ d % 7 ≤ 2)) → t.fifo k = { entries := [], down := false }) ∧
      (i.gate = 1 ∨ i.gate = 2 → (t.island c).state = 1) ∧
      (i.gate = 2 → (∀ x ∈ t.cohorts, x.cluster ≠ c) ∧ ∀ k, k ∈ clusterFifos c → t.fifo k = { entries := [], down := true })) ∧
    (2 ≤ i.state → exec (.evLevelChange c) s = .next s) ∧
    (i.state < 2 → Gives (exec (.evLevelChange c) s) fun t =>
      t = { s with plat := { s.plat with islands := t.plat.islands } } ∧ (∀ d, d ≠ c → t.island d = s.island d) ∧
      t.island c = { i with base := i.want, approx := i.wantApprox && !throttled s (c / 8)
                            cut := if i.wantApprox && !throttled s (c / 8) then 0 else min i.cut (5 - i.want) }))

/-- R183, R184, R439: the trips of a sensor. Each posts a THERMAL event; a throttle also halves the clocks of its
stack and ends approximate mode there, and a throttled cache die writes its dirty lines back; a shut-down takes
the die's power, and, for a base die, its stack's: a compute die loses its cohorts and FIFOs, a cache die its
lines, with every dirty sector poisoned. The numbers of the sensors are the model's (log entry 15); what a die
without power loses is the reading of log entry 45. -/
def Obligations.TemperatureTrips : Prop :=
  (∀ (n : Nat) (s : State), 156 ≤ n → exec (.evAdvise n) s = .next s ∧ exec (.evThrottle n) s = .next s ∧
    exec (.evShutDown n) s = .next s ∧ ∀ level, exec (.evTripClear n level) s = .next s) ∧
  (∀ (n : Nat) (s : State), n < 156 →
    Gives (exec (.evAdvise n) s) (fun t => TripIs n 0 true s t ∧ Posts 6 n 0 s.now s t) ∧
    Gives (exec (.evThrottle n) s) (fun t => TripIs n 1 true s t ∧ Posts 6 (n + 2 ^ 16) 0 s.now s t ∧
      throttled t (sensorStack n) = true ∧ ∀ c, c < 32 → t.island c =
        if c / 8 = sensorStack n then { s.island c with approx := false, wantApprox := false } else s.island c) ∧
    (∀ level, level < 3 → Gives (exec (.evTripClear n level) s) fun t => TripIs n level false s t ∧
      t = { s with plat := { s.plat with trips := t.plat.trips } }) ∧
    let stack := sensorStack n
    let die := sensorDie n
    Gives (exec (.evShutDown n) s) fun t => TripIs n 2 true s t ∧
      (∀ k, k ∈ t.plat.deadDies ↔ k ∈ s.plat.deadDies ∨ k = 7 * stack + die ∨ (die = 0 ∧ k / 7 = stack)) ∧
      (die = 0 ∨ die = 1 → ∀ c ∈ t.cohorts, ¬(c.cluster / 8 = stack ∧ c.cluster % 8 < 4)) ∧
      (die = 0 ∨ die = 2 → ∀ c ∈ t.cohorts, ¬(c.cluster / 8 = stack ∧ 4 ≤ c.cluster % 8)) ∧
      (die ≤ 2 → ∀ k, 32 * stack ≤ k → k < 32 * stack + 32 → (t.fifo k).down = true) ∧
      (4 ≤ die → (s.sectors = [] → t.cohorts = s.cohorts) ∧ (∀ l ∈ s.lines, dieOf l.num l.way = 3 * stack + (die - 4) →
          ∀ i, i < 8 → l.dirty.getLsbD i = true → 8 * l.num + i ∈ t.poison) ∧
        (s.eventRing = none → s.sectors = [] → ∀ l, l ∈ t.lines ↔
          l ∈ s.lines ∧ dieOf l.num l.way ≠ 3 * stack + (die - 4)))) ∧
  (∀ (die line : Nat) (s : State),
    (dieThrottled s die = false → exec (.evThrottleFlushWriteBack die line) s = .next s) ∧
    (∀ (pre post : List CacheLine) (l : CacheLine), dieThrottled s die = true → s.lines = pre ++ l :: post →
      l.num = line → dieOf l.num l.way = die → (∀ x ∈ pre, x.num ≠ line) →
      exec (.evThrottleFlushWriteBack die line) s = .next { s with lines := pre ++ { l with dirty := 0 } :: post }))

/-- R175, R185, R421, R422, R424, R427, R431, R442: time, memory errors, links, the service firmware and module reset.
A change of synchronisation posts a TIME event; an uncorrectable error waits for the access that finds it; RPTR
moves past records that were written, which makes room for one that waits; a message held 1 ms without a route fails,
and one held longer is not sent when its route comes up (log entry 70). The time of 802.1AS and the errors are inputs
(log entry 11); what a reset keeps is the reading of log entry 43 and its values those of log entries 8 and 14. -/
def Obligations.PlatformEvents : Prop :=
  (∀ (sync : Bool) (time : Nat) (s : State), Gives (exec (.evTimeSync sync time) s) fun t => t.plat.sync = sync ∧
    (sync = true → timeNow t = time) ∧ (sync = false → timeNow t = timeNow s) ∧
    (s.plat.sync = sync → t = { s with plat := t.plat }) ∧ (s.plat.sync ≠ sync → Posts 8 0 0 s.now s t)) ∧
  (∀ (s : State), exec .evServiceFirmwareRestart s = .next s ∧ ∀ port, exec (.evMacsecFailure port) s = .next s) ∧
  (∀ (a : Nat) (s : State), exec (.evSoftError a false) s = .next s ∧
    (a < 0x1F00000000 → s.poison.contains (a / 128) = false → Gives (exec (.evSoftError a true) s) fun t =>
      t = { s with ecc := t.ecc } ∧ ∀ k, k ∈ t.ecc ↔ k ∈ s.ecc ∨ k = a / 128)) ∧
  (∀ (port fibre speed : Nat) (s : State),
    (port < 16 → fibre < 4 → Gives (exec (.evFibreDown port fibre) s) fun t =>
      t = { s with plat := { s.plat with fibresDown := t.plat.fibresDown } } ∧
      ∀ k, k ∈ t.plat.fibresDown ↔ k ∈ s.plat.fibresDown ∨ k = 4 * port + fibre) ∧
    (port < 16 → s.plat.held = [] → Gives (exec (.evPortComesUp port) s) fun t =>
      t = { s with plat := { s.plat with fibresDown := t.plat.fibresDown } } ∧ portUp t port = true ∧
      ∀ k, k / 4 ≠ port → (k ∈ t.plat.fibresDown ↔ k ∈ s.plat.fibresDown)) ∧
    (∀ x : Frame, port < 16 → s.plat.held = [{ kind := 1, id := x.id, since := speed }] → s.plat.frames = [x] →
      s.plat.config.peers.getD port 0 = x.node →
      (s.now ≤ speed + 1000000 → Gives (exec (.evPortComesUp port) s) fun t => t.plat.held = [] ∧
        t.out = s.out ++ [{ kind := 3, dest := x.node, data := x.id :: x.data }]) ∧
      (speed + 1000000 < s.now → s.updates = [] → Gives (exec (.evPortComesUp port) s) fun t => t.plat.held = [] ∧
        t.plat.frames = [] ∧ t.out = s.out)) ∧
    (port < 2 → speed < 3 → Gives (exec (.evHostPortTraining port speed) s) fun t =>
      t = { s with plat := { s.plat with hostPorts := t.plat.hostPorts } } ∧
      ∀ p, SMap.get 0 t.plat.hostPorts p = if p = port then speed else SMap.get 0 s.plat.hostPorts p)) ∧
  (∀ (idx : Nat) (s : State) (h : Held), s.plat.held[idx]? = some h →
    (s.now < h.since + 1000000 → exec (.evNoRoute idx) s = .next s) ∧
    (∀ (x : Frame) (c : Context), h.since + 1000000 ≤ s.now → s.plat.held = [h] → h.kind = 1 → s.plat.frames = [x] →
      x.id = h.id → x.repeated = false → s.context x.ctx = some c → s.updates = [] → let a := c.egressPa + 64 * x.index
      a % 64 = 0 → a + 64 ≤ 0x1F00000000 → readBit s.mem (waitCell a) = false → Gives (exec (.evNoRoute idx) s) fun t => t.plat.held = [] ∧
        t.plat.frames = [] ∧ Stored (a + 32) 4 (4 + 0x22 * 2 ^ 16) s t) ∧
    (∀ c : Cmd, h.since + 1000000 ≤ s.now → s.plat.held = [h] → h.kind = 0 → s.cmds = [c] → c.id = h.id → c.kind = 4 →
      Gives (exec (.evNoRoute idx) s) fun t => t.plat.held = [] ∧ t.cmds = [] ∧ t.mem = s.mem) ∧
    (∀ (c : Cmd) (cell : Nat), h.since + 1000000 ≤ s.now → s.plat.held = [h] → h.kind = 0 → s.cmds = [c] → c.id = h.id →
      c.kind = 2 → c.barrier s = some cell → Gives (exec (.evNoRoute idx) s) fun t => t.plat.held = [] ∧ t.cmds = [] ∧
        t.mem = s.mem ∧ readScratch t.scratch (cell + 8) 1 % 2 = 1 ∧
        (readScratch s.scratch (cell + 9) 1 = 0 → readScratch t.scratch (cell + 9) 1 = 0x22))) ∧
  (∀ (stack rptr : Nat) (s : State),
    (SMap.get 0 s.faultBase stack = 0 → exec (.evRptrAdvance stack rptr) s = .next s) ∧
    (∀ b, SMap.get 0 s.faultBase stack = b + 1 →
      let wptr := readMem s.mem (b + 0x2000) 4
      let old := readMem s.mem (b + 0x2004) 4
      ((2 ^ 32 ≤ rptr ∨ (wptr + 2 ^ 32 - old) % 2 ^ 32 < (wptr + 2 ^ 32 - rptr) % 2 ^ 32) →
        exec (.evRptrAdvance stack rptr) s = .next s) ∧
      (rptr < 2 ^ 32 → (wptr + 2 ^ 32 - rptr) % 2 ^ 32 ≤ (wptr + 2 ^ 32 - old) % 2 ^ 32 → s.faults = [] →
        b + 2 ^ 16 ≤ 0x1F00000000 → readBit s.mem (waitCell (b + 0x2004)) = false → Gives (exec (.evRptrAdvance stack rptr) s) fun t =>
          Stored (b + 0x2004) 4 rptr s t ∧ t.overflow = s.overflow) ∧
      (∀ r : FaultRec, rptr < 2 ^ 32 → (wptr + 2 ^ 32 - rptr) % 2 ^ 32 < (wptr + 2 ^ 32 - old) % 2 ^ 32 →
        (wptr + 2 ^ 32 - old) % 2 ^ 32 ≤ 256 → s.faults = [r] → r.written = false → r.replay = true → r.stack = stack →
        b + 2 ^ 16 ≤ 0x1F00000000 → s.eventRing = none → (∀ a, readBit s.mem (waitCell a) = false) →
        Gives (exec (.evRptrAdvance stack rptr) s) fun t => t.faults = [{ r with written := true }] ∧
          readMem t.mem (b + 0x2000) 4 = (wptr + 1) % 2 ^ 32 ∧ t.overflow = s.overflow + 1))) ∧
  (∀ s : State, Gives (exec .evModuleReset s) fun t =>
    let cfg := s.plat.nextConfig.getD s.plat.config
    let wait := belowMinver cfg s.plat.imageSlot
    t = { State.reset with plat := t.plat, mem := t.mem, poison := s.poison, ecc := s.ecc, out := s.out
                           fresh := s.fresh, agenda := s.agenda } ∧
    (∀ a, a < 0x1F00000000 → readByte t.mem a = readByte s.mem a) ∧
    (wait = false → ∀ a, readBit t.mem (feCell a) = false ∧ readBit t.mem (waitCell a) = false) ∧
    (∀ c, c < 32 → t.island c = if wait = true then { state := 2 } else {}) ∧
    t.plat = { State.reset.plat with
      islands := t.plat.islands, config := cfg, cap := cfg.cap, imageSlot := s.plat.imageSlot, recordSlot := s.plat.recordSlot
      waiting := wait, boots := s.plat.boots + 1, running := if wait = true then [] else s.plat.imageSlot })

/-- R369: the oldest entry of a committed log is replayed as its thread would perform it, once the earlier accesses
that its release orders before it have been performed (R190): a store, FESET or reduction at its home, an EVENT's
record, a FLIP from its release on, a PUT sent, the status word and decrement of a completion. An entry that fails is
dropped with a VERSION event, and with a fault record when its page does not translate. The fields of the records are those of log entry 33. -/
def Obligations.LogReplay : Prop :=
  (∀ s : State, s.replay = [] → exec .evLogReplay s = .next s) ∧
  (∀ (s : State) (e : LogEntry) (es : List LogEntry), s.replay = e :: es → entryWaits s e = true →
    exec .evLogReplay s = .next s) ∧
  (∀ (s : State) (e : LogEntry) (es : List LogEntry), s.replay = e :: es → entryWaits s e = false → s.pending = [] →
    s.updates = [] →
    let run := fun (P : State → Prop) => Gives (exec .evLogReplay s) fun t => t.replay = es ∧ P t
    let v := e.data.headD 0
    let at_ := fun (need : Need) (fe : Bool) (n : Nat) (leaf : Leaf) => e.va < 2 ^ 52 ∧
      xlate s e.core e.ctx e.va need = .ok leaf ∧ Sound s (leaf.addr e.va) n ∧ (fe = true → leaf.fe = true)
    let dropped := Posts (2 + e.ctx % 2 ^ 12 * 2 ^ 8 + e.tag % 16 * 2 ^ 20) e.tag 0 s.now s
    (∀ f leaf, e.i = .st f → at_ .store false f.bytes leaf → run (Stored (leaf.addr e.va) f.bytes v s)) ∧
    (∀ f leaf, e.i = .feset f → at_ .store true 4 leaf →
      run (BitStored (feCell (leaf.addr e.va)) (decide (v % 2 = 1)) s)) ∧
    (∀ leaf, (∃ f, e.i = .red f ∨ e.i = .redf f ∨ e.i = .vismin f) → at_ .rmw false (rmwBytes e.i) leaf →
      let pa := leaf.addr e.va
      run (Stored pa (rmwBytes e.i) (rmwNew e.i (readMem s.mem pa (rmwBytes e.i)) v) s)) ∧
    (∀ f, e.i = .st f → 2 ^ 52 ≤ e.va → s.faults = [] → SMap.get 0 s.faultBase (e.core / 32) = 0 → run fun t =>
      dropped t ∧ ∃ r, t.faults = [r] ∧ r.stack = e.core / 32 ∧ r.ctx = e.ctx ∧ r.replay = false ∧ r.written = false) ∧
    (∀ f leaf, e.i = .st f → e.va < 2 ^ 52 → xlate s e.core e.ctx e.va .store = .ok leaf →
      s.poison.contains (leaf.addr e.va / 128) = true → run fun t => dropped t ∧ t.faults = s.faults) ∧
    (∀ f, e.i = .event f → run (Posts (1 + e.ctx % 2 ^ 12 * 2 ^ 8 + e.data.getD 4 0 % 16 * 2 ^ 20 +
      e.core % 128 * 2 ^ 24 + e.data.getD 3 0 % 2 ^ 16 * 2 ^ 32) v (e.data.getD 1 0) (e.data.getD 2 0) s)) ∧
    (∀ f, e.i = .flip f → e.late = true → run dropped) ∧
    (∀ f c, e.i = .flip f → e.late = false → s.context e.ctx = some c →
      let a := c.egressPa + 64 * c.append
      let state := readMem s.mem (a + 32) 1 % 8
      (state = 1 ∨ state = 2 → run dropped) ∧
      (state ≠ 1 → state ≠ 2 → a % 64 = 0 → a + 64 ≤ 0x1F00000000 → readBit s.mem (waitCell a) = false → run fun t =>
        readMem t.mem a 24 = v % 2 ^ 192 ∧ readMem t.mem (a + 24) 8 = s.now % 2 ^ 64 ∧ readMem t.mem (a + 32) 32 = 1 ∧
        ∀ b, b < a ∨ a + 64 ≤ b → readByte t.mem b = readByte s.mem b)) ∧
    (∀ (f : CF) (c : Cmd), e.i = .put f →
      c = { id := s.nextId, kind := 4, core := e.core, wave := 0, batch := 0, cohort := 0, ctx := e.ctx, tag := 0
            owner := 0, bar := 0, nums := e.data.take 5, data := e.data.drop 5, accepted := true, slot := e.wave
            part := e.part } →
      putBad s c false = none → s.cmds = [] → routeUp s (putNode s c) = true → run fun t =>
        t.cmds = [{ c with started := true }] ∧ t.mem = s.mem ∧
        ∃ m, t.out = s.out ++ [m] ∧ m.kind = 2 ∧ m.dest = putNode s c) ∧
    (∀ a b o w n leaf, e.i = .qwst a b o w n → CpPage s (e.data.getD 1 0) e.ctx e.va 4 .store leaf →
      run (Stored (leaf.addr e.va) 4 v s)) ∧
    (∀ a o n leaf, e.i = .qdepdec a o n → CpPage s v e.ctx e.va 8 .rmw leaf →
      let pa := leaf.addr e.va
      readMem s.mem (pa + 4) 4 < 2 ^ 31 → run (Stored pa 8
        ((readMem s.mem pa 4 + (2 ^ 32 - 1)) % 2 ^ 32 + readMem s.mem (pa + 4) 4 * 2 ^ 32) s)))

/-! ## Clauses, decoding and steps (R31-R45, R84, R145, R275, R386) -/

/-- R31-R33, R37, R84: a clause header. The lanes it issues for are those at the least PC of the frontier or, on the fast
path and with BE = 0, those that issued the clause before. Its checks
run in order, and the first that fails is a header trap. With its words held and its waits met the clause begins:
the lanes that the guard selects are ACTIVE, and every lane it issues for stands at the next header; with a wait
not met the wave waits. The issue takes the next slot of its partition and packs other waves of its team beside it, in
the order of R79 as long as each fits in the 64 lanes; a wave so packed issues in the same slot (R79, R80). A late trap
outside handler mode comes first. That the header's checks come before its words are fetched, and the fetch before the
waits, is the reading of log entry 19; that a header and the first word of its clause share a slot is log entry 49. -/
def Obligations.ClauseHeaders : Prop :=
  ∀ (h : Nat) (s : State), s.w.on = true → s.w.ended = false → s.w.clause = none → s.w.squash = false →
    let issue := s.w.issueSet (readHeader h)
    let pc := s.w.pcOf (lowest issue)
    let n := h % 16
    let bad : Option Cause :=
      if h / 2 ^ 28 % 16 ≠ 0xB ∨ n = 0 then some .illegalClause
      else if h / 2 ^ 25 % 8 ≠ 0 then some .rsvdField
      else if h / 2 ^ 24 % 2 = 0 ∧ h / 2 ^ 20 % 16 ≠ 0 then some .illegalClause
      else none
    let met := ∀ k, k < 4 → h / 2 ^ (8 + 3 * k) % 8 = 7 ∨ s.w.count k ≤ h / 2 ^ (8 + 3 * k) % 8
    let held := fun (ws : List Nat) => ws.length = n ∧ ∀ k, k < n →
      (s.w.fetched.find? fun e => e.1 == pc.toNat + 4 + 4 * k) = some (pc.toNat + 4 + 4 * k, ws.getD k 0)
    (s.w.fast = true → h / 2 ^ 7 % 2 = 0 → issue = s.w.prev) ∧
    (s.w.fast = false ∨ h / 2 ^ 7 % 2 = 1 → ∀ l, issue.getLsbD l = true ↔ s.w.cand.getLsbD l = true ∧
      (∃ k, s.w.frontier.getLsbD k = true ∧ s.w.pcOf k = s.w.pcOf l) ∧
      ∀ k, s.w.frontier.getLsbD k = true → (s.w.pcOf l).toNat ≤ (s.w.pcOf k).toNat) ∧
    (s.w.handler = false → s.w.late ≠ [] → exec (.clauseHeader h) s = .next (takeLate s)) ∧
    (s.w.handler = true ∨ s.w.late = [] →
      (issue = 0 → exec (.clauseHeader h) s = .next s) ∧
      (issue ≠ 0 →
        (∀ c, bad = some c → exec (.clauseHeader h) s = .next (headerTrap c issue pc h 0 s)) ∧
        (∀ ws, bad = none → held ws → ¬met → exec (.clauseHeader h) s = .next s) ∧
        (∀ ws, bad = none → held ws → met → Gives (exec (.clauseHeader h) s) fun t =>
          t = { s with w := t.w, waves := t.waves, slots := max s.slots t.w.last } ∧
          t.w.last = (if s.w.owed = 0 then s.slots + 1 else s.w.owed) ∧ t.waves.length = s.waves.length ∧
          (∀ (k : Nat) (x y : Wave), s.waves[k]? = some x → t.waves[k]? = some y →
            y = { x with hold := y.hold, owed := y.owed, pack := y.pack } ∧
            (s.w.owed ≠ 0 ∨ x.core ≠ s.w.core ∨ x.part ≠ s.w.part → y.owed = x.owed ∧ y.pack = x.pack)) ∧
          (s.w.owed = 0 → nextHeader s = some (pc.toNat, some h) → ∃ g : List Wave, PackedBeside s pc.toNat g ∧
            ∀ (k : Nat) (x y : Wave), s.waves[k]? = some x → t.waves[k]? = some y → x.core = s.w.core → x.part = s.w.part →
              ((∃ z ∈ g, z.id = x.id) → y.owed = t.w.last ∧ y.pack = t.w.last) ∧
              ((∀ z ∈ g, z.id ≠ x.id) → y.owed = 0 ∧ y.pack = x.pack)) ∧ ∃ act : Lanes,
            t.w = { s.w with pc := t.w.pc, prev := issue, fast := true, last := t.w.last, pack := t.w.last
                             owed := t.w.last
                             clause := some { hdr := pc, head := h, words := ws, idx := 0, at_ := 0, issue := issue
                                              active := act } } ∧
            (∀ l, act.getLsbD l = true ↔ issue.getLsbD l = true ∧ (h / 2 ^ 24 % 2 = 1 →
              (s.w.pred (h / 2 ^ 20 % 8) l = true ↔ h / 2 ^ 23 % 2 = 0))) ∧
            ∀ l, t.w.pcOf l = if issue.getLsbD l = true then pc + BitVec.ofNat 64 (4 * (n + 1)) else s.w.pcOf l)))

/-- R37, R45, R79, R80, R84, R145, R149, R269, R385: a step runs the instruction that the decoder reads. A wave issues
when it is ready and either still to issue in the slot taken last, or, with no such wave ready, of the oldest last issue
among the ready waves of its partition. Its packed group stays with it for the clause; a wave of it that is not ready at
the same word leaves it. Its turn then executes the word at the index of its clause, which stands past it, and ends the
clause after its last word; a word that fails its checks takes their trap. A turn of a wave between clauses executes
the header at its PC, read from memory where it is not held. A turn of a sequencer or of a queue executes its next
word, and a turn of an event the event. R360: at the end of a turn a speculative sector of a line that was replaced
takes a free spill slot; with none free its version is squashed with reason OVERFLOW. Whose turn comes next is the
agenda's, the model's own (log entry 1). -/
def Obligations.StepRunsInstruction : Prop :=
  (∀ s : State, (mayIssue s = true ↔ readyNow s = true ∧ (s.w.owed = 0 →
      ∀ x ∈ s.waves, x.core = s.w.core → x.part = s.w.part → waveReady s x = true →
        x.owed = 0 ∧ (s.w.last < x.last ∨ (s.w.last = x.last ∧ s.w.slot ≤ x.slot)))) ∧
    (∀ pc h, s.w.on = true → s.w.ended = false → s.w.hold = .none → s.w.clause = none → s.w.squash = false →
      (s.w.handler = true ∨ s.w.late = []) → nextHeader s = some (pc, some h) → headerFault h = none →
      (readyNow s = true ↔
        ∀ k, k < 4 → h / 2 ^ (8 + 3 * k) % 8 = 7 ∨ s.w.count k ≤ h / 2 ^ (8 + 3 * k) % 8))) ∧
  (∀ t : State, (t.evicted = [] → finishTurn (.next t) = .next t) ∧
    (∀ (x : Sector) (rest : List Sector) (c : Context), t.evicted = [x.num / 8] → t.sectors = x :: rest →
      x.spilled = false → t.context x.ctx = some c → (∀ y ∈ rest, y.num / 8 ≠ x.num / 8) →
      let used := (rest.filter fun y => y.ctx == x.ctx && y.spilled).length
      (used < 2 ^ c.vspillLog2 →
        finishTurn (.next t) = .next { t with evicted := [], sectors := { x with spilled := true } :: rest }) ∧
      (2 ^ c.vspillLog2 ≤ used → x.tag ≠ 0 → (tagOf t x.ctx x.tag).state = 1 → children t x.ctx x.tag = [] →
        (∀ w ∈ allWaves t, w.version ≠ x.tag) → t.st = {} → t.streams = [] → Gives (finishTurn (.next t)) fun u =>
          (tagOf u x.ctx x.tag).state = 2 ∧ (tagOf u x.ctx x.tag).reason = 4 ∧ u.mem = t.mem ∧
          ∀ y, y ∈ u.sectors ↔ y ∈ t.sectors ∧ ¬(y.ctx = x.ctx ∧ y.tag = x.tag))) ∧
    (t.w.clause = none → endWord (.next t) = .next t) ∧
    (∀ c, t.w.clause = some c → (t.w.hold ≠ .none ∨ c.idx < c.words.length → endWord (.next t) = .next t) ∧
      (t.w.hold = .none → c.words.length ≤ c.idx → Gives (endWord (.next t)) fun u => u.w.clause = none))) ∧
  (∀ (s u : State) (ts : List Turn) (c : Clause), s.agenda = .issue none :: ts → u = { s with agenda := ts } →
    s.w.on = true → s.w.ended = false → s.w.hold = .none → s.w.clause = some c → c.refetch = false →
    let word := c.words.getD c.idx 0
    let ext := if simtSize word = 2 then c.words[c.idx + 1]? else none
    let next : Clause := { c with at_ := c.idx, idx := c.idx + simtSize word }
    let go := noteIssue (issueSlot false u) { u with w := { u.w with clause := some next } }
    (go = { u with w := go.w, waves := go.waves, slots := max u.slots go.w.last } ∧
      go.w = { u.w with clause := some next, last := if u.w.owed = 0 then u.slots + 1 else u.w.owed, owed := 0 } ∧
      (u.w.owed = 0 → (u.waves.map Wave.id).Nodup → ∀ (k : Nat) (x y : Wave), u.waves[k]? = some x → go.waves[k]? = some y →
        x.core = u.w.core → x.part = u.w.part →
        let stays := u.w.pack ≠ 0 ∧ x.pack = u.w.pack ∧ waveReady u x = true ∧
          ∃ d, x.clause = some d ∧ d.hdr = c.hdr ∧ d.idx = c.idx
        (stays → y.owed = u.slots + 1 ∧ y.pack = x.pack) ∧
        (¬stays → y.owed = 0 ∧ y.pack = if x.pack = u.w.pack then 0 else x.pack))) ∧
    (mayIssue u = false → step s = finishTurn (.next u)) ∧
    (mayIssue u = true →
      (∀ i, misplaced c word = false → decodeSimt word ext = .ok i →
        (lateRegs i = true ∨ ∀ r ∈ i.vregs, r < s.w.nregs) → s.w.stalled i = false →
        step s = finishTurn (endWord (exec i go))) ∧
      (opIllegal word = true → step s = finishTurn (.next (raiseCheck .illegalOp go))) ∧
      (opIllegal word = false → misplaced c word = true → step s = finishTurn (.next (raiseCheck .illegalClause go))) ∧
      (∀ e, opIllegal word = false → misplaced c word = false → decodeSimt word ext = .error e →
        step s = finishTurn (.next (raiseCheck (checkCause e) go))) ∧
      (∀ i, misplaced c word = false → decodeSimt word ext = .ok i → lateRegs i = false →
        (∃ r ∈ i.vregs, s.w.nregs ≤ r) → step s = finishTurn (.next (raiseCheck .regRange go))))) ∧
  (∀ (s : State) (ts : List Turn) (i : Instr), s.agenda = .issue none :: ts → s.w.on = true → s.w.ended = false →
    s.w.hold = .again i →
    step s = finishTurn (endWord (exec i { s with agenda := ts, w := { s.w with hold := .none } }))) ∧
  (∀ (s u : State) (ts : List Turn) (pc : Nat) (lanes : Lanes), s.agenda = .issue none :: ts →
    u = { s with agenda := ts } → s.w.on = true → s.w.ended = false → s.w.hold = .none → s.w.clause = none →
    s.w.squash = false → (s.w.handler = true ∨ s.w.late = []) → s.w.fast = false → s.w.compare = some (pc, lanes) →
    mayIssue u = true →
    (∀ h, (s.w.fetched.find? fun e => e.1 == pc) = some (pc, h) →
      step s = finishTurn (endWord (exec (.clauseHeader h) u))) ∧
    (∀ leaf, s.w.fetched = [] → pc < 2 ^ 52 → xlate s s.w.core s.w.ctx pc .fetch = .ok leaf → s.icache = [] →
      s.updates = [] → s.w.version = 0 → Sound s (leaf.addr pc) 4 → ∃ v : State,
        step s = finishTurn (endWord (exec (.clauseHeader (readMem s.mem (leaf.addr pc) 4)) v)) ∧
        v = { u with tlb := v.tlb, icache := v.icache, lines := v.lines, fresh := v.fresh, evicted := v.evicted
                     w := { s.w with fetched := v.w.fetched } })) ∧
  (∀ (s u : State) (ts : List Turn) (h : Nat), s.agenda = .issue none :: ts → u = { s with agenda := ts } →
    s.w.on = true → s.w.ended = false → s.w.hold = .none → s.w.clause = none → s.w.squash = false →
    (s.w.handler = true ∨ s.w.late = []) → s.w.fast = true → h / 2 ^ 7 % 2 = 0 → mayIssue u = true →
    let pc := (s.w.pcOf (lowest s.w.prev)).toNat
    (s.w.fetched.find? fun e => e.1 == pc) = some (pc, h) →
    step s = finishTurn (endWord (exec (.clauseHeader h) u))) ∧
  (∀ (s : State) (ts : List Turn) (w : Nat), s.agenda = .stream s.st.cohort :: ts → s.st.runs = true →
    (s.cohort s.st.cohort).isSome = true → (kernelOf s s.st.cohort).isSome = true →
    (s.st.fetched.find? fun e => e.1 == s.st.idx) = some (s.st.idx, w) → loopIllegal s.st w = false →
    (∀ i, decodeStream w = .ok i → step s = finishTurn (exec i { s with agenda := ts })) ∧
    (∀ e, decodeStream w = .error e →
      step s = finishTurn (.next (faultHere (streamCause e) { s with agenda := ts })))) ∧
  (∀ (s : State) (ts : List Turn) (r : Run), s.agenda = .queue s.q.ctx s.q.num :: ts → s.q.on = true →
    s.q.run = some r →
    (256 ≤ r.used → step s = finishTurn (exec .evBudget { s with agenda := ts })) ∧
    (∀ i w rest, r.used < 256 → s.q.prog.drop r.pc = w :: rest → decodeQueue w rest.head? = .ok i →
      step s = finishTurn (exec i { s with agenda := ts }))) ∧
  (∀ (s : State) (ts : List Turn) (i : Instr), s.agenda = .event none i :: ts → isEvent i = true →
    step s = finishTurn (exec i { s with agenda := ts }))

/-- R31, R39, R44, R275, R386: words that the spec writes out, with the instructions they stand for. -/
def Obligations.DecodeSamples : Prop :=
  readHeader 0xB12FF803 = { n := 3, cls := 0, be := false, wld := 0, wst := 7, wcp := 7, wtx := 7, gp := 2, gn := false
                            ge := true } ∧
  headerFault 0xB12FF803 = none ∧
  decodeSimt 0x00808300 none = .ok (.fadd ⟨3, 1, 2, 0, none⟩) ∧
  decodeSimt 0x80808403 (some 0x00000003) = .ok (.ffma ⟨4, 1, 2, 0, some { c := 3 }⟩) ∧
  decodeSimt 0x81411115 (some 0x00011000) = .ok (.fcmp ⟨17, 2, 5, 0, some { negb := true, bs := true }⟩) ∧
  decodeSimt 0x00020544 (some 0x00050930) = .ok (.cvt ⟨5, 4, 0, 0x50930⟩) ∧
  decodeSimt 0x8E5D004A (some 0x00030000) = .ok (.vxwr ⟨0, 58, 57, 0, some { as := true, bs := true }⟩) ∧
  decodeSimt 0x80020860 (some 0x00100000) = .ok (.ld ⟨8, 4, 0, 0, some { off24 := 0x1000 }⟩) ∧
  decodeSimt 0x83040D80 (some 0x0000001C) = .ok (.atom ⟨13, 8, 12, 0, ⟨4, 3, 0, 0⟩⟩) ∧
  decodeSimt 0xFFFFC190 none = .ok (.bra ⟨1, 0, 0xFFFFC⟩) ∧
  decodeSimt 0x23C00B99 none = .ok (.mset ⟨11, 0, 0, 60, 8⟩) ∧
  decodeSimt 0x282847A4 (some 0x02000800) = .ok (.copy ⟨7, 0, 4, 10, 20, 0x800, 2⟩) ∧
  decodeSimt 0x002143AB none = .ok (.mfork ⟨3, 5, 2, 0⟩) ∧
  decodeSimt 0x240200B7 none = .ok (.hgsettle ⟨0, 4, 16, 1, none⟩) ∧
  decodeSimt 0xA28A0CC1 (some 0x00000016) = .ok (.attr ⟨12, 20, 10, 1, some { c := 22 }⟩) ∧
  decodeSimt 0x261014D4 none = .ok (.rstko ⟨20, 32, 24, 1, none⟩) ∧
  decodeSimt 0x080146E0 none = .ok (.vfork ⟨6, 5, 0, 2⟩) ∧
  decodeStream 0x048D0003 = .ok (.mload 0 0 4 3 2 1) ∧
  decodeStream 0x0226A007 = .ok (.mstore 0 0 5 3 1 1 0 0 0) ∧
  decodeQueue 0x22800101 none = .ok (.qpld 1 40 1) ∧
  decodeQueue 0x00000310 (some 0x0000FFFF) = .ok (.qli 3 0xFFFF) ∧
  decodeQueue 0x20051021 none = .ok (.qdepset 1 5 0 0) ∧
  (∀ op, op ∈ [0x16, 0x1F, 0x3B, 0x4D, 0x59, 0x78, 0x88, 0xB8, 0xC4, 0xD6, 0xE6, 0xF5, 0xFF] →
    decodeSimt op none = .error .illegalOp)

/-- R39-R44: a well-formed instruction of the SIMT stream is read back from its words, with every field. R275, R386: a
well-formed word of the sequencer's stream, or of a queue program, is read back with every field. -/
def Obligations.RoundTrip : Prop :=
  (∀ i : Instr, WellFormed i → i.simt?.isSome = true → ∃ w rest, encode i = w :: rest ∧ rest.length = simtSize w - 1 ∧
     w < 2 ^ 32 ∧ decodeSimt w rest.head? = .ok i ∧
     ∀ more, decodeBytes ((encode i).flatMap wordBytes ++ more) = .ok (i, more)) ∧
  (∀ i : Instr, WellFormed i →
     (∀ w, streamWord i = some w → decodeStream w = .ok i ∧ w < 2 ^ 32) ∧
     (∀ ws, queueWords i = some ws → ∃ w rest, ws = w :: rest ∧ rest.length = queueSize w - 1 ∧
       decodeQueue w rest.head? = .ok i ∧ w < 2 ^ 32))

/-- R39: a word that decodes is the encoding of the instruction read, which is well formed: no reserved bit is set. -/
def Obligations.DecodingIsExact : Prop :=
  (∀ (w : Nat) (ext : Option Nat) (i : Instr), decodeSimt w ext = .ok i →
    (simtSize w = 2 ∨ ext = none) → encode i = w :: ext.toList ∧ WellFormed i) ∧
  (∀ (w : Nat) (i : Instr), decodeStream w = .ok i → encode i = [w] ∧ WellFormed i) ∧
  (∀ (w : Nat) (ext : Option Nat) (i : Instr), decodeQueue w ext = .ok i → (queueSize w = 2 ∨ ext = none) →
    encode i = w :: ext.toList ∧ WellFormed i)

/-- The canonical form of memory is kept by every step (R3). The form is the model's: an unlisted byte reads as the
value of log entry 2. -/
def Obligations.MemoryFormKept : Prop := ∀ s t : State, MemOk s → step s = .next t → MemOk t

/-- Every step, from every state, answers a next state: no instruction stops the machine. It says of this model that
it takes every trap and refusal of the spec as a next state (log entry 17). -/
def Obligations.EveryStepAnswers : Prop :=
  (∀ s : State, ∃ t, step s = .next t) ∧ ∀ (i : Instr) (s : State), ∃ t, exec i s = .next t

/-- R442: the machine after module reset: no owner, no started context, nothing resident, the caches invalid, every
full/empty bit and waiters bit clear, every island at level 0, the reference count 0; its memory has the canonical
form. The values the spec gives; the form of memory is the model's (log entry 2). -/
def Obligations.ResetState : Prop :=
  let s := State.reset
  s.plat.owner = none ∧ s.contexts = [] ∧ s.now = 0 ∧ allWaves s = [] ∧ s.cohorts = [] ∧ s.launches = [] ∧
  allQueues s = [] ∧ s.sectors = [] ∧ s.l1 = [] ∧ s.tlb = [] ∧ s.icache = [] ∧ s.lines = [] ∧
  (∀ a, readBit s.mem (feCell a) = false ∧ readBit s.mem (waitCell a) = false) ∧
  (∀ c, islandLevel (s.island c) = 0 ∧ (s.island c).state = 0) ∧ MemOk s
end

