-- ==== Sys2Proof/Laws/Maps.lean ====
section
/-!
SUPPORT. The finite maps: what a read gives after a write, and the canonical form.
-/

namespace Sys2Proof

variable {α : Type}

@[simp] theorem SMap.get_nil (d : α) (k : Nat) : SMap.get d [] k = d := rfl

theorem SMap.get_cons (d : α) (j : Nat) (v : α) (m : SMap α) (k : Nat) :
    SMap.get d ((j, v) :: m) k = if j = k then v else SMap.get d m k := rfl

theorem SMap.get_erase_self (d : α) (m : SMap α) (k : Nat) : SMap.get d (m.erase k) k = d := by
  induction m with
  | nil => rfl
  | cons e m ih =>
    obtain ⟨j, v⟩ := e
    by_cases h : j = k
    · subst h; simpa [SMap.erase] using ih
    · have : SMap.erase ((j, v) :: m) k = (j, v) :: SMap.erase m k := by simp [SMap.erase, h]
      rw [this, SMap.get_cons, if_neg h, ih]

theorem SMap.get_erase_ne (d : α) (m : SMap α) {k l : Nat} (h : l ≠ k) :
    SMap.get d (m.erase k) l = SMap.get d m l := by
  induction m with
  | nil => rfl
  | cons e m ih =>
    obtain ⟨j, v⟩ := e
    by_cases hj : j = k
    · subst hj
      have : SMap.erase ((j, v) :: m) j = SMap.erase m j := by simp [SMap.erase]
      rw [this, ih, SMap.get_cons, if_neg (Ne.symm h)]
    · have : SMap.erase ((j, v) :: m) k = (j, v) :: SMap.erase m k := by simp [SMap.erase, hj]
      rw [this, SMap.get_cons, SMap.get_cons, ih]

theorem SMap.get_insert (d : α) (m : SMap α) (k l : Nat) (v : α) (hm : SMap.get d m k = d) (hk : ∀ e ∈ m, e.1 ≠ k) :
    SMap.get d (m.insert k v) l = if k = l then v else SMap.get d m l := by
  induction m with
  | nil => rfl
  | cons e m ih =>
    obtain ⟨j, u⟩ := e
    have hj : j ≠ k := hk (j, u) (List.mem_cons_self ..)
    by_cases h : k < j
    · have e1 : SMap.insert ((j, u) :: m) k v = (k, v) :: (j, u) :: m := by simp [SMap.insert, h]
      rw [e1, SMap.get_cons]
    · have e1 : SMap.insert ((j, u) :: m) k v = (j, u) :: SMap.insert m k v := by simp [SMap.insert, h]
      have hm' : SMap.get d m k = d := by simpa [SMap.get_cons, hj] using hm
      rw [e1, SMap.get_cons, SMap.get_cons, ih hm' (fun e he => hk e (List.mem_cons_of_mem _ he))]
      by_cases hl : k = l
      · subst hl; simp [hj]
      · simp [hl]

theorem SMap.erase_keys (m : SMap α) (k : Nat) : ∀ e ∈ m.erase k, e.1 ≠ k := by
  intro e he
  simp only [SMap.erase, List.mem_filter] at he
  simpa using he.2

variable [DecidableEq α]

/-- A read after a write. -/
theorem SMap.get_set (d : α) (m : SMap α) (k l : Nat) (v : α) :
    SMap.get d (SMap.set d m k v) l = if k = l then v else SMap.get d m l := by
  unfold SMap.set
  by_cases hv : v = d
  · rw [if_pos hv]
    by_cases hl : k = l
    · subst hl; rw [if_pos rfl, SMap.get_erase_self, hv]
    · rw [if_neg hl, SMap.get_erase_ne d m (Ne.symm hl)]
  · rw [if_neg hv, SMap.get_insert d _ k l v (SMap.get_erase_self d m k) (SMap.erase_keys m k)]
    by_cases hl : k = l
    · simp [hl]
    · rw [if_neg hl, if_neg hl, SMap.get_erase_ne d m (Ne.symm hl)]

@[simp] theorem SMap.get_set_self (d : α) (m : SMap α) (k : Nat) (v : α) : SMap.get d (SMap.set d m k v) k = v := by
  rw [SMap.get_set, if_pos rfl]

theorem SMap.get_set_ne (d : α) (m : SMap α) {k l : Nat} (v : α) (h : k ≠ l) :
    SMap.get d (SMap.set d m k v) l = SMap.get d m l := by
  rw [SMap.get_set, if_neg h]

/-! ## The canonical form -/

/-- The canonical form said of every entry and every pair of entries. -/
theorem SMap.wf_iff (d : α) (m : SMap α) :
    SMap.wf d m = true ↔ (∀ e ∈ m, e.2 ≠ d) ∧ m.Pairwise (fun a b => a.1 < b.1) := by
  induction m with
  | nil => simp [SMap.wf]
  | cons e m ih =>
    cases m with
    | nil => simp [SMap.wf]
    | cons f m =>
      have h1 : SMap.wf d (e :: f :: m) = (e.2 != d && e.1 < f.1 && SMap.wf d (f :: m)) := rfl
      rw [h1, Bool.and_eq_true, Bool.and_eq_true, ih, List.pairwise_cons (l := f :: m)]
      simp only [bne_iff_ne, ne_eq, decide_eq_true_eq, List.forall_mem_cons]
      constructor
      · rintro ⟨⟨he, hlt⟩, ⟨hf, hm⟩, hp⟩
        refine ⟨⟨he, hf, hm⟩, ⟨hlt, ?_⟩, hp⟩
        intro b hb
        exact lt_trans hlt ((List.pairwise_cons.mp hp).1 b hb)
      · rintro ⟨⟨he, hf, hm⟩, ⟨hlt, _⟩, hp⟩
        exact ⟨⟨he, hlt⟩, ⟨hf, hm⟩, hp⟩

@[simp] theorem SMap.wf_nil (d : α) : SMap.wf d ([] : SMap α) = true := rfl

/-- Dropping entries keeps the canonical form. -/
theorem SMap.wf_filter (d : α) (m : SMap α) (p : Nat × α → Bool) (h : SMap.wf d m = true) :
    SMap.wf d (m.filter p) = true := by
  rw [SMap.wf_iff] at h ⊢
  exact ⟨fun e he => h.1 e (List.mem_filter.mp he).1, h.2.filter p⟩

theorem SMap.wf_erase (d : α) (m : SMap α) (k : Nat) (h : SMap.wf d m = true) : SMap.wf d (m.erase k) = true :=
  SMap.wf_filter d m _ h

theorem SMap.mem_insert (m : SMap α) (k : Nat) (v : α) (e : Nat × α) :
    e ∈ m.insert k v ↔ e = (k, v) ∨ e ∈ m := by
  induction m with
  | nil => simp [SMap.insert]
  | cons f m ih =>
    obtain ⟨j, u⟩ := f
    by_cases h : k < j
    · simp [SMap.insert, h]
    · simp only [SMap.insert, h, if_false, List.mem_cons, ih]
      tauto

theorem SMap.pairwise_insert (m : SMap α) (k : Nat) (v : α) (hk : ∀ e ∈ m, e.1 ≠ k)
    (h : m.Pairwise (fun a b => a.1 < b.1)) : (m.insert k v).Pairwise (fun a b => a.1 < b.1) := by
  induction m with
  | nil => simp [SMap.insert]
  | cons f m ih =>
    obtain ⟨j, u⟩ := f
    have hp := List.pairwise_cons.mp h
    by_cases hlt : k < j
    · have e1 : SMap.insert ((j, u) :: m) k v = (k, v) :: (j, u) :: m := by simp [SMap.insert, hlt]
      rw [e1]
      refine List.pairwise_cons.mpr ⟨?_, h⟩
      intro b hb
      rcases List.mem_cons.mp hb with rfl | hb
      · exact hlt
      · exact lt_trans hlt (hp.1 b hb)
    · have e1 : SMap.insert ((j, u) :: m) k v = (j, u) :: SMap.insert m k v := by simp [SMap.insert, hlt]
      rw [e1]
      have hj : j ≠ k := hk (j, u) (List.mem_cons_self ..)
      refine List.pairwise_cons.mpr ⟨?_, ih (fun e he => hk e (List.mem_cons_of_mem _ he)) hp.2⟩
      intro b hb
      rcases (SMap.mem_insert m k v b).mp hb with rfl | hb
      · show j < k
        omega
      · exact hp.1 b hb

/-- A write keeps the canonical form. -/
theorem SMap.wf_set (d : α) (m : SMap α) (k : Nat) (v : α) (h : SMap.wf d m = true) :
    SMap.wf d (SMap.set d m k v) = true := by
  unfold SMap.set
  have he := SMap.wf_erase d m k h
  by_cases hv : v = d
  · rw [if_pos hv]; exact he
  · rw [if_neg hv]
    rw [SMap.wf_iff] at he ⊢
    refine ⟨?_, SMap.pairwise_insert _ k v (SMap.erase_keys m k) he.2⟩
    intro e hmem
    rcases (SMap.mem_insert _ k v e).mp hmem with rfl | hmem
    · exact hv
    · exact he.1 e hmem

/-- Two canonical maps with the same reads are equal. -/
theorem SMap.ext_get (d : α) (m n : SMap α) (hm : SMap.wf d m = true) (hn : SMap.wf d n = true)
    (h : ∀ k, SMap.get d m k = SMap.get d n k) : m = n := by
  have absent : ∀ (l : SMap α) (k : Nat), (∀ b ∈ l, k < b.1) → SMap.get d l k = d := by
    intro l k
    induction l with
    | nil => intro _; rfl
    | cons e l ih =>
      obtain ⟨j, v⟩ := e
      intro hb
      have hj : k < j := hb (j, v) (List.mem_cons_self ..)
      rw [SMap.get_cons, if_neg (by omega), ih (fun b hb' => hb b (List.mem_cons_of_mem _ hb'))]
  rw [SMap.wf_iff] at hm hn
  induction m generalizing n with
  | nil =>
    cases n with
    | nil => rfl
    | cons e n =>
      obtain ⟨j, v⟩ := e
      have := h j
      rw [SMap.get_nil, SMap.get_cons, if_pos rfl] at this
      exact absurd this.symm (hn.1 (j, v) (List.mem_cons_self ..))
  | cons e m ih =>
    obtain ⟨i, u⟩ := e
    have pm := List.pairwise_cons.mp hm.2
    have hu : u ≠ d := hm.1 (i, u) (List.mem_cons_self ..)
    cases n with
    | nil =>
      have := h i
      rw [SMap.get_nil, SMap.get_cons, if_pos rfl] at this
      exact absurd this hu
    | cons f n =>
      obtain ⟨j, v⟩ := f
      have pn := List.pairwise_cons.mp hn.2
      have hv : v ≠ d := hn.1 (j, v) (List.mem_cons_self ..)
      have hij : i = j := by
        rcases lt_trichotomy i j with hlt | heq | hlt
        · have := h i
          rw [SMap.get_cons, if_pos rfl, SMap.get_cons, if_neg (by omega),
            absent n i (fun b hb => lt_trans hlt (pn.1 b hb))] at this
          exact absurd this hu
        · exact heq
        · have := h j
          rw [SMap.get_cons, if_neg (by omega), absent m j (fun b hb => lt_trans hlt (pm.1 b hb)), SMap.get_cons,
            if_pos rfl] at this
          exact absurd this.symm hv
      subst hij
      have huv : u = v := by simpa [SMap.get_cons] using h i
      subst huv
      refine congrArg _ (ih n ⟨fun e he => hm.1 e (List.mem_cons_of_mem _ he), pm.2⟩
        ⟨fun e he => hn.1 e (List.mem_cons_of_mem _ he), pn.2⟩ ?_)
      intro k
      by_cases hk : i = k
      · subst hk
        rw [absent m i pm.1, absent n i pn.1]
      · simpa [SMap.get_cons, hk] using h k

end Sys2Proof
end

