-- ==== Sys2Proof/Laws/Memory.lean ====
section
/-!
SUPPORT. Home memory: reads after writes, and every memory operation keeps the canonical form.
-/

namespace Sys2Proof.Machine

/-! ## Bytes -/

/-- A byte read after a byte was written. -/
theorem readByte_writeByte (m : List Host.Cell) (a b : Nat) (v : BitVec 8) :
    readByte (writeByte m a v) b = if a = b then v else readByte m b :=
  SMap.get_set 0 m a b v

theorem writeByte_wf (m : List Host.Cell) (a : Nat) (v : BitVec 8) (h : Memory.wf m = true) :
    Memory.wf (writeByte m a v) = true :=
  SMap.wf_set 0 m a v h

/-- A byte read after n bytes were written little-endian. -/
theorem readByte_writeMem (n : Nat) (m : List Host.Cell) (a v b : Nat) :
    readByte (writeMem m a n v) b =
      if a ≤ b ∧ b < a + n then BitVec.ofNat 8 (v / 256 ^ (b - a)) else readByte m b := by
  induction n generalizing m a v with
  | zero =>
    have : ¬(a ≤ b ∧ b < a + 0) := by omega
    rw [if_neg this]; rfl
  | succ n ih =>
    show readByte (writeMem (writeByte m a (BitVec.ofNat 8 v)) (a + 1) n (v / 256)) b = _
    rw [ih, readByte_writeByte]
    by_cases h1 : a + 1 ≤ b ∧ b < a + 1 + n
    · have h2 : a ≤ b ∧ b < a + (n + 1) := by omega
      rw [if_pos h1, if_pos h2, Nat.div_div_eq_div_mul, ← Nat.pow_succ']
      have h3 : (b - (a + 1)).succ = b - a := by omega
      rw [h3]
    · rw [if_neg h1]
      by_cases h3 : a = b
      · subst h3
        rw [if_pos rfl, if_pos ⟨Nat.le_refl a, by omega⟩, Nat.sub_self, Nat.pow_zero, Nat.div_one]
      · rw [if_neg h3, if_neg (by omega)]

/-- A byte outside those written is unchanged. -/
theorem readByte_writeMem_other (m : List Host.Cell) (a n v b : Nat) (h : b < a ∨ a + n ≤ b) :
    readByte (writeMem m a n v) b = readByte m b := by
  rw [readByte_writeMem, if_neg (by omega)]

theorem writeMem_wf (n : Nat) (m : List Host.Cell) (a v : Nat) (h : Memory.wf m = true) :
    Memory.wf (writeMem m a n v) = true := by
  induction n generalizing m a v with
  | zero => exact h
  | succ n ih => exact ih _ _ _ (writeByte_wf _ _ _ h)

/-- A wide read sees only its bytes. -/
theorem readMem_congr (n : Nat) (m m' : List Host.Cell) (a : Nat)
    (h : ∀ b, a ≤ b → b < a + n → readByte m b = readByte m' b) : readMem m a n = readMem m' a n := by
  induction n generalizing a with
  | zero => rfl
  | succ n ih =>
    show (readByte m a).toNat + 256 * readMem m (a + 1) n = (readByte m' a).toNat + 256 * readMem m' (a + 1) n
    rw [h a (Nat.le_refl a) (by omega), ih (a + 1) (fun b h1 h2 => h b (by omega) (by omega))]

/-- A wide read outside the bytes written is unchanged. -/
theorem readMem_writeMem_other (m : List Host.Cell) (a n v b k : Nat) (h : b + k ≤ a ∨ a + n ≤ b) :
    readMem (writeMem m a n v) b k = readMem m b k :=
  readMem_congr k _ _ b fun c h1 h2 => readByte_writeMem_other m a n v c (by omega)

/-- A wide read of the bytes just written gives what was written. -/
theorem readMem_writeMem_self (n : Nat) (m : List Host.Cell) (a v : Nat) :
    readMem (writeMem m a n v) a n = v % 256 ^ n := by
  induction n generalizing m a v with
  | zero => simp [readMem, Nat.mod_one]
  | succ n ih =>
    show (readByte (writeMem (writeByte m a (BitVec.ofNat 8 v)) (a + 1) n (v / 256)) a).toNat
      + 256 * readMem (writeMem (writeByte m a (BitVec.ofNat 8 v)) (a + 1) n (v / 256)) (a + 1) n = _
    rw [ih, readByte_writeMem_other _ _ _ _ _ (by omega), readByte_writeByte, if_pos rfl, BitVec.toNat_ofNat]
    have h2 : (2 : Nat) ^ 8 = 256 := by norm_num
    rw [h2, Nat.pow_succ, Nat.mul_comm (256 ^ n) 256, Nat.mod_mul]

/-- A wide read is below its width. -/
theorem readMem_lt (n : Nat) (m : List Host.Cell) (a : Nat) : readMem m a n < 256 ^ n := by
  induction n generalizing a with
  | zero => simp [readMem]
  | succ n ih =>
    show (readByte m a).toNat + 256 * readMem m (a + 1) n < 256 ^ (n + 1)
    have h1 : (readByte m a).toNat < 256 := (readByte m a).isLt
    have h2 := ih (a + 1)
    have h3 : 256 ^ (n + 1) = 256 * 256 ^ n := by rw [Nat.pow_succ, Nat.mul_comm]
    omega

/-! ## Bits and records -/

theorem writeBit_wf (m : List Host.Cell) (c : Nat × Nat) (b : Bool) (h : Memory.wf m = true) :
    Memory.wf (writeBit m c b) = true :=
  writeByte_wf _ _ _ h

/-- A bit read after it was written. -/
theorem readBit_writeBit_self (m : List Host.Cell) (c : Nat × Nat) (b : Bool) (hc : c.2 < 8) :
    readBit (writeBit m c b) c = b := by
  unfold readBit writeBit
  rw [readByte_writeByte, if_pos rfl]
  cases b <;> simp [hc]

/-- A byte other than the one that holds the bit is unchanged. -/
theorem readByte_writeBit_other (m : List Host.Cell) (c : Nat × Nat) (b : Bool) (a : Nat) (h : c.1 ≠ a) :
    readByte (writeBit m c b) a = readByte m a := by
  unfold writeBit
  rw [readByte_writeByte, if_neg h]

theorem freeCloak_wf (left : List Park) (p : Park) (m : List Host.Cell) (h : Memory.wf m = true) :
    Memory.wf (freeCloak left m p) = true := by
  unfold freeCloak
  split
  · exact h
  · split
    · exact writeByte_wf _ _ _ h
    · exact writeMem_wf _ _ _ _ h

theorem freeCloaks_wf (left ps : List Park) (m : List Host.Cell) (h : Memory.wf m = true) :
    Memory.wf (freeCloaks left ps m) = true := by
  induction ps generalizing m with
  | nil => exact h
  | cons p ps ih => exact ih _ (freeCloak_wf left p m h)

/-! ## Writes performed at a home -/

@[simp] theorem touchLine_mem (s : State) (num : Nat) (wr : BitVec 8) : (touchLine s num wr).mem = s.mem := rfl
@[simp] theorem noticeWrite_mem (pa n : Nat) (s : State) : (noticeWrite pa n s).mem = s.mem := rfl
@[simp] theorem mapWaves_mem (f : Wave → Wave) (s : State) : (mapWaves f s).mem = s.mem := rfl

theorem clearWaiters_wf (pa : Nat) (s : State) (h : Memory.wf s.mem = true) :
    Memory.wf (clearWaiters pa s).mem = true := by
  unfold clearWaiters
  dsimp only
  split <;> exact writeBit_wf _ _ _ h

theorem wake_wf (pa n : Nat) (s : State) (h : Memory.wf s.mem = true) : Memory.wf (wake pa n s).mem = true := by
  unfold wake
  split
  · exact h
  · dsimp only
    split
    · exact freeCloaks_wf _ _ _ h
    · exact clearWaiters_wf _ _ (freeCloaks_wf _ _ _ h)

/-- With no waiter recorded on its sector, a wake event changes nothing (R218). -/
theorem wake_none (pa n : Nat) (s : State) (h : readBit s.mem (waitCell pa) = false) : wake pa n s = s := by
  unfold wake
  simp [h]

theorem homeWrite_wf (cached : Bool) (pa n v : Nat) (s : State) (h : Memory.wf s.mem = true) :
    Memory.wf (homeWrite cached pa n v s).mem = true := by
  unfold homeWrite
  simp only [noticeWrite_mem]
  apply wake_wf
  split
  · simpa using writeMem_wf _ _ _ _ h
  · exact writeMem_wf _ _ _ _ h

theorem homeSetFe_wf (cached : Bool) (pa : Nat) (full : Bool) (s : State) (h : Memory.wf s.mem = true) :
    Memory.wf (homeSetFe cached pa full s).mem = true := by
  unfold homeSetFe
  simp only [noticeWrite_mem]
  apply wake_wf
  split
  · simpa using writeBit_wf _ _ _ h
  · exact writeBit_wf _ _ _ h

theorem findEcc_mem (s : State) (pa : Nat) : (findEcc s pa).mem = s.mem := by
  unfold findEcc
  split <;> rfl

@[simp] theorem noteEvent_mem (kind : Nat) (s : State) : (noteEvent kind s).mem = s.mem := rfl

theorem postEvent_wf (kind ctx version core wave code payload : Nat) (s : State) (h : Memory.wf s.mem = true) :
    Memory.wf (postEvent kind ctx version core wave code payload s).mem = true := by
  unfold postEvent
  split
  · exact h
  · dsimp only
    split
    · exact h
    · rw [noteEvent_mem]
      exact homeWrite_wf _ _ _ _ _ h

/-- The fault record at the head of a list written: the state in which the rest are written. -/
theorem writeFaults_cons_wf (r : FaultRec) (rs : List FaultRec) (s : State)
    (ih : ∀ s : State, Memory.wf s.mem = true → Memory.wf (writeFaults rs s).2.mem = true)
    (h : Memory.wf s.mem = true) : Memory.wf (writeFaults (r :: rs) s).2.mem = true := by
  have step : ∀ (t : State) (f : List FaultRec → List FaultRec), Memory.wf t.mem = true →
      Memory.wf (f (writeFaults rs t).1, (writeFaults rs t).2).2.mem = true := fun t _ ht => ih t ht
  rw [writeFaults]
  split
  · exact step s _ h
  · split
    · exact step s _ h
    · rename_i b wptr _
      dsimp only
      have h1 := homeWrite_wf true (b + 32 * (wptr % 256)) 32 (ofBytes r.bytes) s h
      generalize homeWrite true (b + 32 * (wptr % 256)) 32 (ofBytes r.bytes) s = s1 at h1 ⊢
      have h2 := homeWrite_wf true (b + 0x2000) 4 ((wptr + 1) % 2 ^ 32) s1 h1
      generalize homeWrite true (b + 0x2000) 4 ((wptr + 1) % 2 ^ 32) s1 = s2 at h2 ⊢
      have h3 := postEvent_wf 9 r.ctx (field r.bytes 9 1 / 16) 0 0 r.stack 0 s2 h2
      generalize postEvent 9 r.ctx (field r.bytes 9 1 / 16) 0 0 r.stack 0 s2 = s3 at h3 ⊢
      have h4 := ih s3 h3
      generalize writeFaults rs s3 = p at h4 ⊢
      obtain ⟨rest, u⟩ := p
      dsimp only
      split
      · exact h4
      · exact h4

theorem writeFaults_wf (fs : List FaultRec) (s : State) (h : Memory.wf s.mem = true) :
    Memory.wf (writeFaults fs s).2.mem = true := by
  induction fs generalizing s with
  | nil => exact h
  | cons r rs ih => exact writeFaults_cons_wf r rs s ih h

theorem flushFaults_wf (s : State) (h : Memory.wf s.mem = true) : Memory.wf (flushFaults s).mem = true :=
  writeFaults_wf s.faults { s with faults := [] } h

theorem postFault_wf (stack : Nat) (f : FaultInfo) (s : State) (h : Memory.wf s.mem = true) :
    Memory.wf (postFault stack f s).mem = true :=
  flushFaults_wf _ h

end Sys2Proof.Machine
end

