-- ==== Sys2Proof/Laws/Regs.lean ====
section
/-!
SUPPORT. Lane sets and the register files of a wave: what a register holds after a write, and what a write leaves.
-/

namespace Sys2Proof.Machine

/-! ## Lane sets -/

@[simp] theorem mem_lanesOf (m : Lanes) (l : Nat) : l ∈ lanesOf m ↔ m.getLsbD l = true := by
  unfold lanesOf
  rw [List.mem_filter, List.mem_range]
  constructor
  · exact fun h => h.2
  · exact fun h => ⟨BitVec.lt_of_getLsbD h, h⟩

theorem lanesOf_nodup (m : Lanes) : (lanesOf m).Nodup := List.Nodup.filter _ List.nodup_range

theorem laneBit_getLsbD (l k : Nat) : (laneBit l).getLsbD k = (decide (k < 64) && decide (l = k)) := by
  unfold laneBit
  rw [BitVec.getLsbD_twoPow]
  by_cases h : l = k
  · subst h; simp
  · simp [h]

theorem foldl_laneBits (f : Nat → Bool) (ks : List Nat) (acc : Lanes) (k : Nat) :
    (ks.foldl (fun acc l => if f l then acc ||| laneBit l else acc) acc).getLsbD k =
      (acc.getLsbD k || (decide (k < 64) && (ks.contains k && f k))) := by
  induction ks generalizing acc with
  | nil => simp
  | cons l ks ih =>
    rw [List.foldl_cons, ih, List.contains_cons]
    by_cases hf : f l = true
    · rw [if_pos hf, BitVec.getLsbD_or, laneBit_getLsbD]
      by_cases hk : l = k
      · subst hk
        simp only [decide_true, Bool.and_true, BEq.rfl, Bool.true_or, hf]
        cases acc.getLsbD l <;> cases decide (l < 64) <;> simp
      · have : (k == l) = false := by simp [Ne.symm hk]
        simp [hk, this]
    · rw [if_neg hf]
      by_cases hk : l = k
      · subst hk; simp [hf]
      · have : (k == l) = false := by simp [Ne.symm hk]
        simp [this]

/-- The lanes of a set given by a test. -/
@[simp] theorem laneSet_getLsbD (f : Nat → Bool) (k : Nat) :
    (laneSet f).getLsbD k = (decide (k < 64) && f k) := by
  unfold laneSet
  rw [foldl_laneBits]
  by_cases hk : k < 64
  · simp [hk]
  · simp [hk]

/-! ## Vector registers -/

theorem Wave.mark_vreg (w : Wave) (m : Lanes) (b : Bool) (l r : Nat) : (w.mark m b).vreg l r = w.vreg l r := rfl

/-- A vector register after one is written. -/
theorem Wave.setV_vreg (w : Wave) (l r : Nat) (x : Word) (k q : Nat) (hr : r < 128) (hq : q < 128) :
    (w.setV l r x).vreg k q = if l = k ∧ r = q then x else w.vreg k q := by
  unfold Wave.setV Wave.vreg
  rw [SMap.get_set]
  by_cases h : l = k ∧ r = q
  · rw [if_pos h, if_pos (by omega)]
  · rw [if_neg h, if_neg (by omega)]

/-- A vector register after one has been written in every lane of a list. -/
theorem Wave.putV_vreg (r : Nat) (f : Nat → Word) (ls : List Nat) (w : Wave) (k q : Nat) (hr : r < 128) (hq : q < 128) :
    (Wave.putV r f ls w).vreg k q = if k ∈ ls ∧ r = q then f k else w.vreg k q := by
  induction ls generalizing w with
  | nil => simp [Wave.putV]
  | cons l ls ih =>
    show (Wave.putV r f ls (w.setV l r (f l))).vreg k q = _
    rw [ih, Wave.setV_vreg w l r (f l) k q hr hq]
    by_cases hm : k ∈ ls ∧ r = q
    · rw [if_pos hm, if_pos ⟨List.mem_cons_of_mem _ hm.1, hm.2⟩]
    · rw [if_neg hm]
      by_cases hl : l = k ∧ r = q
      · rw [if_pos hl, if_pos ⟨by rw [hl.1]; exact List.mem_cons_self .., hl.2⟩, hl.1]
      · rw [if_neg hl, if_neg]
        rintro ⟨h1, h2⟩
        rcases List.mem_cons.mp h1 with h3 | h3
        · exact hl ⟨h3.symm, h2⟩
        · exact hm ⟨h3, h2⟩

/-- What a write of vector registers leaves: everything but them and CHANGED. -/
def Wave.sameButV (w w' : Wave) : Prop := ∃ x c, w' = { w with v := x, changed := c }

theorem Wave.sameButV_refl (w : Wave) : w.sameButV w := ⟨_, _, rfl⟩

theorem Wave.sameButV_trans {a b c : Wave} (h : a.sameButV b) (k : b.sameButV c) : a.sameButV c := by
  obtain ⟨x, d, rfl⟩ := h
  obtain ⟨y, e, rfl⟩ := k
  exact ⟨y, e, rfl⟩

theorem Wave.sameButV_setV (w : Wave) (l r : Nat) (x : Word) : w.sameButV (w.setV l r x) := ⟨_, _, rfl⟩

theorem Wave.sameButV_putV (r : Nat) (f : Nat → Word) (ls : List Nat) (w : Wave) :
    w.sameButV (Wave.putV r f ls w) := by
  induction ls generalizing w with
  | nil => exact ⟨_, _, rfl⟩
  | cons l ls ih => exact Wave.sameButV_trans (Wave.sameButV_setV w l r (f l)) (ih _)

theorem Wave.sameButV_putVPair (r : Nat) (f : Nat → DWord) (ls : List Nat) (w : Wave) :
    w.sameButV (Wave.putVPair r f ls w) :=
  Wave.sameButV_trans (Wave.sameButV_putV _ _ _ _) (Wave.sameButV_putV _ _ _ _)

/-- A pair after it has been written in every lane of a list. -/
theorem Wave.putVPair_vreg (r : Nat) (f : Nat → DWord) (ls : List Nat) (w : Wave) (k q : Nat) (hr : r + 1 < 128)
    (hq : q < 128) :
    (Wave.putVPair r f ls w).vreg k q =
      if k ∈ ls ∧ r = q then (f k).setWidth 32
      else if k ∈ ls ∧ r + 1 = q then (f k >>> 32).setWidth 32 else w.vreg k q := by
  unfold Wave.putVPair
  rw [Wave.putV_vreg _ _ _ _ _ _ hr hq, Wave.putV_vreg _ _ _ _ _ _ (by omega) hq]
  by_cases h : k ∈ ls ∧ r + 1 = q
  · rw [if_pos h, if_neg (by omega), if_pos h]
  · rw [if_neg h]
    by_cases h2 : k ∈ ls ∧ r = q
    · rw [if_pos h2, if_pos h2]
    · rw [if_neg h2, if_neg h2, if_neg h]

/-! ## Predicates -/

/-- p7 discards every write (R73). -/
theorem Wave.putP_seven (f : Nat → Bool) (ls : List Nat) (w : Wave) : Wave.putP 7 f ls w = w := by
  induction ls generalizing w with
  | nil => rfl
  | cons l ls ih => exact ih (w.setP 7 l (f l))

/-- A predicate of a lane after one is written; p7 aside. -/
theorem Wave.setP_pred (w : Wave) (p l : Nat) (b : Bool) (q k : Nat) (hp : p ≠ 7) (hl : l < 64) (hq : q ≠ 7) :
    (w.setP p l b).pred q k = if p = q ∧ l = k then b else w.pred q k := by
  have h7 : (p == 7) = false := by simp [hp]
  have hq7 : (q == 7) = false := by simp [hq]
  have key : (w.setP p l b).pred q k =
      (SMap.get 0 (SMap.set 0 w.p p (if b then SMap.get 0 w.p p ||| laneBit l else SMap.get 0 w.p p &&& ~~~laneBit l)) q).getLsbD k := by
    unfold Wave.setP Wave.pred Wave.preds Wave.mark
    simp only [h7, hq7, Bool.false_eq_true, if_false]
  have old : w.pred q k = (SMap.get 0 w.p q).getLsbD k := by
    unfold Wave.pred Wave.preds
    rw [hq7]
    simp
  rw [key, old, SMap.get_set]
  by_cases hpq : p = q
  · subst hpq
    rw [if_pos rfl]
    by_cases hk : l = k
    · subst hk
      cases b <;> simp [laneBit_getLsbD, hl]
    · have hb : (laneBit l).getLsbD k = false := by rw [laneBit_getLsbD]; simp [hk]
      rw [if_neg (show ¬(p = p ∧ l = k) from fun h => hk h.2)]
      cases b
      · show (SMap.get 0 w.p p &&& ~~~laneBit l).getLsbD k = _
        rw [BitVec.getLsbD_and, BitVec.getLsbD_not, hb]
        by_cases h64 : k < 64
        · simp [h64]
        · rw [BitVec.getLsbD_of_ge _ _ (by omega), Bool.false_and]
      · show (SMap.get 0 w.p p ||| laneBit l).getLsbD k = _
        rw [BitVec.getLsbD_or, hb, Bool.or_false]
  · rw [if_neg hpq, if_neg (by tauto)]

/-- A predicate after it has been written in every lane of a list; p7 aside. -/
theorem Wave.putP_pred (p : Nat) (f : Nat → Bool) (ls : List Nat) (w : Wave) (q k : Nat) (hp : p ≠ 7) (hq : q ≠ 7)
    (hls : ∀ l ∈ ls, l < 64) :
    (Wave.putP p f ls w).pred q k = if p = q ∧ k ∈ ls then f k else w.pred q k := by
  induction ls generalizing w with
  | nil => simp [Wave.putP]
  | cons l ls ih =>
    show (Wave.putP p f ls (w.setP p l (f l))).pred q k = _
    rw [ih _ (fun x hx => hls x (List.mem_cons_of_mem _ hx)),
      Wave.setP_pred w p l (f l) q k hp (hls l (List.mem_cons_self ..)) hq]
    by_cases h1 : p = q ∧ k ∈ ls
    · rw [if_pos h1, if_pos ⟨h1.1, List.mem_cons_of_mem _ h1.2⟩]
    · rw [if_neg h1]
      by_cases h2 : p = q ∧ l = k
      · rw [if_pos h2, if_pos ⟨h2.1, by rw [h2.2]; exact List.mem_cons_self ..⟩, h2.2]
      · rw [if_neg h2, if_neg]
        rintro ⟨h3, h4⟩
        rcases List.mem_cons.mp h4 with h5 | h5
        · exact h2 ⟨h3, h5.symm⟩
        · exact h1 ⟨h3, h5⟩

/-- What a write of predicates leaves: everything but them and CHANGED. -/
def Wave.sameButP (w w' : Wave) : Prop := ∃ x c, w' = { w with p := x, changed := c }

theorem Wave.sameButP_setP (w : Wave) (p l : Nat) (b : Bool) : w.sameButP (w.setP p l b) := ⟨_, _, rfl⟩

theorem Wave.sameButP_trans {a b c : Wave} (h : a.sameButP b) (k : b.sameButP c) : a.sameButP c := by
  obtain ⟨x, d, rfl⟩ := h
  obtain ⟨y, e, rfl⟩ := k
  exact ⟨y, e, rfl⟩

theorem Wave.sameButP_putP (p : Nat) (f : Nat → Bool) (ls : List Nat) (w : Wave) : w.sameButP (Wave.putP p f ls w) := by
  induction ls generalizing w with
  | nil => exact ⟨_, _, rfl⟩
  | cons l ls ih => exact Wave.sameButP_trans (Wave.sameButP_setP w p l (f l)) (ih _)

/-! ## Scalar registers -/

theorem Wave.mark_sreg (w : Wave) (m : Lanes) (b : Bool) (r : Nat) : (w.mark m b).sreg r = w.sreg r := rfl

/-- A scalar register after one is written. -/
theorem Wave.setS_sreg (w : Wave) (r : Nat) (x : Word) (q : Nat) :
    (w.setS r x).sreg q = if r = q then x else w.sreg q := by
  unfold Wave.setS Wave.sreg
  rw [SMap.get_set]

/-- What a write of scalar registers leaves: everything but them and CHANGED. -/
def Wave.sameButS (w w' : Wave) : Prop := ∃ x c, w' = { w with s := x, changed := c }

theorem Wave.sameButS_setS (w : Wave) (r : Nat) (x : Word) : w.sameButS (w.setS r x) := ⟨_, _, rfl⟩

theorem Wave.sameButS_trans {a b c : Wave} (h : a.sameButS b) (k : b.sameButS c) : a.sameButS c := by
  obtain ⟨x, d, rfl⟩ := h
  obtain ⟨y, e, rfl⟩ := k
  exact ⟨y, e, rfl⟩

theorem Wave.sameButS_setSPair (w : Wave) (r : Nat) (x : DWord) : w.sameButS (w.setSPair r x) :=
  Wave.sameButS_trans (Wave.sameButS_setS _ _ _) (Wave.sameButS_setS _ _ _)

/-! ## Program counters -/

/-- The PC of a lane after those of a list have been set. -/
theorem Wave.putPc_pcOf (f : Nat → DWord) (ls : List Nat) (w : Wave) (k : Nat) :
    (Wave.putPc f ls w).pcOf k = if k ∈ ls then f k else w.pcOf k := by
  induction ls generalizing w with
  | nil => simp [Wave.putPc]
  | cons l ls ih =>
    show (Wave.putPc f ls { w with pc := SMap.set 0 w.pc l (f l) }).pcOf k = _
    rw [ih]
    by_cases h : k ∈ ls
    · rw [if_pos h, if_pos (List.mem_cons_of_mem _ h)]
    · rw [if_neg h]
      show SMap.get 0 (SMap.set 0 w.pc l (f l)) k = _
      rw [SMap.get_set]
      by_cases hk : l = k
      · subst hk; rw [if_pos rfl, if_pos (List.mem_cons_self ..)]
      · rw [if_neg hk, if_neg (by simp [h, Ne.symm hk])]
        rfl

/-! ## Completion of a floating-point instruction (R66) -/

/-- R66: with no exception enabled, an instruction only raises flags. -/
theorem completeFp_quiet (exc : Nat → Exc) (dst : Nat) (s : State) (h : fpEnables s.w.fpmode = 0) :
    completeFp exc dst s =
      { s with w := { s.w with
          fpmode := fpRaise s.w.fpmode (s.w.lanes.foldl (fun x l => x ||| exc l) (0 : Exc)) } } := by
  unfold completeFp
  rw [h]
  simp [fpCause]

end Sys2Proof.Machine
end

