-- ==== Sys2Proof/Laws/Results.lean ====
section
/-!
SUPPORT. What the shared shapes of the register-writing instructions do, in the terms of the statements: one lemma for
each of `writeV`, `writeVPair`, `writeP`, `writeS`, `writeSPair`, `completeFp`, `fpResult`, `intV3`, `crossLane`.
-/

namespace Sys2Proof.Machine

open Sys2Proof.Safety

theorem gives_next {P : State → Prop} {t : State} (h : P t) : Gives (.next t) P := ⟨t, rfl, h⟩

theorem mem_waveLanes (w : Wave) (l : Nat) : l ∈ w.lanes ↔ w.active.getLsbD l = true := mem_lanesOf _ _

theorem onlyVector_of (s : State) (w : Wave) (h : s.w.sameButV w) : OnlyVector s { s with w := w } := by
  obtain ⟨x, c, rfl⟩ := h
  rfl

theorem onlyPredicate_of (s : State) (w : Wave) (h : s.w.sameButP w) : OnlyPredicate s { s with w := w } := by
  obtain ⟨x, c, rfl⟩ := h
  rfl

theorem onlyScalar_of (s : State) (w : Wave) (h : s.w.sameButS w) : OnlyScalar s { s with w := w } := by
  obtain ⟨x, c, rfl⟩ := h
  rfl

theorem writeV_result (d : Nat) (val : Nat → Word) (s : State) (hd : d < 128) :
    VectorResult d val s (writeV d val s) := by
  refine ⟨onlyVector_of s _ (Wave.sameButV_putV d val s.w.lanes s.w), ?_⟩
  intro l r hr
  show (Wave.putV d val s.w.lanes s.w).vreg l r = _
  rw [Wave.putV_vreg _ _ _ _ _ _ hd hr]
  simp only [mem_waveLanes, eq_comm (a := d)]

theorem writeVPair_result (d : Nat) (val : Nat → DWord) (s : State) (hd : d + 1 < 128) :
    PairResult d val s (writeVPair d val s) := by
  refine ⟨onlyVector_of s _ (Wave.sameButV_putVPair d val s.w.lanes s.w), ?_⟩
  intro l r hr
  show (Wave.putVPair d val s.w.lanes s.w).vreg l r = _
  rw [Wave.putVPair_vreg _ _ _ _ _ _ hd hr]
  simp only [mem_waveLanes, eq_comm (a := d), eq_comm (a := d + 1)]

/-- p7 reads true in every lane of the wave. -/
theorem Wave.pred_seven (w : Wave) (l : Nat) : w.pred 7 l = w.all.getLsbD l := rfl

theorem Wave.sameButP_seven {w w' : Wave} (h : w.sameButP w') (l : Nat) : w'.pred 7 l = w.pred 7 l := by
  obtain ⟨x, c, rfl⟩ := h
  rfl

theorem writeP_result (p : Nat) (val : Nat → Bool) (s : State) : PredicateResult p val s (writeP p val s) := by
  have h := Wave.sameButP_putP p val s.w.lanes s.w
  refine ⟨onlyPredicate_of s _ h, ?_⟩
  intro q l
  show (Wave.putP p val s.w.lanes s.w).pred q l = _
  by_cases hp : p = 7
  · subst hp; rw [Wave.putP_seven]; simp
  · by_cases hq : q = 7
    · subst hq
      rw [if_neg (by rintro ⟨_, h1, h2⟩; exact h2 h1.symm), Wave.sameButP_seven h]
    · rw [Wave.putP_pred _ _ _ _ _ _ hp hq (fun x hx => BitVec.lt_of_getLsbD ((mem_waveLanes _ _).mp hx))]
      simp only [mem_waveLanes]
      by_cases h1 : p = q
      · subst h1
        by_cases h2 : s.w.active.getLsbD l = true <;> simp [h2, hp]
      · simp [h1, Ne.symm h1]

theorem Wave.idle_iff (w : Wave) : w.idle = true ↔ w.active = 0 := by simp [Wave.idle]

theorem writeS_result (d : Nat) (x : Word) (s : State) : ScalarResult d x s (writeS d x s) := by
  unfold writeS
  by_cases h : s.w.active = 0
  · rw [if_pos ((Wave.idle_iff _).mpr h)]
    exact ⟨rfl, fun r => by simp [h]⟩
  · rw [if_neg (by rw [Wave.idle_iff]; exact h)]
    refine ⟨onlyScalar_of s _ (Wave.sameButS_setS _ _ _), fun r => ?_⟩
    show (s.w.setS d x).sreg r = _
    rw [Wave.setS_sreg]
    simp only [eq_true (show s.w.active ≠ 0 from h), and_true, eq_comm (a := d)]

theorem writeSPair_result (d : Nat) (x : DWord) (s : State) : ScalarPairResult d x s (writeSPair d x s) := by
  unfold writeSPair
  by_cases h : s.w.active = 0
  · rw [if_pos ((Wave.idle_iff _).mpr h)]
    exact ⟨rfl, fun r => by simp [h]⟩
  · rw [if_neg (by rw [Wave.idle_iff]; exact h)]
    refine ⟨onlyScalar_of s _ (Wave.sameButS_setSPair _ _ _), fun r => ?_⟩
    show ((s.w.setS d (x.setWidth 32)).setS (d + 1) ((x >>> 32).setWidth 32)).sreg r = _
    rw [Wave.setS_sreg, Wave.setS_sreg]
    simp only [eq_true (show s.w.active ≠ 0 from h), and_true, eq_comm (a := d), eq_comm (a := d + 1)]
    by_cases h1 : r = d
    · rw [if_pos h1, if_neg (by omega), if_pos h1]
    · rw [if_neg h1, if_neg h1]

/-! ## Completion (R66) -/

theorem foldl_or_getLsbD (exc : Nat → Exc) (ls : List Nat) (x : Exc) (n : Nat) :
    (ls.foldl (fun x l => x ||| exc l) x).getLsbD n = true ↔
      x.getLsbD n = true ∨ ∃ l, l ∈ ls ∧ (exc l).getLsbD n = true := by
  induction ls generalizing x with
  | nil => simp
  | cons l ls ih =>
    rw [List.foldl_cons, ih, BitVec.getLsbD_or, Bool.or_eq_true]
    simp only [List.mem_cons]
    constructor
    · rintro ((h | h) | ⟨k, hk, h⟩)
      · exact .inl h
      · exact .inr ⟨l, .inl rfl, h⟩
      · exact .inr ⟨k, .inr hk, h⟩
    · rintro (h | ⟨k, (rfl | hk), h⟩)
      · exact .inl (.inl h)
      · exact .inl (.inr h)
      · exact .inr ⟨k, hk, h⟩

theorem fpRaise_getLsbD (m : Word) (x : Exc) (n : Nat) :
    (fpRaise m x).getLsbD n = true ↔ m.getLsbD n = true ∨ (16 ≤ n ∧ n < 32 ∧ x.getLsbD (n - 16) = true) := by
  unfold fpRaise
  rw [BitVec.getLsbD_or, Bool.or_eq_true, BitVec.getLsbD_shiftLeft, BitVec.getLsbD_setWidth]
  by_cases h1 : n < 32
  · by_cases h2 : n < 16
    · simp [h1, h2]
    · have : n - 16 < 32 := by omega
      simp only [h1, this, h2, decide_true, decide_false, Bool.not_false, Bool.true_and]
      constructor
      · rintro (h | h)
        · exact .inl h
        · exact .inr ⟨by omega, trivial, h⟩
      · rintro (h | ⟨_, _, h⟩)
        · exact .inl h
        · exact .inr h
  · simp [h1]

theorem fpEnables_getLsbD (m : Word) (n : Nat) : (fpEnables m).getLsbD n = (decide (n < 5) && m.getLsbD (5 + n)) := by
  unfold fpEnables wbits bits
  rw [BitVec.getLsbD_ofNat, Nat.testBit_mod_two_pow, Nat.testBit_div_two_pow, ← BitVec.testBit_toNat]
  by_cases h : n < 5 <;> simp [h, Nat.add_comm]

theorem quiet_enables (s : State) (h : Quiet s) : fpEnables s.w.fpmode = 0 := by
  apply BitVec.eq_of_getLsbD_eq
  intro n hn
  rw [fpEnables_getLsbD]
  simp [h (5 + n) (by omega) (by omega)]

/-- R66: the flags a word raises. -/
theorem flagsRaised_fold (exc : Nat → Exc) (s t : State)
    (h : t.w.fpmode = fpRaise s.w.fpmode (s.w.lanes.foldl (fun x l => x ||| exc l) (0 : Exc))) :
    FlagsRaised exc s t := by
  intro n
  rw [h, fpRaise_getLsbD, foldl_or_getLsbD]
  simp [mem_waveLanes]

/-- What the wave is after its flags have been raised. -/
def raiseFlags (exc : Nat → Exc) (s : State) : State :=
  { s with w := { s.w with fpmode := fpRaise s.w.fpmode (s.w.lanes.foldl (fun x l => x ||| exc l) (0 : Exc)) } }

theorem completeFp_eq (exc : Nat → Exc) (dst : Nat) (s : State) (h : Quiet s) :
    completeFp exc dst s = raiseFlags exc s :=
  completeFp_quiet exc dst s (quiet_enables s h)

theorem Wave.sameButV_active {w w' : Wave} (h : w.sameButV w') : w'.active = w.active := by
  obtain ⟨x, c, rfl⟩ := h
  rfl

theorem Wave.sameButV_fpmode {w w' : Wave} (h : w.sameButV w') : w'.fpmode = w.fpmode := by
  obtain ⟨x, c, rfl⟩ := h
  rfl

theorem Wave.sameButP_active {w w' : Wave} (h : w.sameButP w') : w'.active = w.active := by
  obtain ⟨x, c, rfl⟩ := h
  rfl

theorem Wave.sameButP_fpmode {w w' : Wave} (h : w.sameButP w') : w'.fpmode = w.fpmode := by
  obtain ⟨x, c, rfl⟩ := h
  rfl

theorem raiseFlags_frameV (exc : Nat → Exc) (s : State) (w : Wave) (h : s.w.sameButV w) :
    OnlyVectorFp s (raiseFlags exc { s with w := w }) ∧ FlagsRaised exc s (raiseFlags exc { s with w := w }) := by
  refine ⟨?_, flagsRaised_fold _ _ _ ?_⟩
  · obtain ⟨x, c, rfl⟩ := h
    rfl
  · show fpRaise w.fpmode ((lanesOf w.active).foldl _ _) = _
    rw [Wave.sameButV_fpmode h, Wave.sameButV_active h]
    rfl

theorem raiseFlags_frameP (exc : Nat → Exc) (s : State) (w : Wave) (h : s.w.sameButP w) :
    OnlyPredicateFp s (raiseFlags exc { s with w := w }) ∧ FlagsRaised exc s (raiseFlags exc { s with w := w }) := by
  refine ⟨?_, flagsRaised_fold _ _ _ ?_⟩
  · obtain ⟨x, c, rfl⟩ := h
    rfl
  · show fpRaise w.fpmode ((lanesOf w.active).foldl _ _) = _
    rw [Wave.sameButP_fpmode h, Wave.sameButP_active h]
    rfl

theorem writeV_raise (d : Nat) (val : Nat → Word) (exc : Nat → Exc) (s : State) (hd : d < 128) :
    FpResult d (fun l => (val l, exc l)) s (raiseFlags exc (writeV d val s)) := by
  have h := raiseFlags_frameV exc s _ (Wave.sameButV_putV d val s.w.lanes s.w)
  exact ⟨h.1, fun l r hr => (writeV_result d val s hd).2 l r hr, h.2⟩

theorem fpResult_result (d : Nat) (r : Nat → Word × Exc) (s : State) (hd : d < 128) (hq : Quiet s) :
    FpResult d r s (fpResult d r s) := by
  unfold fpResult
  rw [completeFp_eq]
  · exact writeV_raise d _ _ s hd
  · intro n h1 h2
    show (Wave.putV d _ s.w.lanes s.w).fpmode.getLsbD n = false
    rw [Wave.sameButV_fpmode (Wave.sameButV_putV _ _ _ _)]; exact hq n h1 h2

theorem raiseFlags_zero (exc : Nat → Exc) (s : State) (h : ∀ l, Active s l → exc l = 0) : raiseFlags exc s = s := by
  have hf : s.w.lanes.foldl (fun x l => x ||| exc l) (0 : Exc) = 0 := by
    apply BitVec.eq_of_getLsbD_eq
    intro n hn
    rw [Bool.eq_iff_iff, foldl_or_getLsbD]
    constructor
    · rintro (h1 | ⟨l, hl, h1⟩)
      · exact h1
      · rw [h l ((mem_waveLanes _ _).mp hl)] at h1; exact h1
    · exact fun h1 => .inl h1
  unfold raiseFlags
  rw [hf]
  have : fpRaise s.w.fpmode 0 = s.w.fpmode := by simp [fpRaise]
  rw [this]

/-! ## Member masks -/

theorem member_iff (f : V3) (s : State) (l : Nat) : (s.w.member f).getLsbD l = true ↔ Member f s l := by
  unfold Wave.member Member
  cases f.xw with
  | none => exact Iff.rfl
  | some x =>
    by_cases h : x.c % 16 = 15 <;> simp [h]

theorem live_getLsbD (w : Wave) (l : Nat) :
    w.live.getLsbD l = (decide (l < 64) && (decide (l < w.width) && !w.exited.getLsbD l)) := by
  unfold Wave.live Wave.all widthMask
  rw [BitVec.getLsbD_and, laneSet_getLsbD, BitVec.getLsbD_not]
  by_cases h : l < 64 <;> simp [h]

theorem partSet_iff (f : V3) (s : State) (l : Nat) : (s.w.partSet f).getLsbD l = true ↔ Participates f s l := by
  unfold Wave.partSet Participates
  rw [BitVec.getLsbD_and, Bool.and_eq_true, member_iff, live_getLsbD]
  constructor
  · rintro ⟨h1, h2⟩
    simp at h2
    exact ⟨h1, h2.2.1, h2.2.2⟩
  · rintro ⟨h1, h2, h3⟩
    refine ⟨h1, ?_⟩
    have : l < 64 := by
      rw [← member_iff] at h1
      exact BitVec.lt_of_getLsbD h1
    rw [h3, decide_eq_true this, decide_eq_true h2]
    rfl

theorem selfOmitted_iff (f : V3) (s : State) (l : Nat) :
    (s.w.selfOmitted (s.w.member f)).getLsbD l = true ↔ Active s l ∧ ¬Member f s l := by
  unfold Wave.selfOmitted
  rw [BitVec.getLsbD_and, Bool.and_eq_true, BitVec.getLsbD_not, ← member_iff]
  constructor
  · rintro ⟨h1, h2⟩
    simp at h2
    exact ⟨h1, by simp [h2.2]⟩
  · rintro ⟨h1, h2⟩
    have : l < 64 := BitVec.lt_of_getLsbD h1
    exact ⟨h1, by rw [decide_eq_true this, Bool.eq_false_iff.mpr h2]; rfl⟩

theorem ne_zero_of_getLsbD {n : Nat} {m : BitVec n} {l : Nat} (h : m.getLsbD l = true) : m ≠ 0 := by
  rintro rfl; simp at h

theorem exists_of_ne_zero {n : Nat} {m : BitVec n} (h : m ≠ 0) : ∃ l, m.getLsbD l = true := by
  by_contra hn
  apply h
  apply BitVec.eq_of_getLsbD_eq
  intro i hi
  have := not_exists.mp hn i
  simp at this ⊢
  exact this

theorem crossLane_runs (i : Instr) (f : V3) (op : State → State) (s : State) (h : NoSelfOmission f s) : crossLane i f op s = op s := by
  unfold crossLane
  have : s.w.selfOmitted (s.w.member f) = 0 := by
    by_contra hn
    obtain ⟨l, hl⟩ := exists_of_ne_zero hn
    rw [selfOmitted_iff] at hl
    exact hl.2 (h l hl.1)
  simp [this]

theorem crossLane_traps (i : Instr) (f : V3) (op : State → State) (s : State) (h : ∃ l, Active s l ∧ ¬Member f s l) :
    crossLane i f op s = raise .maskSelf (s.w.selfOmitted (s.w.member f)) (destReg i) 0 s := by
  unfold crossLane
  obtain ⟨l, hl⟩ := h
  have h0 : s.w.selfOmitted (s.w.member f) ≠ 0 := ne_zero_of_getLsbD ((selfOmitted_iff f s l).mpr hl)
  exact if_neg (by simpa using h0)

end Sys2Proof.Machine
end

