-- ==== Sys2Proof/Laws/State.lean ====
section
/-!
SUPPORT. What the updates of the focused wave leave of the state: one lemma for each field and update.
-/

namespace Sys2Proof.Machine

/-! ## writeV -/

@[simp] theorem writeV_waves (r : Nat) (f : Nat → Word) (s : State) : (writeV r f s).waves = s.waves := rfl
@[simp] theorem writeV_cohorts (r : Nat) (f : Nat → Word) (s : State) : (writeV r f s).cohorts = s.cohorts := rfl
@[simp] theorem writeV_launches (r : Nat) (f : Nat → Word) (s : State) : (writeV r f s).launches = s.launches := rfl
@[simp] theorem writeV_contexts (r : Nat) (f : Nat → Word) (s : State) : (writeV r f s).contexts = s.contexts := rfl
@[simp] theorem writeV_q (r : Nat) (f : Nat → Word) (s : State) : (writeV r f s).q = s.q := rfl
@[simp] theorem writeV_queues (r : Nat) (f : Nat → Word) (s : State) : (writeV r f s).queues = s.queues := rfl
@[simp] theorem writeV_ready (r : Nat) (f : Nat → Word) (s : State) : (writeV r f s).ready = s.ready := rfl
@[simp] theorem writeV_armed (r : Nat) (f : Nat → Word) (s : State) : (writeV r f s).armed = s.armed := rfl
@[simp] theorem writeV_gens (r : Nat) (f : Nat → Word) (s : State) : (writeV r f s).gens = s.gens := rfl
@[simp] theorem writeV_rr (r : Nat) (f : Nat → Word) (s : State) : (writeV r f s).rr = s.rr := rfl
@[simp] theorem writeV_completions (r : Nat) (f : Nat → Word) (s : State) : (writeV r f s).completions = s.completions := rfl
@[simp] theorem writeV_watches (r : Nat) (f : Nat → Word) (s : State) : (writeV r f s).watches = s.watches := rfl
@[simp] theorem writeV_logs (r : Nat) (f : Nat → Word) (s : State) : (writeV r f s).logs = s.logs := rfl
@[simp] theorem writeV_replay (r : Nat) (f : Nat → Word) (s : State) : (writeV r f s).replay = s.replay := rfl
@[simp] theorem writeV_sectors (r : Nat) (f : Nat → Word) (s : State) : (writeV r f s).sectors = s.sectors := rfl
@[simp] theorem writeV_mem (r : Nat) (f : Nat → Word) (s : State) : (writeV r f s).mem = s.mem := rfl
@[simp] theorem writeV_poison (r : Nat) (f : Nat → Word) (s : State) : (writeV r f s).poison = s.poison := rfl
@[simp] theorem writeV_scratch (r : Nat) (f : Nat → Word) (s : State) : (writeV r f s).scratch = s.scratch := rfl
@[simp] theorem writeV_scratchFe (r : Nat) (f : Nat → Word) (s : State) : (writeV r f s).scratchFe = s.scratchFe := rfl
@[simp] theorem writeV_scratchWait (r : Nat) (f : Nat → Word) (s : State) : (writeV r f s).scratchWait = s.scratchWait := rfl
@[simp] theorem writeV_l1 (r : Nat) (f : Nat → Word) (s : State) : (writeV r f s).l1 = s.l1 := rfl
@[simp] theorem writeV_updates (r : Nat) (f : Nat → Word) (s : State) : (writeV r f s).updates = s.updates := rfl
@[simp] theorem writeV_pending (r : Nat) (f : Nat → Word) (s : State) : (writeV r f s).pending = s.pending := rfl
@[simp] theorem writeV_tlb (r : Nat) (f : Nat → Word) (s : State) : (writeV r f s).tlb = s.tlb := rfl
@[simp] theorem writeV_icache (r : Nat) (f : Nat → Word) (s : State) : (writeV r f s).icache = s.icache := rfl
@[simp] theorem writeV_lines (r : Nat) (f : Nat → Word) (s : State) : (writeV r f s).lines = s.lines := rfl
@[simp] theorem writeV_evicted (r : Nat) (f : Nat → Word) (s : State) : (writeV r f s).evicted = s.evicted := rfl
@[simp] theorem writeV_keys (r : Nat) (f : Nat → Word) (s : State) : (writeV r f s).keys = s.keys := rfl
@[simp] theorem writeV_faults (r : Nat) (f : Nat → Word) (s : State) : (writeV r f s).faults = s.faults := rfl
@[simp] theorem writeV_faultBase (r : Nat) (f : Nat → Word) (s : State) : (writeV r f s).faultBase = s.faultBase := rfl
@[simp] theorem writeV_st (r : Nat) (f : Nat → Word) (s : State) : (writeV r f s).st = s.st := rfl
@[simp] theorem writeV_streams (r : Nat) (f : Nat → Word) (s : State) : (writeV r f s).streams = s.streams := rfl
@[simp] theorem writeV_engine (r : Nat) (f : Nat → Word) (s : State) : (writeV r f s).engine = s.engine := rfl
@[simp] theorem writeV_slotMem (r : Nat) (f : Nat → Word) (s : State) : (writeV r f s).slotMem = s.slotMem := rfl
@[simp] theorem writeV_slotTag (r : Nat) (f : Nat → Word) (s : State) : (writeV r f s).slotTag = s.slotTag := rfl
@[simp] theorem writeV_acc (r : Nat) (f : Nat → Word) (s : State) : (writeV r f s).acc = s.acc := rfl
@[simp] theorem writeV_cmds (r : Nat) (f : Nat → Word) (s : State) : (writeV r f s).cmds = s.cmds := rfl
@[simp] theorem writeV_cpdiag (r : Nat) (f : Nat → Word) (s : State) : (writeV r f s).cpdiag = s.cpdiag := rfl
@[simp] theorem writeV_raster (r : Nat) (f : Nat → Word) (s : State) : (writeV r f s).raster = s.raster := rfl
@[simp] theorem writeV_rasterGen (r : Nat) (f : Nat → Word) (s : State) : (writeV r f s).rasterGen = s.rasterGen := rfl
@[simp] theorem writeV_eventRing (r : Nat) (f : Nat → Word) (s : State) : (writeV r f s).eventRing = s.eventRing := rfl
@[simp] theorem writeV_eventNext (r : Nat) (f : Nat → Word) (s : State) : (writeV r f s).eventNext = s.eventNext := rfl
@[simp] theorem writeV_overflow (r : Nat) (f : Nat → Word) (s : State) : (writeV r f s).overflow = s.overflow := rfl
@[simp] theorem writeV_ecc (r : Nat) (f : Nat → Word) (s : State) : (writeV r f s).ecc = s.ecc := rfl
@[simp] theorem writeV_plat (r : Nat) (f : Nat → Word) (s : State) : (writeV r f s).plat = s.plat := rfl
@[simp] theorem writeV_out (r : Nat) (f : Nat → Word) (s : State) : (writeV r f s).out = s.out := rfl
@[simp] theorem writeV_now (r : Nat) (f : Nat → Word) (s : State) : (writeV r f s).now = s.now := rfl
@[simp] theorem writeV_slots (r : Nat) (f : Nat → Word) (s : State) : (writeV r f s).slots = s.slots := rfl
@[simp] theorem writeV_fresh (r : Nat) (f : Nat → Word) (s : State) : (writeV r f s).fresh = s.fresh := rfl
@[simp] theorem writeV_nextId (r : Nat) (f : Nat → Word) (s : State) : (writeV r f s).nextId = s.nextId := rfl
@[simp] theorem writeV_agenda (r : Nat) (f : Nat → Word) (s : State) : (writeV r f s).agenda = s.agenda := rfl
@[simp] theorem writeV_rota (r : Nat) (f : Nat → Word) (s : State) : (writeV r f s).rota = s.rota := rfl

/-! ## writeVPair -/

@[simp] theorem writeVPair_waves (r : Nat) (f : Nat → DWord) (s : State) : (writeVPair r f s).waves = s.waves := rfl
@[simp] theorem writeVPair_cohorts (r : Nat) (f : Nat → DWord) (s : State) : (writeVPair r f s).cohorts = s.cohorts := rfl
@[simp] theorem writeVPair_launches (r : Nat) (f : Nat → DWord) (s : State) : (writeVPair r f s).launches = s.launches := rfl
@[simp] theorem writeVPair_contexts (r : Nat) (f : Nat → DWord) (s : State) : (writeVPair r f s).contexts = s.contexts := rfl
@[simp] theorem writeVPair_q (r : Nat) (f : Nat → DWord) (s : State) : (writeVPair r f s).q = s.q := rfl
@[simp] theorem writeVPair_queues (r : Nat) (f : Nat → DWord) (s : State) : (writeVPair r f s).queues = s.queues := rfl
@[simp] theorem writeVPair_ready (r : Nat) (f : Nat → DWord) (s : State) : (writeVPair r f s).ready = s.ready := rfl
@[simp] theorem writeVPair_armed (r : Nat) (f : Nat → DWord) (s : State) : (writeVPair r f s).armed = s.armed := rfl
@[simp] theorem writeVPair_gens (r : Nat) (f : Nat → DWord) (s : State) : (writeVPair r f s).gens = s.gens := rfl
@[simp] theorem writeVPair_rr (r : Nat) (f : Nat → DWord) (s : State) : (writeVPair r f s).rr = s.rr := rfl
@[simp] theorem writeVPair_completions (r : Nat) (f : Nat → DWord) (s : State) : (writeVPair r f s).completions = s.completions := rfl
@[simp] theorem writeVPair_watches (r : Nat) (f : Nat → DWord) (s : State) : (writeVPair r f s).watches = s.watches := rfl
@[simp] theorem writeVPair_logs (r : Nat) (f : Nat → DWord) (s : State) : (writeVPair r f s).logs = s.logs := rfl
@[simp] theorem writeVPair_replay (r : Nat) (f : Nat → DWord) (s : State) : (writeVPair r f s).replay = s.replay := rfl
@[simp] theorem writeVPair_sectors (r : Nat) (f : Nat → DWord) (s : State) : (writeVPair r f s).sectors = s.sectors := rfl
@[simp] theorem writeVPair_mem (r : Nat) (f : Nat → DWord) (s : State) : (writeVPair r f s).mem = s.mem := rfl
@[simp] theorem writeVPair_poison (r : Nat) (f : Nat → DWord) (s : State) : (writeVPair r f s).poison = s.poison := rfl
@[simp] theorem writeVPair_scratch (r : Nat) (f : Nat → DWord) (s : State) : (writeVPair r f s).scratch = s.scratch := rfl
@[simp] theorem writeVPair_scratchFe (r : Nat) (f : Nat → DWord) (s : State) : (writeVPair r f s).scratchFe = s.scratchFe := rfl
@[simp] theorem writeVPair_scratchWait (r : Nat) (f : Nat → DWord) (s : State) : (writeVPair r f s).scratchWait = s.scratchWait := rfl
@[simp] theorem writeVPair_l1 (r : Nat) (f : Nat → DWord) (s : State) : (writeVPair r f s).l1 = s.l1 := rfl
@[simp] theorem writeVPair_updates (r : Nat) (f : Nat → DWord) (s : State) : (writeVPair r f s).updates = s.updates := rfl
@[simp] theorem writeVPair_pending (r : Nat) (f : Nat → DWord) (s : State) : (writeVPair r f s).pending = s.pending := rfl
@[simp] theorem writeVPair_tlb (r : Nat) (f : Nat → DWord) (s : State) : (writeVPair r f s).tlb = s.tlb := rfl
@[simp] theorem writeVPair_icache (r : Nat) (f : Nat → DWord) (s : State) : (writeVPair r f s).icache = s.icache := rfl
@[simp] theorem writeVPair_lines (r : Nat) (f : Nat → DWord) (s : State) : (writeVPair r f s).lines = s.lines := rfl
@[simp] theorem writeVPair_evicted (r : Nat) (f : Nat → DWord) (s : State) : (writeVPair r f s).evicted = s.evicted := rfl
@[simp] theorem writeVPair_keys (r : Nat) (f : Nat → DWord) (s : State) : (writeVPair r f s).keys = s.keys := rfl
@[simp] theorem writeVPair_faults (r : Nat) (f : Nat → DWord) (s : State) : (writeVPair r f s).faults = s.faults := rfl
@[simp] theorem writeVPair_faultBase (r : Nat) (f : Nat → DWord) (s : State) : (writeVPair r f s).faultBase = s.faultBase := rfl
@[simp] theorem writeVPair_st (r : Nat) (f : Nat → DWord) (s : State) : (writeVPair r f s).st = s.st := rfl
@[simp] theorem writeVPair_streams (r : Nat) (f : Nat → DWord) (s : State) : (writeVPair r f s).streams = s.streams := rfl
@[simp] theorem writeVPair_engine (r : Nat) (f : Nat → DWord) (s : State) : (writeVPair r f s).engine = s.engine := rfl
@[simp] theorem writeVPair_slotMem (r : Nat) (f : Nat → DWord) (s : State) : (writeVPair r f s).slotMem = s.slotMem := rfl
@[simp] theorem writeVPair_slotTag (r : Nat) (f : Nat → DWord) (s : State) : (writeVPair r f s).slotTag = s.slotTag := rfl
@[simp] theorem writeVPair_acc (r : Nat) (f : Nat → DWord) (s : State) : (writeVPair r f s).acc = s.acc := rfl
@[simp] theorem writeVPair_cmds (r : Nat) (f : Nat → DWord) (s : State) : (writeVPair r f s).cmds = s.cmds := rfl
@[simp] theorem writeVPair_cpdiag (r : Nat) (f : Nat → DWord) (s : State) : (writeVPair r f s).cpdiag = s.cpdiag := rfl
@[simp] theorem writeVPair_raster (r : Nat) (f : Nat → DWord) (s : State) : (writeVPair r f s).raster = s.raster := rfl
@[simp] theorem writeVPair_rasterGen (r : Nat) (f : Nat → DWord) (s : State) : (writeVPair r f s).rasterGen = s.rasterGen := rfl
@[simp] theorem writeVPair_eventRing (r : Nat) (f : Nat → DWord) (s : State) : (writeVPair r f s).eventRing = s.eventRing := rfl
@[simp] theorem writeVPair_eventNext (r : Nat) (f : Nat → DWord) (s : State) : (writeVPair r f s).eventNext = s.eventNext := rfl
@[simp] theorem writeVPair_overflow (r : Nat) (f : Nat → DWord) (s : State) : (writeVPair r f s).overflow = s.overflow := rfl
@[simp] theorem writeVPair_ecc (r : Nat) (f : Nat → DWord) (s : State) : (writeVPair r f s).ecc = s.ecc := rfl
@[simp] theorem writeVPair_plat (r : Nat) (f : Nat → DWord) (s : State) : (writeVPair r f s).plat = s.plat := rfl
@[simp] theorem writeVPair_out (r : Nat) (f : Nat → DWord) (s : State) : (writeVPair r f s).out = s.out := rfl
@[simp] theorem writeVPair_now (r : Nat) (f : Nat → DWord) (s : State) : (writeVPair r f s).now = s.now := rfl
@[simp] theorem writeVPair_slots (r : Nat) (f : Nat → DWord) (s : State) : (writeVPair r f s).slots = s.slots := rfl
@[simp] theorem writeVPair_fresh (r : Nat) (f : Nat → DWord) (s : State) : (writeVPair r f s).fresh = s.fresh := rfl
@[simp] theorem writeVPair_nextId (r : Nat) (f : Nat → DWord) (s : State) : (writeVPair r f s).nextId = s.nextId := rfl
@[simp] theorem writeVPair_agenda (r : Nat) (f : Nat → DWord) (s : State) : (writeVPair r f s).agenda = s.agenda := rfl
@[simp] theorem writeVPair_rota (r : Nat) (f : Nat → DWord) (s : State) : (writeVPair r f s).rota = s.rota := rfl

/-! ## writeP -/

@[simp] theorem writeP_waves (p : Nat) (f : Nat → Bool) (s : State) : (writeP p f s).waves = s.waves := rfl
@[simp] theorem writeP_cohorts (p : Nat) (f : Nat → Bool) (s : State) : (writeP p f s).cohorts = s.cohorts := rfl
@[simp] theorem writeP_launches (p : Nat) (f : Nat → Bool) (s : State) : (writeP p f s).launches = s.launches := rfl
@[simp] theorem writeP_contexts (p : Nat) (f : Nat → Bool) (s : State) : (writeP p f s).contexts = s.contexts := rfl
@[simp] theorem writeP_q (p : Nat) (f : Nat → Bool) (s : State) : (writeP p f s).q = s.q := rfl
@[simp] theorem writeP_queues (p : Nat) (f : Nat → Bool) (s : State) : (writeP p f s).queues = s.queues := rfl
@[simp] theorem writeP_ready (p : Nat) (f : Nat → Bool) (s : State) : (writeP p f s).ready = s.ready := rfl
@[simp] theorem writeP_armed (p : Nat) (f : Nat → Bool) (s : State) : (writeP p f s).armed = s.armed := rfl
@[simp] theorem writeP_gens (p : Nat) (f : Nat → Bool) (s : State) : (writeP p f s).gens = s.gens := rfl
@[simp] theorem writeP_rr (p : Nat) (f : Nat → Bool) (s : State) : (writeP p f s).rr = s.rr := rfl
@[simp] theorem writeP_completions (p : Nat) (f : Nat → Bool) (s : State) : (writeP p f s).completions = s.completions := rfl
@[simp] theorem writeP_watches (p : Nat) (f : Nat → Bool) (s : State) : (writeP p f s).watches = s.watches := rfl
@[simp] theorem writeP_logs (p : Nat) (f : Nat → Bool) (s : State) : (writeP p f s).logs = s.logs := rfl
@[simp] theorem writeP_replay (p : Nat) (f : Nat → Bool) (s : State) : (writeP p f s).replay = s.replay := rfl
@[simp] theorem writeP_sectors (p : Nat) (f : Nat → Bool) (s : State) : (writeP p f s).sectors = s.sectors := rfl
@[simp] theorem writeP_mem (p : Nat) (f : Nat → Bool) (s : State) : (writeP p f s).mem = s.mem := rfl
@[simp] theorem writeP_poison (p : Nat) (f : Nat → Bool) (s : State) : (writeP p f s).poison = s.poison := rfl
@[simp] theorem writeP_scratch (p : Nat) (f : Nat → Bool) (s : State) : (writeP p f s).scratch = s.scratch := rfl
@[simp] theorem writeP_scratchFe (p : Nat) (f : Nat → Bool) (s : State) : (writeP p f s).scratchFe = s.scratchFe := rfl
@[simp] theorem writeP_scratchWait (p : Nat) (f : Nat → Bool) (s : State) : (writeP p f s).scratchWait = s.scratchWait := rfl
@[simp] theorem writeP_l1 (p : Nat) (f : Nat → Bool) (s : State) : (writeP p f s).l1 = s.l1 := rfl
@[simp] theorem writeP_updates (p : Nat) (f : Nat → Bool) (s : State) : (writeP p f s).updates = s.updates := rfl
@[simp] theorem writeP_pending (p : Nat) (f : Nat → Bool) (s : State) : (writeP p f s).pending = s.pending := rfl
@[simp] theorem writeP_tlb (p : Nat) (f : Nat → Bool) (s : State) : (writeP p f s).tlb = s.tlb := rfl
@[simp] theorem writeP_icache (p : Nat) (f : Nat → Bool) (s : State) : (writeP p f s).icache = s.icache := rfl
@[simp] theorem writeP_lines (p : Nat) (f : Nat → Bool) (s : State) : (writeP p f s).lines = s.lines := rfl
@[simp] theorem writeP_evicted (p : Nat) (f : Nat → Bool) (s : State) : (writeP p f s).evicted = s.evicted := rfl
@[simp] theorem writeP_keys (p : Nat) (f : Nat → Bool) (s : State) : (writeP p f s).keys = s.keys := rfl
@[simp] theorem writeP_faults (p : Nat) (f : Nat → Bool) (s : State) : (writeP p f s).faults = s.faults := rfl
@[simp] theorem writeP_faultBase (p : Nat) (f : Nat → Bool) (s : State) : (writeP p f s).faultBase = s.faultBase := rfl
@[simp] theorem writeP_st (p : Nat) (f : Nat → Bool) (s : State) : (writeP p f s).st = s.st := rfl
@[simp] theorem writeP_streams (p : Nat) (f : Nat → Bool) (s : State) : (writeP p f s).streams = s.streams := rfl
@[simp] theorem writeP_engine (p : Nat) (f : Nat → Bool) (s : State) : (writeP p f s).engine = s.engine := rfl
@[simp] theorem writeP_slotMem (p : Nat) (f : Nat → Bool) (s : State) : (writeP p f s).slotMem = s.slotMem := rfl
@[simp] theorem writeP_slotTag (p : Nat) (f : Nat → Bool) (s : State) : (writeP p f s).slotTag = s.slotTag := rfl
@[simp] theorem writeP_acc (p : Nat) (f : Nat → Bool) (s : State) : (writeP p f s).acc = s.acc := rfl
@[simp] theorem writeP_cmds (p : Nat) (f : Nat → Bool) (s : State) : (writeP p f s).cmds = s.cmds := rfl
@[simp] theorem writeP_cpdiag (p : Nat) (f : Nat → Bool) (s : State) : (writeP p f s).cpdiag = s.cpdiag := rfl
@[simp] theorem writeP_raster (p : Nat) (f : Nat → Bool) (s : State) : (writeP p f s).raster = s.raster := rfl
@[simp] theorem writeP_rasterGen (p : Nat) (f : Nat → Bool) (s : State) : (writeP p f s).rasterGen = s.rasterGen := rfl
@[simp] theorem writeP_eventRing (p : Nat) (f : Nat → Bool) (s : State) : (writeP p f s).eventRing = s.eventRing := rfl
@[simp] theorem writeP_eventNext (p : Nat) (f : Nat → Bool) (s : State) : (writeP p f s).eventNext = s.eventNext := rfl
@[simp] theorem writeP_overflow (p : Nat) (f : Nat → Bool) (s : State) : (writeP p f s).overflow = s.overflow := rfl
@[simp] theorem writeP_ecc (p : Nat) (f : Nat → Bool) (s : State) : (writeP p f s).ecc = s.ecc := rfl
@[simp] theorem writeP_plat (p : Nat) (f : Nat → Bool) (s : State) : (writeP p f s).plat = s.plat := rfl
@[simp] theorem writeP_out (p : Nat) (f : Nat → Bool) (s : State) : (writeP p f s).out = s.out := rfl
@[simp] theorem writeP_now (p : Nat) (f : Nat → Bool) (s : State) : (writeP p f s).now = s.now := rfl
@[simp] theorem writeP_slots (p : Nat) (f : Nat → Bool) (s : State) : (writeP p f s).slots = s.slots := rfl
@[simp] theorem writeP_fresh (p : Nat) (f : Nat → Bool) (s : State) : (writeP p f s).fresh = s.fresh := rfl
@[simp] theorem writeP_nextId (p : Nat) (f : Nat → Bool) (s : State) : (writeP p f s).nextId = s.nextId := rfl
@[simp] theorem writeP_agenda (p : Nat) (f : Nat → Bool) (s : State) : (writeP p f s).agenda = s.agenda := rfl
@[simp] theorem writeP_rota (p : Nat) (f : Nat → Bool) (s : State) : (writeP p f s).rota = s.rota := rfl

/-! ## writeS -/

@[simp] theorem writeS_waves (r : Nat) (x : Word) (s : State) : (writeS r x s).waves = s.waves := rfl
@[simp] theorem writeS_cohorts (r : Nat) (x : Word) (s : State) : (writeS r x s).cohorts = s.cohorts := rfl
@[simp] theorem writeS_launches (r : Nat) (x : Word) (s : State) : (writeS r x s).launches = s.launches := rfl
@[simp] theorem writeS_contexts (r : Nat) (x : Word) (s : State) : (writeS r x s).contexts = s.contexts := rfl
@[simp] theorem writeS_q (r : Nat) (x : Word) (s : State) : (writeS r x s).q = s.q := rfl
@[simp] theorem writeS_queues (r : Nat) (x : Word) (s : State) : (writeS r x s).queues = s.queues := rfl
@[simp] theorem writeS_ready (r : Nat) (x : Word) (s : State) : (writeS r x s).ready = s.ready := rfl
@[simp] theorem writeS_armed (r : Nat) (x : Word) (s : State) : (writeS r x s).armed = s.armed := rfl
@[simp] theorem writeS_gens (r : Nat) (x : Word) (s : State) : (writeS r x s).gens = s.gens := rfl
@[simp] theorem writeS_rr (r : Nat) (x : Word) (s : State) : (writeS r x s).rr = s.rr := rfl
@[simp] theorem writeS_completions (r : Nat) (x : Word) (s : State) : (writeS r x s).completions = s.completions := rfl
@[simp] theorem writeS_watches (r : Nat) (x : Word) (s : State) : (writeS r x s).watches = s.watches := rfl
@[simp] theorem writeS_logs (r : Nat) (x : Word) (s : State) : (writeS r x s).logs = s.logs := rfl
@[simp] theorem writeS_replay (r : Nat) (x : Word) (s : State) : (writeS r x s).replay = s.replay := rfl
@[simp] theorem writeS_sectors (r : Nat) (x : Word) (s : State) : (writeS r x s).sectors = s.sectors := rfl
@[simp] theorem writeS_mem (r : Nat) (x : Word) (s : State) : (writeS r x s).mem = s.mem := rfl
@[simp] theorem writeS_poison (r : Nat) (x : Word) (s : State) : (writeS r x s).poison = s.poison := rfl
@[simp] theorem writeS_scratch (r : Nat) (x : Word) (s : State) : (writeS r x s).scratch = s.scratch := rfl
@[simp] theorem writeS_scratchFe (r : Nat) (x : Word) (s : State) : (writeS r x s).scratchFe = s.scratchFe := rfl
@[simp] theorem writeS_scratchWait (r : Nat) (x : Word) (s : State) : (writeS r x s).scratchWait = s.scratchWait := rfl
@[simp] theorem writeS_l1 (r : Nat) (x : Word) (s : State) : (writeS r x s).l1 = s.l1 := rfl
@[simp] theorem writeS_updates (r : Nat) (x : Word) (s : State) : (writeS r x s).updates = s.updates := rfl
@[simp] theorem writeS_pending (r : Nat) (x : Word) (s : State) : (writeS r x s).pending = s.pending := rfl
@[simp] theorem writeS_tlb (r : Nat) (x : Word) (s : State) : (writeS r x s).tlb = s.tlb := rfl
@[simp] theorem writeS_icache (r : Nat) (x : Word) (s : State) : (writeS r x s).icache = s.icache := rfl
@[simp] theorem writeS_lines (r : Nat) (x : Word) (s : State) : (writeS r x s).lines = s.lines := rfl
@[simp] theorem writeS_evicted (r : Nat) (x : Word) (s : State) : (writeS r x s).evicted = s.evicted := rfl
@[simp] theorem writeS_keys (r : Nat) (x : Word) (s : State) : (writeS r x s).keys = s.keys := rfl
@[simp] theorem writeS_faults (r : Nat) (x : Word) (s : State) : (writeS r x s).faults = s.faults := rfl
@[simp] theorem writeS_faultBase (r : Nat) (x : Word) (s : State) : (writeS r x s).faultBase = s.faultBase := rfl
@[simp] theorem writeS_st (r : Nat) (x : Word) (s : State) : (writeS r x s).st = s.st := rfl
@[simp] theorem writeS_streams (r : Nat) (x : Word) (s : State) : (writeS r x s).streams = s.streams := rfl
@[simp] theorem writeS_engine (r : Nat) (x : Word) (s : State) : (writeS r x s).engine = s.engine := rfl
@[simp] theorem writeS_slotMem (r : Nat) (x : Word) (s : State) : (writeS r x s).slotMem = s.slotMem := rfl
@[simp] theorem writeS_slotTag (r : Nat) (x : Word) (s : State) : (writeS r x s).slotTag = s.slotTag := rfl
@[simp] theorem writeS_acc (r : Nat) (x : Word) (s : State) : (writeS r x s).acc = s.acc := rfl
@[simp] theorem writeS_cmds (r : Nat) (x : Word) (s : State) : (writeS r x s).cmds = s.cmds := rfl
@[simp] theorem writeS_cpdiag (r : Nat) (x : Word) (s : State) : (writeS r x s).cpdiag = s.cpdiag := rfl
@[simp] theorem writeS_raster (r : Nat) (x : Word) (s : State) : (writeS r x s).raster = s.raster := rfl
@[simp] theorem writeS_rasterGen (r : Nat) (x : Word) (s : State) : (writeS r x s).rasterGen = s.rasterGen := rfl
@[simp] theorem writeS_eventRing (r : Nat) (x : Word) (s : State) : (writeS r x s).eventRing = s.eventRing := rfl
@[simp] theorem writeS_eventNext (r : Nat) (x : Word) (s : State) : (writeS r x s).eventNext = s.eventNext := rfl
@[simp] theorem writeS_overflow (r : Nat) (x : Word) (s : State) : (writeS r x s).overflow = s.overflow := rfl
@[simp] theorem writeS_ecc (r : Nat) (x : Word) (s : State) : (writeS r x s).ecc = s.ecc := rfl
@[simp] theorem writeS_plat (r : Nat) (x : Word) (s : State) : (writeS r x s).plat = s.plat := rfl
@[simp] theorem writeS_out (r : Nat) (x : Word) (s : State) : (writeS r x s).out = s.out := rfl
@[simp] theorem writeS_now (r : Nat) (x : Word) (s : State) : (writeS r x s).now = s.now := rfl
@[simp] theorem writeS_slots (r : Nat) (x : Word) (s : State) : (writeS r x s).slots = s.slots := rfl
@[simp] theorem writeS_fresh (r : Nat) (x : Word) (s : State) : (writeS r x s).fresh = s.fresh := rfl
@[simp] theorem writeS_nextId (r : Nat) (x : Word) (s : State) : (writeS r x s).nextId = s.nextId := rfl
@[simp] theorem writeS_agenda (r : Nat) (x : Word) (s : State) : (writeS r x s).agenda = s.agenda := rfl
@[simp] theorem writeS_rota (r : Nat) (x : Word) (s : State) : (writeS r x s).rota = s.rota := rfl

/-! ## writeSPair -/

@[simp] theorem writeSPair_waves (r : Nat) (x : DWord) (s : State) : (writeSPair r x s).waves = s.waves := rfl
@[simp] theorem writeSPair_cohorts (r : Nat) (x : DWord) (s : State) : (writeSPair r x s).cohorts = s.cohorts := rfl
@[simp] theorem writeSPair_launches (r : Nat) (x : DWord) (s : State) : (writeSPair r x s).launches = s.launches := rfl
@[simp] theorem writeSPair_contexts (r : Nat) (x : DWord) (s : State) : (writeSPair r x s).contexts = s.contexts := rfl
@[simp] theorem writeSPair_q (r : Nat) (x : DWord) (s : State) : (writeSPair r x s).q = s.q := rfl
@[simp] theorem writeSPair_queues (r : Nat) (x : DWord) (s : State) : (writeSPair r x s).queues = s.queues := rfl
@[simp] theorem writeSPair_ready (r : Nat) (x : DWord) (s : State) : (writeSPair r x s).ready = s.ready := rfl
@[simp] theorem writeSPair_armed (r : Nat) (x : DWord) (s : State) : (writeSPair r x s).armed = s.armed := rfl
@[simp] theorem writeSPair_gens (r : Nat) (x : DWord) (s : State) : (writeSPair r x s).gens = s.gens := rfl
@[simp] theorem writeSPair_rr (r : Nat) (x : DWord) (s : State) : (writeSPair r x s).rr = s.rr := rfl
@[simp] theorem writeSPair_completions (r : Nat) (x : DWord) (s : State) : (writeSPair r x s).completions = s.completions := rfl
@[simp] theorem writeSPair_watches (r : Nat) (x : DWord) (s : State) : (writeSPair r x s).watches = s.watches := rfl
@[simp] theorem writeSPair_logs (r : Nat) (x : DWord) (s : State) : (writeSPair r x s).logs = s.logs := rfl
@[simp] theorem writeSPair_replay (r : Nat) (x : DWord) (s : State) : (writeSPair r x s).replay = s.replay := rfl
@[simp] theorem writeSPair_sectors (r : Nat) (x : DWord) (s : State) : (writeSPair r x s).sectors = s.sectors := rfl
@[simp] theorem writeSPair_mem (r : Nat) (x : DWord) (s : State) : (writeSPair r x s).mem = s.mem := rfl
@[simp] theorem writeSPair_poison (r : Nat) (x : DWord) (s : State) : (writeSPair r x s).poison = s.poison := rfl
@[simp] theorem writeSPair_scratch (r : Nat) (x : DWord) (s : State) : (writeSPair r x s).scratch = s.scratch := rfl
@[simp] theorem writeSPair_scratchFe (r : Nat) (x : DWord) (s : State) : (writeSPair r x s).scratchFe = s.scratchFe := rfl
@[simp] theorem writeSPair_scratchWait (r : Nat) (x : DWord) (s : State) : (writeSPair r x s).scratchWait = s.scratchWait := rfl
@[simp] theorem writeSPair_l1 (r : Nat) (x : DWord) (s : State) : (writeSPair r x s).l1 = s.l1 := rfl
@[simp] theorem writeSPair_updates (r : Nat) (x : DWord) (s : State) : (writeSPair r x s).updates = s.updates := rfl
@[simp] theorem writeSPair_pending (r : Nat) (x : DWord) (s : State) : (writeSPair r x s).pending = s.pending := rfl
@[simp] theorem writeSPair_tlb (r : Nat) (x : DWord) (s : State) : (writeSPair r x s).tlb = s.tlb := rfl
@[simp] theorem writeSPair_icache (r : Nat) (x : DWord) (s : State) : (writeSPair r x s).icache = s.icache := rfl
@[simp] theorem writeSPair_lines (r : Nat) (x : DWord) (s : State) : (writeSPair r x s).lines = s.lines := rfl
@[simp] theorem writeSPair_evicted (r : Nat) (x : DWord) (s : State) : (writeSPair r x s).evicted = s.evicted := rfl
@[simp] theorem writeSPair_keys (r : Nat) (x : DWord) (s : State) : (writeSPair r x s).keys = s.keys := rfl
@[simp] theorem writeSPair_faults (r : Nat) (x : DWord) (s : State) : (writeSPair r x s).faults = s.faults := rfl
@[simp] theorem writeSPair_faultBase (r : Nat) (x : DWord) (s : State) : (writeSPair r x s).faultBase = s.faultBase := rfl
@[simp] theorem writeSPair_st (r : Nat) (x : DWord) (s : State) : (writeSPair r x s).st = s.st := rfl
@[simp] theorem writeSPair_streams (r : Nat) (x : DWord) (s : State) : (writeSPair r x s).streams = s.streams := rfl
@[simp] theorem writeSPair_engine (r : Nat) (x : DWord) (s : State) : (writeSPair r x s).engine = s.engine := rfl
@[simp] theorem writeSPair_slotMem (r : Nat) (x : DWord) (s : State) : (writeSPair r x s).slotMem = s.slotMem := rfl
@[simp] theorem writeSPair_slotTag (r : Nat) (x : DWord) (s : State) : (writeSPair r x s).slotTag = s.slotTag := rfl
@[simp] theorem writeSPair_acc (r : Nat) (x : DWord) (s : State) : (writeSPair r x s).acc = s.acc := rfl
@[simp] theorem writeSPair_cmds (r : Nat) (x : DWord) (s : State) : (writeSPair r x s).cmds = s.cmds := rfl
@[simp] theorem writeSPair_cpdiag (r : Nat) (x : DWord) (s : State) : (writeSPair r x s).cpdiag = s.cpdiag := rfl
@[simp] theorem writeSPair_raster (r : Nat) (x : DWord) (s : State) : (writeSPair r x s).raster = s.raster := rfl
@[simp] theorem writeSPair_rasterGen (r : Nat) (x : DWord) (s : State) : (writeSPair r x s).rasterGen = s.rasterGen := rfl
@[simp] theorem writeSPair_eventRing (r : Nat) (x : DWord) (s : State) : (writeSPair r x s).eventRing = s.eventRing := rfl
@[simp] theorem writeSPair_eventNext (r : Nat) (x : DWord) (s : State) : (writeSPair r x s).eventNext = s.eventNext := rfl
@[simp] theorem writeSPair_overflow (r : Nat) (x : DWord) (s : State) : (writeSPair r x s).overflow = s.overflow := rfl
@[simp] theorem writeSPair_ecc (r : Nat) (x : DWord) (s : State) : (writeSPair r x s).ecc = s.ecc := rfl
@[simp] theorem writeSPair_plat (r : Nat) (x : DWord) (s : State) : (writeSPair r x s).plat = s.plat := rfl
@[simp] theorem writeSPair_out (r : Nat) (x : DWord) (s : State) : (writeSPair r x s).out = s.out := rfl
@[simp] theorem writeSPair_now (r : Nat) (x : DWord) (s : State) : (writeSPair r x s).now = s.now := rfl
@[simp] theorem writeSPair_slots (r : Nat) (x : DWord) (s : State) : (writeSPair r x s).slots = s.slots := rfl
@[simp] theorem writeSPair_fresh (r : Nat) (x : DWord) (s : State) : (writeSPair r x s).fresh = s.fresh := rfl
@[simp] theorem writeSPair_nextId (r : Nat) (x : DWord) (s : State) : (writeSPair r x s).nextId = s.nextId := rfl
@[simp] theorem writeSPair_agenda (r : Nat) (x : DWord) (s : State) : (writeSPair r x s).agenda = s.agenda := rfl
@[simp] theorem writeSPair_rota (r : Nat) (x : DWord) (s : State) : (writeSPair r x s).rota = s.rota := rfl

/-! ## writeM -/

@[simp] theorem writeM_waves (m : Nat) (x : Lanes) (s : State) : (writeM m x s).waves = s.waves := rfl
@[simp] theorem writeM_cohorts (m : Nat) (x : Lanes) (s : State) : (writeM m x s).cohorts = s.cohorts := rfl
@[simp] theorem writeM_launches (m : Nat) (x : Lanes) (s : State) : (writeM m x s).launches = s.launches := rfl
@[simp] theorem writeM_contexts (m : Nat) (x : Lanes) (s : State) : (writeM m x s).contexts = s.contexts := rfl
@[simp] theorem writeM_q (m : Nat) (x : Lanes) (s : State) : (writeM m x s).q = s.q := rfl
@[simp] theorem writeM_queues (m : Nat) (x : Lanes) (s : State) : (writeM m x s).queues = s.queues := rfl
@[simp] theorem writeM_ready (m : Nat) (x : Lanes) (s : State) : (writeM m x s).ready = s.ready := rfl
@[simp] theorem writeM_armed (m : Nat) (x : Lanes) (s : State) : (writeM m x s).armed = s.armed := rfl
@[simp] theorem writeM_gens (m : Nat) (x : Lanes) (s : State) : (writeM m x s).gens = s.gens := rfl
@[simp] theorem writeM_rr (m : Nat) (x : Lanes) (s : State) : (writeM m x s).rr = s.rr := rfl
@[simp] theorem writeM_completions (m : Nat) (x : Lanes) (s : State) : (writeM m x s).completions = s.completions := rfl
@[simp] theorem writeM_watches (m : Nat) (x : Lanes) (s : State) : (writeM m x s).watches = s.watches := rfl
@[simp] theorem writeM_logs (m : Nat) (x : Lanes) (s : State) : (writeM m x s).logs = s.logs := rfl
@[simp] theorem writeM_replay (m : Nat) (x : Lanes) (s : State) : (writeM m x s).replay = s.replay := rfl
@[simp] theorem writeM_sectors (m : Nat) (x : Lanes) (s : State) : (writeM m x s).sectors = s.sectors := rfl
@[simp] theorem writeM_mem (m : Nat) (x : Lanes) (s : State) : (writeM m x s).mem = s.mem := rfl
@[simp] theorem writeM_poison (m : Nat) (x : Lanes) (s : State) : (writeM m x s).poison = s.poison := rfl
@[simp] theorem writeM_scratch (m : Nat) (x : Lanes) (s : State) : (writeM m x s).scratch = s.scratch := rfl
@[simp] theorem writeM_scratchFe (m : Nat) (x : Lanes) (s : State) : (writeM m x s).scratchFe = s.scratchFe := rfl
@[simp] theorem writeM_scratchWait (m : Nat) (x : Lanes) (s : State) : (writeM m x s).scratchWait = s.scratchWait := rfl
@[simp] theorem writeM_l1 (m : Nat) (x : Lanes) (s : State) : (writeM m x s).l1 = s.l1 := rfl
@[simp] theorem writeM_updates (m : Nat) (x : Lanes) (s : State) : (writeM m x s).updates = s.updates := rfl
@[simp] theorem writeM_pending (m : Nat) (x : Lanes) (s : State) : (writeM m x s).pending = s.pending := rfl
@[simp] theorem writeM_tlb (m : Nat) (x : Lanes) (s : State) : (writeM m x s).tlb = s.tlb := rfl
@[simp] theorem writeM_icache (m : Nat) (x : Lanes) (s : State) : (writeM m x s).icache = s.icache := rfl
@[simp] theorem writeM_lines (m : Nat) (x : Lanes) (s : State) : (writeM m x s).lines = s.lines := rfl
@[simp] theorem writeM_evicted (m : Nat) (x : Lanes) (s : State) : (writeM m x s).evicted = s.evicted := rfl
@[simp] theorem writeM_keys (m : Nat) (x : Lanes) (s : State) : (writeM m x s).keys = s.keys := rfl
@[simp] theorem writeM_faults (m : Nat) (x : Lanes) (s : State) : (writeM m x s).faults = s.faults := rfl
@[simp] theorem writeM_faultBase (m : Nat) (x : Lanes) (s : State) : (writeM m x s).faultBase = s.faultBase := rfl
@[simp] theorem writeM_st (m : Nat) (x : Lanes) (s : State) : (writeM m x s).st = s.st := rfl
@[simp] theorem writeM_streams (m : Nat) (x : Lanes) (s : State) : (writeM m x s).streams = s.streams := rfl
@[simp] theorem writeM_engine (m : Nat) (x : Lanes) (s : State) : (writeM m x s).engine = s.engine := rfl
@[simp] theorem writeM_slotMem (m : Nat) (x : Lanes) (s : State) : (writeM m x s).slotMem = s.slotMem := rfl
@[simp] theorem writeM_slotTag (m : Nat) (x : Lanes) (s : State) : (writeM m x s).slotTag = s.slotTag := rfl
@[simp] theorem writeM_acc (m : Nat) (x : Lanes) (s : State) : (writeM m x s).acc = s.acc := rfl
@[simp] theorem writeM_cmds (m : Nat) (x : Lanes) (s : State) : (writeM m x s).cmds = s.cmds := rfl
@[simp] theorem writeM_cpdiag (m : Nat) (x : Lanes) (s : State) : (writeM m x s).cpdiag = s.cpdiag := rfl
@[simp] theorem writeM_raster (m : Nat) (x : Lanes) (s : State) : (writeM m x s).raster = s.raster := rfl
@[simp] theorem writeM_rasterGen (m : Nat) (x : Lanes) (s : State) : (writeM m x s).rasterGen = s.rasterGen := rfl
@[simp] theorem writeM_eventRing (m : Nat) (x : Lanes) (s : State) : (writeM m x s).eventRing = s.eventRing := rfl
@[simp] theorem writeM_eventNext (m : Nat) (x : Lanes) (s : State) : (writeM m x s).eventNext = s.eventNext := rfl
@[simp] theorem writeM_overflow (m : Nat) (x : Lanes) (s : State) : (writeM m x s).overflow = s.overflow := rfl
@[simp] theorem writeM_ecc (m : Nat) (x : Lanes) (s : State) : (writeM m x s).ecc = s.ecc := rfl
@[simp] theorem writeM_plat (m : Nat) (x : Lanes) (s : State) : (writeM m x s).plat = s.plat := rfl
@[simp] theorem writeM_out (m : Nat) (x : Lanes) (s : State) : (writeM m x s).out = s.out := rfl
@[simp] theorem writeM_now (m : Nat) (x : Lanes) (s : State) : (writeM m x s).now = s.now := rfl
@[simp] theorem writeM_slots (m : Nat) (x : Lanes) (s : State) : (writeM m x s).slots = s.slots := rfl
@[simp] theorem writeM_fresh (m : Nat) (x : Lanes) (s : State) : (writeM m x s).fresh = s.fresh := rfl
@[simp] theorem writeM_nextId (m : Nat) (x : Lanes) (s : State) : (writeM m x s).nextId = s.nextId := rfl
@[simp] theorem writeM_agenda (m : Nat) (x : Lanes) (s : State) : (writeM m x s).agenda = s.agenda := rfl
@[simp] theorem writeM_rota (m : Nat) (x : Lanes) (s : State) : (writeM m x s).rota = s.rota := rfl

/-! ## withWave -/

@[simp] theorem withWave_waves (g : Wave → Wave) (s : State) : (withWave g s).waves = s.waves := rfl
@[simp] theorem withWave_cohorts (g : Wave → Wave) (s : State) : (withWave g s).cohorts = s.cohorts := rfl
@[simp] theorem withWave_launches (g : Wave → Wave) (s : State) : (withWave g s).launches = s.launches := rfl
@[simp] theorem withWave_contexts (g : Wave → Wave) (s : State) : (withWave g s).contexts = s.contexts := rfl
@[simp] theorem withWave_q (g : Wave → Wave) (s : State) : (withWave g s).q = s.q := rfl
@[simp] theorem withWave_queues (g : Wave → Wave) (s : State) : (withWave g s).queues = s.queues := rfl
@[simp] theorem withWave_ready (g : Wave → Wave) (s : State) : (withWave g s).ready = s.ready := rfl
@[simp] theorem withWave_armed (g : Wave → Wave) (s : State) : (withWave g s).armed = s.armed := rfl
@[simp] theorem withWave_gens (g : Wave → Wave) (s : State) : (withWave g s).gens = s.gens := rfl
@[simp] theorem withWave_rr (g : Wave → Wave) (s : State) : (withWave g s).rr = s.rr := rfl
@[simp] theorem withWave_completions (g : Wave → Wave) (s : State) : (withWave g s).completions = s.completions := rfl
@[simp] theorem withWave_watches (g : Wave → Wave) (s : State) : (withWave g s).watches = s.watches := rfl
@[simp] theorem withWave_logs (g : Wave → Wave) (s : State) : (withWave g s).logs = s.logs := rfl
@[simp] theorem withWave_replay (g : Wave → Wave) (s : State) : (withWave g s).replay = s.replay := rfl
@[simp] theorem withWave_sectors (g : Wave → Wave) (s : State) : (withWave g s).sectors = s.sectors := rfl
@[simp] theorem withWave_mem (g : Wave → Wave) (s : State) : (withWave g s).mem = s.mem := rfl
@[simp] theorem withWave_poison (g : Wave → Wave) (s : State) : (withWave g s).poison = s.poison := rfl
@[simp] theorem withWave_scratch (g : Wave → Wave) (s : State) : (withWave g s).scratch = s.scratch := rfl
@[simp] theorem withWave_scratchFe (g : Wave → Wave) (s : State) : (withWave g s).scratchFe = s.scratchFe := rfl
@[simp] theorem withWave_scratchWait (g : Wave → Wave) (s : State) : (withWave g s).scratchWait = s.scratchWait := rfl
@[simp] theorem withWave_l1 (g : Wave → Wave) (s : State) : (withWave g s).l1 = s.l1 := rfl
@[simp] theorem withWave_updates (g : Wave → Wave) (s : State) : (withWave g s).updates = s.updates := rfl
@[simp] theorem withWave_pending (g : Wave → Wave) (s : State) : (withWave g s).pending = s.pending := rfl
@[simp] theorem withWave_tlb (g : Wave → Wave) (s : State) : (withWave g s).tlb = s.tlb := rfl
@[simp] theorem withWave_icache (g : Wave → Wave) (s : State) : (withWave g s).icache = s.icache := rfl
@[simp] theorem withWave_lines (g : Wave → Wave) (s : State) : (withWave g s).lines = s.lines := rfl
@[simp] theorem withWave_evicted (g : Wave → Wave) (s : State) : (withWave g s).evicted = s.evicted := rfl
@[simp] theorem withWave_keys (g : Wave → Wave) (s : State) : (withWave g s).keys = s.keys := rfl
@[simp] theorem withWave_faults (g : Wave → Wave) (s : State) : (withWave g s).faults = s.faults := rfl
@[simp] theorem withWave_faultBase (g : Wave → Wave) (s : State) : (withWave g s).faultBase = s.faultBase := rfl
@[simp] theorem withWave_st (g : Wave → Wave) (s : State) : (withWave g s).st = s.st := rfl
@[simp] theorem withWave_streams (g : Wave → Wave) (s : State) : (withWave g s).streams = s.streams := rfl
@[simp] theorem withWave_engine (g : Wave → Wave) (s : State) : (withWave g s).engine = s.engine := rfl
@[simp] theorem withWave_slotMem (g : Wave → Wave) (s : State) : (withWave g s).slotMem = s.slotMem := rfl
@[simp] theorem withWave_slotTag (g : Wave → Wave) (s : State) : (withWave g s).slotTag = s.slotTag := rfl
@[simp] theorem withWave_acc (g : Wave → Wave) (s : State) : (withWave g s).acc = s.acc := rfl
@[simp] theorem withWave_cmds (g : Wave → Wave) (s : State) : (withWave g s).cmds = s.cmds := rfl
@[simp] theorem withWave_cpdiag (g : Wave → Wave) (s : State) : (withWave g s).cpdiag = s.cpdiag := rfl
@[simp] theorem withWave_raster (g : Wave → Wave) (s : State) : (withWave g s).raster = s.raster := rfl
@[simp] theorem withWave_rasterGen (g : Wave → Wave) (s : State) : (withWave g s).rasterGen = s.rasterGen := rfl
@[simp] theorem withWave_eventRing (g : Wave → Wave) (s : State) : (withWave g s).eventRing = s.eventRing := rfl
@[simp] theorem withWave_eventNext (g : Wave → Wave) (s : State) : (withWave g s).eventNext = s.eventNext := rfl
@[simp] theorem withWave_overflow (g : Wave → Wave) (s : State) : (withWave g s).overflow = s.overflow := rfl
@[simp] theorem withWave_ecc (g : Wave → Wave) (s : State) : (withWave g s).ecc = s.ecc := rfl
@[simp] theorem withWave_plat (g : Wave → Wave) (s : State) : (withWave g s).plat = s.plat := rfl
@[simp] theorem withWave_out (g : Wave → Wave) (s : State) : (withWave g s).out = s.out := rfl
@[simp] theorem withWave_now (g : Wave → Wave) (s : State) : (withWave g s).now = s.now := rfl
@[simp] theorem withWave_slots (g : Wave → Wave) (s : State) : (withWave g s).slots = s.slots := rfl
@[simp] theorem withWave_fresh (g : Wave → Wave) (s : State) : (withWave g s).fresh = s.fresh := rfl
@[simp] theorem withWave_nextId (g : Wave → Wave) (s : State) : (withWave g s).nextId = s.nextId := rfl
@[simp] theorem withWave_agenda (g : Wave → Wave) (s : State) : (withWave g s).agenda = s.agenda := rfl
@[simp] theorem withWave_rota (g : Wave → Wave) (s : State) : (withWave g s).rota = s.rota := rfl

end Sys2Proof.Machine
end

