-- ==== Sys2Proof/Tests/Slice0.lean ====
section
/-!
SUPPORT. Tests of this model: the spec's own worked words and examples, the checks that refuse an ill-formed term, and,
for each statement of the certificates, states and operands that meet its hypotheses.
-/

namespace Sys2Proof.Tests

open Sys2Proof Sys2Proof.Machine Sys2Proof.Safety

/-! ## Decoding -/

/-- Whether words are read as an instruction, with nothing left. -/
def reads (ws : List Nat) (i : Instr) : Bool := match decodeBytes (ws.flatMap wordBytes) with
  | .ok (j, rest) => decide (j = i) && rest.isEmpty
  | .error _ => false
/-- The same of every row of a list. -/
def readAll (l : List (List Nat × Instr)) : Bool := l.all fun p => reads p.1 p.2
/-- Whether the words of the sequencer's stream are read as the instructions. -/
def streamAll (l : List (Nat × Instr)) : Bool := l.all fun p => match decodeStream p.1 with
  | .ok j => decide (j = p.2)
  | .error _ => false
/-- Whether the words of a queue program are read as the instructions. -/
def queueAll (l : List (List Nat × Instr)) : Bool := l.all fun p => match p.1 with
  | w :: rest => match decodeQueue w rest.head? with
    | .ok j => decide (j = p.2)
    | .error _ => false
  | [] => false

/-- R39, R44: a word of each float instruction, its fields at the places of its format. -/
theorem test_decode_float : readAll [
  ([0x24021200], .fadd ⟨18, 4, 16, 1, none⟩),
  ([0x24021201], .fsub ⟨18, 4, 16, 1, none⟩),
  ([0x24021202], .fmul ⟨18, 4, 16, 1, none⟩),
  ([0xA4021203, 0x00000000], .ffma ⟨18, 4, 16, 1, some { c := 0 }⟩),
  ([0x24021204], .fmin ⟨18, 4, 16, 1, none⟩),
  ([0x24021205], .fmax ⟨18, 4, 16, 1, none⟩),
  ([0x24021206], .fminp ⟨18, 4, 16, 1, none⟩),
  ([0x24021207], .fmaxp ⟨18, 4, 16, 1, none⟩),
  ([0x20021208], .frcp ⟨18, 4, 0, 1, none⟩),
  ([0x20021209], .frsq ⟨18, 4, 0, 1, none⟩),
  ([0x2002120A], .fsqrt ⟨18, 4, 0, 1, none⟩),
  ([0x2402120B], .fdiv ⟨18, 4, 16, 1, none⟩),
  ([0x2002120C], .fexp2 ⟨18, 4, 0, 1, none⟩),
  ([0x2002120D], .flog2 ⟨18, 4, 0, 1, none⟩),
  ([0x2002120E], .fsin ⟨18, 4, 0, 1, none⟩),
  ([0x2002120F], .fcos ⟨18, 4, 0, 1, none⟩),
  ([0x20021210], .frint ⟨18, 4, 0, 1, none⟩),
  ([0x20021211], .ffrac ⟨18, 4, 0, 1, none⟩),
  ([0x24021212], .fdot2 ⟨18, 4, 16, 1, none⟩),
  ([0x20021213], .fclass ⟨18, 4, 0, 1, none⟩),
  ([0x24021214], .fscale ⟨18, 4, 16, 1, none⟩),
  ([0x24021215], .fcmp ⟨18, 4, 16, 1, none⟩)] = true := by decide

/-- R39, R44: a word of each integer instruction, its fields at the places of its format. -/
theorem test_decode_integer : readAll [
  ([0x24021220], .iadd ⟨18, 4, 16, 1, none⟩),
  ([0x24021221], .isub ⟨18, 4, 16, 1, none⟩),
  ([0x24021222], .imul ⟨18, 4, 16, 1, none⟩),
  ([0x24021223], .imulh ⟨18, 4, 16, 1, none⟩),
  ([0xA4021224, 0x00000000], .imad ⟨18, 4, 16, 1, some { c := 0 }⟩),
  ([0x24021225], .imin ⟨18, 4, 16, 1, none⟩),
  ([0x24021226], .imax ⟨18, 4, 16, 1, none⟩),
  ([0x24021227], .idiv ⟨18, 4, 16, 1, none⟩),
  ([0x24021228], .irem ⟨18, 4, 16, 1, none⟩),
  ([0x24021229], .iand ⟨18, 4, 16, 1, none⟩),
  ([0x2402122A], .ior ⟨18, 4, 16, 1, none⟩),
  ([0x2402122B], .ixor ⟨18, 4, 16, 1, none⟩),
  ([0x0402122C], .shl ⟨18, 4, 16, 0, none⟩),
  ([0x2402122D], .shr ⟨18, 4, 16, 1, none⟩),
  ([0x2402122E], .rot ⟨18, 4, 16, 1, none⟩),
  ([0x2402122F], .bfe ⟨18, 4, 16, 1, none⟩),
  ([0x04021230], .bfi ⟨18, 4, 16, 0, none⟩),
  ([0x00021231], .popc ⟨18, 4, 0, 0, none⟩),
  ([0x00021232], .clz ⟨18, 4, 0, 0, none⟩),
  ([0x00021233], .brev ⟨18, 4, 0, 0, none⟩),
  ([0x24021234], .icmp ⟨18, 4, 16, 1, none⟩),
  ([0x24021235], .iadd64 ⟨18, 4, 16, 1, none⟩),
  ([0x24021236], .imadw ⟨18, 4, 16, 1, none⟩),
  ([0x04021237], .ihash ⟨18, 4, 16, 0, none⟩),
  ([0x24021238], .lea ⟨18, 4, 16, 1, none⟩),
  ([0x04021239], .sel ⟨18, 4, 16, 0, none⟩),
  ([0x2002123A], .mov ⟨18, 4, 0, 1, none⟩)] = true := by decide

/-- R39, R44: a word of each move instruction, its fields at the places of its format. -/
theorem test_decode_move : readAll [
  ([0x00401240, 0x12345678], .movi ⟨18, 0, 1, 0x12345678⟩),
  ([0x01421241], .iaddi ⟨18, 4, 5⟩),
  ([0x00421242, 0x12345678], .logi ⟨18, 4, 1, 0x12345678⟩),
  ([0x01421243], .icmpi ⟨18, 4, 5⟩),
  ([0x00021244, 0x00000100], .cvt ⟨18, 4, 0, 0x100⟩),
  ([0x24021245], .pack ⟨18, 4, 16, 1, none⟩),
  ([0x84021246, 0x00000000], .prmt ⟨18, 4, 16, 0, some { c := 0 }⟩),
  ([0x01401247], .sreg ⟨18, 0, 5⟩),
  ([0x01420048], .srset ⟨0, 4, 5⟩),
  ([0x24021249], .vxrd ⟨18, 4, 16, 1, none⟩),
  ([0x2402124A], .vxwr ⟨18, 4, 16, 1, none⟩),
  ([0x0402124B], .vmovs ⟨18, 4, 16, 0, none⟩),
  ([0x0402124C], .smovv ⟨18, 4, 16, 0, none⟩)] = true := by decide

/-- R39, R44: a word of each cross lane instruction, its fields at the places of its format. -/
theorem test_decode_cross_lane : readAll [
  ([0x24021250], .shfl ⟨18, 4, 16, 1, none⟩),
  ([0x20020051], .vote ⟨0, 4, 0, 1, none⟩),
  ([0x20021252], .redux ⟨18, 4, 0, 1, none⟩),
  ([0x20021253], .scanx ⟨18, 4, 0, 1, none⟩),
  ([0x20021254], .matchx ⟨18, 4, 0, 1, none⟩),
  ([0x00000055], .elect ⟨0, 0, 0, 0, none⟩),
  ([0x15421256], .salu ⟨18, 8, 20, 5⟩),
  ([0x00401257, 0x12345678], .smovi ⟨18, 0, 1, 0x12345678⟩),
  ([0x15420058], .scmp ⟨0, 8, 20, 5⟩)] = true := by decide

/-- R39, R44: a word of each memory instruction, its fields at the places of its format. -/
theorem test_decode_memory : readAll [
  ([0x20C21260], .ld ⟨18, 4, 3, 1, none⟩),
  ([0x20C21261], .st ⟨18, 4, 3, 1, none⟩),
  ([0x20C21262], .lds ⟨18, 4, 3, 1, none⟩),
  ([0x20C21263], .sts ⟨18, 4, 3, 1, none⟩),
  ([0x00C21264], .ldw ⟨18, 4, 3, 0, none⟩),
  ([0x00C21265], .ldc ⟨18, 4, 3, 0, none⟩),
  ([0x00C21266], .stf ⟨18, 4, 3, 0, none⟩),
  ([0x00C21267], .ldsw ⟨18, 4, 3, 0, none⟩),
  ([0x00C21268], .ldsc ⟨18, 4, 3, 0, none⟩),
  ([0x00C21269], .stsf ⟨18, 4, 3, 0, none⟩),
  ([0x20C2126A], .feset ⟨18, 4, 3, 1, none⟩),
  ([0x20C2126B], .feget ⟨18, 4, 3, 1, none⟩),
  ([0x20C2126C], .sld ⟨18, 4, 3, 1, none⟩),
  ([0x8000006D, 0x0000000C], .fence ⟨0, 0, 0, 0, some { scope := 4, order := 1 }⟩),
  ([0x0402126E], .bind ⟨18, 4, 16, 0, none⟩),
  ([0x0002126F], .unbind ⟨18, 4, 0, 0, none⟩),
  ([0x24021270], .waita ⟨18, 4, 16, 1, none⟩),
  ([0x00C20071], .cpin ⟨0, 4, 3, 0, none⟩),
  ([0x00C20072], .cunpin ⟨0, 4, 3, 0, none⟩),
  ([0x00C20073], .cwb ⟨0, 4, 3, 0, none⟩),
  ([0x00C20074], .cinv ⟨0, 4, 3, 0, none⟩),
  ([0x00C20075], .icinv ⟨0, 4, 3, 0, none⟩),
  ([0x00000076], .fetchbar ⟨0, 0, 0, 0⟩),
  ([0x20C20077], .pref ⟨0, 4, 3, 1, none⟩)] = true := by decide

/-- R39, R44: a word of each atomic instruction, its fields at the places of its format. -/
theorem test_decode_atomic : readAll [
  ([0xA4021280, 0x00001441], .atom ⟨18, 4, 16, 1, ⟨1, 0, 2, 5⟩⟩),
  ([0xA4021281, 0x00001441], .atomf ⟨18, 4, 16, 1, ⟨1, 0, 2, 5⟩⟩),
  ([0xA4021282, 0x00001441], .cas ⟨18, 4, 16, 1, ⟨1, 0, 2, 5⟩⟩),
  ([0xA4020083, 0x00001441], .red ⟨0, 4, 16, 1, ⟨1, 0, 2, 5⟩⟩),
  ([0xA4020084, 0x00001441], .redf ⟨0, 4, 16, 1, ⟨1, 0, 2, 5⟩⟩),
  ([0xA4020085, 0x00001401], .vismin ⟨0, 4, 16, 1, ⟨1, 0, 0, 5⟩⟩),
  ([0xA4021286, 0x00001441], .atoms ⟨18, 4, 16, 1, ⟨1, 0, 2, 5⟩⟩),
  ([0xA4021287, 0x00001441], .cass ⟨18, 4, 16, 1, ⟨1, 0, 2, 5⟩⟩)] = true := by decide

/-- R39, R44: a word of each control instruction, its fields at the places of its format. -/
theorem test_decode_control : readAll [
  ([0xFFFFCA90], .bra ⟨2, 1, 0xFFFFC⟩),
  ([0x00020091], .brx ⟨0, 4, 0, 0, none⟩),
  ([0x00001292, 0x12345678], .call ⟨18, 0, 0, 0x12345678⟩),
  ([0x00021293], .callx ⟨18, 4, 0, 0, none⟩),
  ([0x00020094], .ret ⟨0, 4, 0, 0, none⟩),
  ([0x00000A95], .exit ⟨2, 1, 0x0⟩),
  ([0x00000596], .join ⟨5, 0, 0, 0, 0⟩),
  ([0x00000597], .leave ⟨5, 0, 0, 0, 0⟩),
  ([0x00000598], .waitm ⟨5, 0, 0, 0, 0⟩),
  ([0x0C076599], .mset ⟨5, 6, 7, 0, 3⟩),
  ([0x0C07659A], .mtest ⟨5, 6, 7, 0, 3⟩),
  ([0x0000009B], .yield),
  ([0x0000009C], .nop),
  ([0x000ED19D], .wait ⟨1, 2, 3, 7⟩),
  ([0x0140009E], .trap ⟨0, 0, 5⟩),
  ([0x0000009F], .bkpt),
  ([0x140012A0], .bara ⟨18, 0, 0, 5⟩),
  ([0x140200A1], .barw ⟨0, 8, 0, 5⟩),
  ([0x140000A2], .bars ⟨0, 0, 0, 5⟩),
  ([0x140200A3], .barm ⟨0, 8, 0, 5⟩)] = true := by decide

/-- R39, R44: a word of each command instruction, its fields at the places of its format. -/
theorem test_decode_command : readAll [
  ([0x30508BA4, 0x01000400], .copy ⟨3, 1, 8, 20, 24, 0x400, 1⟩),
  ([0x240212A5], .cwait ⟨18, 4, 16, 1, none⟩),
  ([0x140000A6], .cseal ⟨0, 0, 0, 5⟩),
  ([0x140012A7], .cbwait ⟨18, 0, 0, 5⟩),
  ([0x30508BA8, 0x01000400], .layout ⟨3, 1, 8, 20, 24, 0x400, 1⟩),
  ([0x30508BA9, 0x01000400], .put ⟨3, 1, 8, 20, 24, 0x400, 1⟩),
  ([0x054200AA], .grow ⟨0, 8, 20, 1⟩),
  ([0x014200AB], .mfork ⟨0, 8, 20, 0⟩),
  ([0x000012AC], .mjoin ⟨18, 0, 0, 0⟩),
  ([0x000200AD], .vpush ⟨0, 4, 0, 0, none⟩),
  ([0x000012AE], .vpop ⟨18, 0, 0, 0, none⟩),
  ([0x040012AF], .vfree ⟨18, 0, 0, 1⟩)] = true := by decide

/-- R39, R44: a word of each texture instruction, its fields at the places of its format. -/
theorem test_decode_texture : readAll [
  ([0x240212B0], .tex ⟨18, 4, 16, 1, none⟩),
  ([0x240212B1], .texl ⟨18, 4, 16, 1, none⟩),
  ([0x240212B2], .texg ⟨18, 4, 16, 1, none⟩),
  ([0x240212B3], .tld ⟨18, 4, 16, 1, none⟩),
  ([0x240212B4], .tquery ⟨18, 4, 16, 1, none⟩),
  ([0x040212B5], .hgfetch ⟨18, 4, 16, 0, none⟩),
  ([0x040212B6], .hgscat ⟨18, 4, 16, 0, none⟩),
  ([0x240200B7], .hgsettle ⟨0, 4, 16, 1, none⟩)] = true := by decide

/-- R39, R44: a word of each raster ray instruction, its fields at the places of its format. -/
theorem test_decode_raster_ray : readAll [
  ([0x000212C0], .rast ⟨18, 4, 0, 0, none⟩),
  ([0xA40212C1, 0x00000000], .attr ⟨18, 4, 16, 1, some { c := 0 }⟩),
  ([0x000212C2], .flip ⟨18, 8, 0, 0⟩),
  ([0x154212C3], .triset ⟨18, 8, 20, 5⟩),
  ([0x040212D0], .rbox ⟨18, 4, 16, 0, none⟩),
  ([0x240212D1], .rtri ⟨18, 4, 16, 1, none⟩),
  ([0x040212D2], .rxfm ⟨18, 4, 16, 0, none⟩),
  ([0x200212D3], .rstkp ⟨18, 4, 0, 1, none⟩),
  ([0x240200D4], .rstko ⟨0, 4, 16, 1, none⟩),
  ([0x040200D5], .rtrail ⟨0, 4, 16, 0, none⟩)] = true := by decide

/-- R39, R44: a word of each system instruction, its fields at the places of its format. -/
theorem test_decode_system : readAll [
  ([0x140212E0], .vfork ⟨18, 8, 0, 5⟩),
  ([0x000212E1], .vcommit ⟨18, 8, 0, 0⟩),
  ([0x000212E2], .vsquash ⟨18, 8, 0, 0⟩),
  ([0x000200E3], .vset ⟨0, 8, 0, 0⟩),
  ([0x000212E4], .vquery ⟨18, 8, 0, 0⟩),
  ([0x014212E5], .vdeadl ⟨18, 8, 20, 0⟩),
  ([0x000000F0], .tret),
  ([0x014000F1], .sleep ⟨0, 0, 5⟩),
  ([0x014212F2], .pgreq ⟨18, 8, 20, 0⟩),
  ([0xFFFFC0F3], .rstlbl ⟨0, 0, 0xFFFFC⟩),
  ([0x014200F4], .event ⟨0, 8, 20, 0⟩)] = true := by decide

/-- The worked words of the spec (R45, R57, R120, R129, R168, R231, R249, R263, R315, R335, R354, R376). -/
theorem test_spec_words : readAll [
  ([0x00808300], .fadd ⟨3, 1, 2, 0, none⟩),
  ([0x80808403, 0x00000003], .ffma ⟨4, 1, 2, 0, some { c := 3 }⟩),
  ([0x04020860], .ld ⟨8, 4, 16, 0, none⟩),
  ([0x00840902], .fmul ⟨9, 8, 2, 0, none⟩),
  ([0xFFFFC190], .bra ⟨1, 0, 0xFFFFC⟩),
  ([0x80020860, 0x00100000], .ld ⟨8, 4, 0, 0, some { off24 := 0x1000 }⟩),
  ([0x81411115, 0x00011000], .fcmp ⟨17, 2, 5, 0, some { negb := true, bs := true }⟩),
  ([0x00020544, 0x00050930], .cvt ⟨5, 4, 0, 0x50930⟩),
  ([0x0244080B], .fdiv ⟨8, 8, 9, 0, none⟩),
  ([0x0001CE90], .bra ⟨6, 1, 28⟩),
  ([0x23C00B99], .mset ⟨11, 0, 0, 60, 8⟩),
  ([0x0000B69A], .mtest ⟨6, 11, 0, 0, 0⟩),
  ([0x8E5D004A, 0x00030000], .vxwr ⟨0, 58, 57, 0, some { as := true, bs := true }⟩),
  ([0x00030A61], .st ⟨10, 6, 0, 0, none⟩),
  ([0x00020073], .cwb ⟨0, 4, 0, 0, none⟩),
  ([0x00030075], .icinv ⟨0, 6, 0, 0, none⟩),
  ([0x00000076], .fetchbar ⟨0, 0, 0, 0⟩),
  ([0x00000140, 0x00000001], .movi ⟨1, 0, 0, 1⟩),
  ([0x80020A66, 0x00000004], .stf ⟨10, 4, 0, 0, some { scope := 4 }⟩),
  ([0x80020A65, 0x00000004], .ldc ⟨10, 4, 0, 0, some { scope := 4 }⟩),
  ([0x83040D80, 0x0000001C], .atom ⟨13, 8, 12, 0, ⟨4, 3, 0, 0⟩⟩),
  ([0x80070C61, 0x00000014], .st ⟨12, 14, 0, 0, some { scope := 4, order := 2 }⟩),
  ([0x04071170], .waita ⟨17, 14, 16, 0, none⟩),
  ([0x8000006D, 0x0000000C], .fence ⟨0, 0, 0, 0, some { scope := 4, order := 1 }⟩),
  ([0x282847A4, 0x02000800], .copy ⟨7, 0, 4, 10, 20, 0x800, 2⟩),
  ([0x325087A8, 0x01000400], .layout ⟨7, 0, 8, 20, 25, 0x400, 1⟩),
  ([0x002143AB], .mfork ⟨3, 5, 2, 0⟩),
  ([0x00000CAC], .mjoin ⟨12, 0, 0, 0⟩),
  ([0x04030AB5], .hgfetch ⟨10, 6, 16, 0, none⟩),
  ([0x04030CB6], .hgscat ⟨12, 6, 16, 0, none⟩),
  ([0x240200B7], .hgsettle ⟨0, 4, 16, 1, none⟩),
  ([0x004A08C0], .rast ⟨8, 20, 1, 0, none⟩),
  ([0xA28A0CC1, 0x00000016], .attr ⟨12, 20, 10, 1, some { c := 22 }⟩),
  ([0x210114C3], .triset ⟨20, 4, 16, 8⟩),
  ([0x05000CD1], .rtri ⟨12, 0, 20, 0, none⟩),
  ([0x050018D0], .rbox ⟨24, 0, 20, 0, none⟩),
  ([0x200C20D3], .rstkp ⟨32, 24, 0, 1, none⟩),
  ([0x261014D4], .rstko ⟨20, 32, 24, 1, none⟩),
  ([0x8F0008D2, 0x00000052], .rxfm ⟨8, 0, 60, 0, some { c := 82 }⟩),
  ([0x041014D5], .rtrail ⟨20, 32, 16, 0, none⟩),
  ([0x080146E0], .vfork ⟨6, 5, 0, 2⟩),
  ([0x000180E3], .vset ⟨0, 6, 0, 0⟩),
  ([0x00034FE1], .vcommit ⟨15, 13, 0, 0⟩),
  ([0x00051AC2], .flip ⟨26, 20, 0, 0⟩)] = true := by decide

/-- The stream words of R294's section, and a word of each other instruction, its fields at the places of R275. -/
theorem test_decode_stream : streamAll [
  (0x0080020C, .msetStream 2 0 0 0x100), (0x0020630C, .msetStream 3 2 1 64), (0x2000050C, .msetStream 5 0 0 0x4000),
  (0x00001801, .mclaim 0 0 3), (0x00000C01, .mclaim 0 1 1), (0x00880403, .mload 0 1 0 2 2 0),
  (0x00000404, .mzero 0 1), (0x00000809, .mbarw 0 1), (0x048D0003, .mload 0 0 4 3 2 1), (0x00020005, .mma 0 0 0 1),
  (0x0226A007, .mstore 0 0 5 3 1 1 0 0 0), (0x00003108, .mbara 1 6), (0x00000010, .mhalt), (0x00000100, .mnop 1),
  (0x00001902, .mrel 1 0 3), (0x00624506, .mmas 1 1 2 1 3), (0x0000050A, .mloop 1 2 0), (0x0000000B, .mend),
  (0xFFFE210D, .maddImm 1 2 0x7FFF), (0x0007210D, .maddReg 1 2 3), (0x00054D0E, .mact 1 3 2 5),
  (0x001FED0F, .mscale 1 3 255)] = true := by decide

/-- The program of R443's section, and a word of each other instruction, its fields at the places of R386. -/
theorem test_decode_queue : queueAll [
  ([0x22800101], .qpld 1 40 1), ([0x00000201], .qpld 2 0 0), ([0x00000310, 0x0000FFFF], .qli 3 0xFFFF),
  ([0x0003240A], .qand 4 2 3), ([0x0006250E], .qshr 5 2 6), ([0x00040002], .qpst 4 0 0),
  ([0x228F0002], .qpst 15 40 1), ([0x00305019], .qbnz 5 3), ([0x00000020], .qlaunch), ([0x00000024], .qdone),
  ([0x20051021], .qdepset 1 5 0 0), ([0x60802103], .qwld 1 2 8 1 1), ([0x80832004], .qwst 2 3 8 0 2),
  ([0xC0832105], .qwadd 1 2 3 8 3), ([0x00032108], .qadd 1 2 3), ([0x00032109], .qsub 1 2 3),
  ([0x0003210B], .qor 1 2 3), ([0x0003210C], .qxor 1 2 3), ([0x0003210D], .qshl 1 2 3), ([0xFFF0210F], .qaddi 1 2 0xFFF),
  ([0x00000211, 0x89ABCDEF], .qlih 2 0x89ABCDEF), ([0x00532112], .qcmp 1 2 3 5), ([0x00302018], .qbz 2 3),
  ([0x0030001A], .qjmp 3), ([0x0400201B], .qloop 2 64), ([0x0000001C], .qendl), ([0x60802022], .qdepdec 2 8 1),
  ([0x00002023], .qsignal 2), ([0x00000025], .qretry), ([0xFFF00026], .qfault 0xFFF)] = true := by decide

/-- The header of R45's example, and each check of R32. -/
theorem test_decode_header :
    readHeader 0xB12FF803 = ⟨3, 0, false, 0, 7, 7, 7, 2, false, true⟩ ∧ headerFault 0xB12FF803 = none ∧
    headerFault 0xA0000001 = some .beyond ∧ headerFault 0xB0000000 = some .beyond ∧
    headerFault 0xB2000001 = some .rsvdField ∧ headerFault 0xB0200001 = some .beyond ∧
    decodeTableWord 32 0xB0000091 = some (.clauseHeader 0xB0000091) := by decide

/-! ## Well-formedness: an ill-formed term for each check -/

theorem test_wf_field_too_wide : ¬WellFormed (.fadd ⟨128, 0, 0, 0, none⟩) := by decide
theorem test_wf_imm_too_wide : ¬WellFormed (.iaddi ⟨1, 0, 1024⟩) := by decide
theorem test_wf_ext_missing : ¬WellFormed (.ffma ⟨1, 0, 0, 0, none⟩) := by decide
theorem test_wf_reserved_field : ¬WellFormed (.popc ⟨1, 0, 0, 0, some { c := 4 }⟩) := by decide
theorem test_wf_odd_pair : ¬WellFormed (.iadd64 ⟨3, 0, 0, 0, none⟩) := by decide
theorem test_wf_mask_range : ¬WellFormed (.join ⟨12, 0, 0, 0, 0⟩) := by decide
theorem test_wf_scalar_range : ¬WellFormed (.smovv ⟨1, 64, 0, 1, none⟩) := by decide
theorem test_wf_stream_field : ¬WellFormed (.mload 4 0 0 0 0 0) := by decide
theorem test_wf_queue_field : ¬WellFormed (.qpld 0 61 0) := by decide
theorem test_wf_good : WellFormed (.fadd ⟨3, 1, 2, 0, none⟩) ∧ WellFormed (.qpld 0 60 0) := by decide

/-! ## Witnesses

States that the hypotheses of the statements hold in. Each theorem names its statement. -/

/-- A test of every ACTIVE lane is a test of the 64 lanes. -/
theorem forall_active {s : State} {P : Nat → Prop} (h : ∀ l, l < 64 → Active s l → P l) : ∀ l, Active s l → P l := by
  intro l hl
  by_cases h64 : l < 64
  · exact h l h64 hl
  · rw [Active, BitVec.getLsbD_of_ge _ _ (Nat.le_of_not_lt h64)] at hl
    cases hl

/-- A clause whose first word is being executed, with one more word to run. -/
def clauseAt (active : Lanes) : Clause :=
  { hdr := 0x1000, head := 0xB00FFF02, words := [0, 0], idx := 1, at_ := 0, issue := active, active := active }
/-- A wave of width 8 with a set of lanes ACTIVE. -/
def waveOf (active : Lanes) : Wave :=
  { on := true, id := 5, cohort := 7, width := 8, nregs := 128, clause := some (clauseAt active) }
/-- A state whose focused wave has lanes 0 and 1 ACTIVE. -/
def twoLanes : State := { w := waveOf 3 }
/-- The same with no lane ACTIVE. -/
def noLanes : State := { w := waveOf 0 }
/-- The same with lane 0 ACTIVE. -/
def oneLane : State := { w := waveOf 1 }

theorem quiet_two : Quiet twoLanes := by
  have h : ∀ n, n < 10 → 5 ≤ n → twoLanes.w.fpmode.getLsbD n = false := by decide
  exact fun n h5 h10 => h n h10 h5

/-- Enabled exceptions: none; one that an ACTIVE lane raises; one of a later place in the order, with the first not raised. -/
theorem witness_floating_point : (127 < 128 ∧ Quiet twoLanes ∧ Active twoLanes 1) ∧
    (let s : State := { w := { waveOf 3 with fpmode := 0x21 } }
     s.w.fpmode.getLsbD 5 = true ∧ Active s 1 ∧
     (arith s.w.fpmode ⟨3, 1, 2, 0, none⟩ 2 opDiv 0 0 0).2.getLsbD 0 = true) ∧
    (let s : State := { w := { waveOf 3 with fpmode := 0x61 } }
     s.w.fpmode.getLsbD 6 = true ∧ s.w.fpmode.getLsbD 5 = true ∧ Active s 0 ∧
     (arith s.w.fpmode ⟨3, 1, 2, 0, none⟩ 2 opDiv 0x3F800000 0 0).2.getLsbD 1 = true ∧
     (arith s.w.fpmode ⟨3, 1, 2, 0, none⟩ 2 opDiv 0x3F800000 0 0).2.getLsbD 0 = false) :=
  ⟨⟨by decide, quiet_two, by decide⟩, by decide, by decide⟩

/-- Numbers and their magnitudes, exact and marked; the values that the clauses on functions ask for; and results below,
above and within the range of a format, each by hand from R57 and R61 to R65. -/
theorem witness_float_values :
    (Denotes ⟨false, 3, -1, false⟩ (3 / 2) ∧ Denotes ⟨true, 2 ^ 25, 0, true⟩ (2 ^ 25 + 1 / 2) ∧ (0 : Int) < 1) ∧
    (ratOf true 3 0 = ((-3 : Int) : Rat) ∧ ratOf false 1 (-3) = 2 ^ (-3 : Int) ∧ 4 * ratOf false 3 (-2) = ((3 : Int) : Rat)) ∧
    (FFmt.f32.read 0x3F800000 = .fin false (2 ^ 23) (-23) ∧ FFmt.f16.read 0x8000 = .fin true 0 (-24) ∧
      FFmt.f32.isNan 0x7F800001 = true ∧ FFmt.f32.isNan 0x7F800000 = false) ∧
    (FFmt.f32.deliver 1 false false ⟨true, 1, 128, false⟩ = (0xFF800000, .ovf ||| .inx) ∧
      FFmt.f32.deliver 1 false false ⟨false, 1, 127, false⟩ = (0x7F000000, 0) ∧
      FFmt.f32.deliver 1 false true ⟨false, 1, -149, false⟩ = (0, .unf ||| .inx) ∧
      FFmt.f32.deliver 1 false false ⟨false, 1, -149, false⟩ = (1, 0)) ∧
    (deliverInt 8 1 ⟨true, 1, 0, false⟩ = (0, .inv) ∧ deliverInt 8 1 ⟨false, 256, 0, false⟩ = (255, .inv) ∧
      deliverInt 8 1 ⟨false, 255, 0, false⟩ = (255, 0)) ∧
    (deliverE8 1 false ⟨false, 1, -128, false⟩ = (0, .unf ||| .inx) ∧ deliverE8 1 false ⟨false, 1, 128, false⟩ = (0xFF, .ovf ||| .inx) ∧
      deliverE8 1 false ⟨false, 1, 127, false⟩ = (0xFE, 0)) := by
  refine ⟨⟨?_, ?_, by decide⟩, ⟨?_, ?_, ?_⟩, by decide, by decide +kernel, by decide +kernel, by decide +kernel⟩ <;>
    simp only [Denotes, ratOf] <;> decide +kernel

/-- Comparisons: of 64 and of 32 bits; FCMP of a signalling NaN with the invalid exception enabled. -/
theorem witness_comparisons : (0 : Nat) ≠ 1 ∧ Active twoLanes 0 ∧
    (let s : State := { w := { waveOf 3 with fpmode := 0x21 } }
     s.w.fpmode.getLsbD 5 = true ∧ Active s 0 ∧ (fcmpOp s.w.fpmode ⟨0, 1, 2, 0, none⟩ 0x7F800001 0).2.getLsbD 0 = true) := by
  decide

theorem witness_integers : (127 < 128 ∧ Active twoLanes 0 ∧ Active twoLanes 1) ∧
    (let s : State := { w := { waveOf 3 with v := [(1, 7), (2, 2), (129, 7)] } }
     Active s 1 ∧ s.w.vreg 1 2 = 0 ∧ Active s 0 ∧ s.w.vreg 0 2 ≠ 0) := by decide

/-- VXRD and VXWR: a register in range and even; one at the first number out of range, and an odd one. -/
theorem witness_moves : (126 + 1 < 128 ∧ 127 < 128 ∧ Active twoLanes 0 ∧ twoLanes.w.nregs ≤ 128 ∧ twoLanes.w.nregs % 2 = 0) ∧
    (let f : V3 := ⟨126, 126, 5, 1, none⟩
     (BitVec.ofNat 32 f.a + twoLanes.w.srcB f 0).toNat < twoLanes.w.nregs ∧
     (BitVec.ofNat 32 f.a + twoLanes.w.srcB f 0).toNat % 2 = 0) ∧
    (let f : V3 := ⟨127, 127, 5, 0, none⟩
     let s : State := { w := { waveOf 1 with v := [(5, 1)] } }
     Active s 0 ∧ s.w.nregs ≤ (BitVec.ofNat 32 f.a + s.w.srcB f 0).toNat) ∧
    (let f : V3 := ⟨127, 127, 5, 1, none⟩
     Active oneLane 0 ∧ (BitVec.ofNat 32 f.a + oneLane.w.srcB f 0).toNat % 2 = 1) := by decide

theorem witness_scalars : (∀ k, k < 1 → ¬Active { w := waveOf 6 } k) ∧ Active { w := waveOf 6 } 1 ∧
    twoLanes.w.active ≠ 0 ∧ noLanes.w.active = 0 := by decide

theorem witness_special_registers : twoLanes.w.active ≠ 0 ∧ 127 < 128 ∧
    (let v : Word := { w := { waveOf 3 with s := [(4, 5)] } : State }.w.sreg 4; 1 ≤ v.toNat % 8 ∧ v.toNat % 8 ≤ 5) ∧
    (let v : Word := { w := { waveOf 3 with s := [(4, 6)] } : State }.w.sreg 4; 5 < v.toNat % 8) := by decide

/-- Cross-lane: no member mask, and one that names lane 0 only. -/
theorem witness_cross_lane : NoSelfOmission ⟨18, 4, 16, 0, none⟩ twoLanes ∧
    (let f : V3 := ⟨18, 4, 16, 0, some { c := 2 }⟩
     let s : State := { w := { waveOf 3 with m := [(2, 1)] } }
     Active s 1 ∧ ¬Member f s 1 ∧ Participates f s 0) ∧
    NoSelfOmission ⟨18, 4, 16, 0, some { c := 15 }⟩ twoLanes := by
  refine ⟨fun _ h => h, ?_, fun _ h => h⟩
  simp only [Member, Participates, Active]
  decide

/-- Reductions: the lanes that take part; an enabled overflow that the floating-point sum of two lanes raises. -/
theorem witness_reductions : (∀ l, l < 64 → ((3 : Lanes).getLsbD l = true ↔
    Active twoLanes l ∧ l < twoLanes.w.width ∧ twoLanes.w.exited.getLsbD l = false)) ∧ (7 : Nat) < 8 ∧ (8 : Nat) ≤ 8 ∧
    (let f : V3 := ⟨3, 1, 8, 0, none⟩
     let s : State := { w := { waveOf 3 with fpmode := 0x81, v := [(1, 0x7F7FFFFF), (129, 0x7F7FFFFF)] } }
     s.w.fpmode.getLsbD 7 = true ∧ s.w.fpmode.getLsbD 5 = false ∧ s.w.fpmode.getLsbD 6 = false ∧
     (reduxValue s.w f).2.getLsbD 2 = true ∧ (scanValue s.w f 1).2.getLsbD 2 = true ∧ Active s 1) := by decide +kernel

/-- Transfers: the fall-through target, an aligned one, one past 2^52, a misaligned one; a lane at its loop's PC, with a
fourth branch due and after a change; BRA back to its header and to a bad target, CALL to a bad one. -/
theorem witness_transfers : twoLanes.w.clause = some (clauseAt 3) ∧
    GoodTarget 0x100C 0x100C ∧ GoodTarget 0x100C 0xFFFFFFFFFFFFC ∧ ¬GoodTarget 0x100C 0x10000000000000 ∧
    ¬GoodTarget 0x100C 0x1002 ∧
    (let w : Wave := { waveOf 3 with loopPc := [(1, 0x2001)], spin := [(1, 3)] }
     SMap.get 0 w.loopPc 1 = (0x2000 : DWord).toNat + 1 ∧ w.changed.getLsbD 1 = false ∧ w.stored.getLsbD 1 = false ∧
     SMap.get 0 w.spin 1 = 3 ∧ ({ w with changed := 2 } : Wave).changed.getLsbD 1 = true) ∧
    (let s : State := { w := { waveOf 3 with loopPc := [(0, 0x1005)], p := [(2, 2)] } }
     GoodTarget 0x100C ((0x1000 : DWord) + (BitVec.ofNat 20 0).signExtend 64 * 4) ∧ s.w.pred 2 1 = true ∧ s.w.pred 2 0 = false ∧
     ((0x1000 : DWord) + (BitVec.ofNat 20 0).signExtend 64 * 4).toNat ≤ (0x1000 : DWord).toNat ∧
     SMap.get 0 s.w.loopPc 0 = s.w.wordPc.toNat + 1) ∧
    (let s : State := { w := { waveOf 3 with clause := some { clauseAt 3 with hdr := 0xFFFFFFFFFFFF0 } } }
     s.w.active ≠ 0 ∧ (∃ l, Active s l ∧ s.w.pred 0 l = false) ∧
     ¬GoodTarget 0xFFFFFFFFFFFFC ((0xFFFFFFFFFFFF0 : DWord) + (BitVec.ofNat 20 4).signExtend 64 * 4)) ∧
    ¬GoodTarget 0x100C ((0x1000 : DWord) + (BitVec.ofNat 32 2).signExtend 64) := by
  refine ⟨rfl, .inl rfl, .inr (by decide), ?_, ?_, by decide, ⟨.inr (by decide), by decide⟩, ⟨by decide, ⟨0, by decide⟩, ?_⟩, ?_⟩ <;>
    simp [GoodTarget]

/-- EXIT: lane 0 exits and lane 2, which is not ACTIVE, stays; the last two lanes of a wave of which a cohort has two, or
one, with operations left or none; in a handler, with a handler lane left, with one that waits after TRET, and at the end that a header
trap left. -/
theorem witness_exit :
    (let s : State := { w := { waveOf 3 with p := [(2, 1)] }, cohorts := [Machine.seatCohort 7] }
     s.w.handler = false ∧ s.w.parks = [] ∧
     (Active s 0 ∧ 0 < s.w.width ∧ s.w.exited.getLsbD 0 = false ∧ s.w.pred 2 0 = true) ∧
     (2 < s.w.width ∧ s.w.exited.getLsbD 2 = false ∧ ¬Active s 2) ∧ (s.cohort 7).isSome = true) ∧
    (let s : State := { w := { waveOf 3 with p := [(2, 3)], exited := 0xFC }, cohorts := [{ Machine.seatCohort 7 with waves := 2 }] }
     s.w.late = [] ∧ s.w.on = true ∧ s.w.ended = false ∧ s.w.ops = [] ∧
     (∀ l, l < 64 → l < s.w.width → s.w.exited.getLsbD l = true ∨
       (Active s l ∧ l < s.w.width ∧ s.w.exited.getLsbD l = false ∧ s.w.pred 2 l = true)) ∧
     s.cohort s.w.cohort = some { Machine.seatCohort 7 with waves := 2 } ∧ 1 < 2 ∧ (Machine.seatCohort 7).waves = 1 ∧ s.st.on = false ∧
     s.streams = [] ∧ s.engine = []) ∧
    (let f := fun (lanes tret : Lanes) (r : Resume) => ({ w := { waveOf 1 with
       p := [(2, 1)], handler := true, handlerLanes := lanes, tret := tret, resume := r } } : State)
     let left := fun (s : State) (l : Nat) => s.w.handlerLanes.getLsbD l && !s.w.tret.getLsbD l &&
       !(s.w.exited.getLsbD l || (s.w.active.getLsbD l && decide (l < s.w.width) && s.w.pred 2 l))
     left (f 3 0 (.next 0x100C)) 1 = true ∧ (∀ l, l < 64 → left (f 3 2 (.next 0x100C)) l = false) ∧
     (f 3 2 (.next 0x100C)).w.tret.getLsbD 1 = true ∧ (f 3 2 (.next 0x100C)).w.parkHeld = [] ∧
     (∀ l, l < 64 → left (f 3 2 .ends) l = false) ∧ ¬Active (f 3 2 .ends) 2 ∧ (f 3 2 .ends).w.tret.getLsbD 2 = false) := by decide

/-- WAITM with every ACTIVE lane in its mask, and with lane 1 left out; a release when lanes 0 and 1 wait on m2. -/
theorem witness_masks :
    (let s : State := { w := { waveOf 3 with m := [(2, 3)] } }
     (∀ l, l < 64 → Active s l → (s.w.mreg 2).getLsbD l = true) ∧ s.w.active ≠ 0) ∧
    (let s : State := { w := { waveOf 3 with m := [(2, 1)] } }
     Active s 1 ∧ (s.w.mreg 2).getLsbD 1 = false) ∧
    (let w : Wave := { waveOf 0 with waitOn := [(0, 3), (1, 3)], parked := 3 }
     (∀ l, l < w.width → ((w.setM 2 3).mreg 2).getLsbD l = true → w.exited.getLsbD l = false →
       l < 64 ∧ SMap.get 0 w.waitOn l = 3) ∧
     ((w.setM 2 7).mreg 2).getLsbD 2 = true ∧ SMap.get 0 w.waitOn 2 ≠ 3) := by decide

/-- Waits: fields met and one that is not; a sleep that is over; a yield that time has ended, one that waits for wave 6,
and one that passes time. -/
theorem witness_waits :
    (let s : State := { w := { waveOf 1 with hold := .sleep 32 }, now := 32 }
     s.w.hold = .sleep 32 ∧ s.w.clause = some (clauseAt 1) ∧ (clauseAt 1).idx < (clauseAt 1).words.length ∧ 32 ≤ s.now) ∧
    (let s : State := { w := { waveOf 1 with hold := .yield [6] 1 } }
     s.w.hold = .yield [6] 1 ∧ s.w.clause = some (clauseAt 1) ∧ ([6] : List Nat) ≠ [] ∧ (1 : Nat) ≠ 0 ∧
     s.w.passYield 2 1700 = { s.w with hold := .yield [6] 0 }) ∧
    (let s : State := { w := { waveOf 1 with hold := .yield [] 9 } }
     s.w.hold = .yield [] 9 ∧ s.w.clause = some (clauseAt 1)) := by decide

/-- The state after an instruction. -/
def after (i : Instr) (s : State) : State := match exec i s with
  | .next t => t
  | _ => s

/-- SLEEP and YIELD whose word was the last of its clause. -/
theorem witness_last_waits :
    let c := { clauseAt 1 with idx := 5 }
    c.words.length ≤ c.idx ∧
    (let s : State := { w := { waveOf 1 with hold := .sleep 32, clause := some c }, now := 32 }
     s.w.clause = some c ∧ s.w.hold = .sleep 32 ∧ 32 ≤ s.now ∧ s.w.parkAtEnd = []) ∧
    (let s : State := { w := { waveOf 1 with hold := .yield [] 9, clause := some c } }
     s.w.clause = some c ∧ s.w.hold = .yield [] 9) ∧
    (let s : State := { w := { waveOf 1 with hold := .yield [6] 1, clause := some c } }
     s.w.hold = .yield [6] 1 ∧ ([6] : List Nat) ≠ [] ∧ (1 : Nat) ≠ 0) := by decide

/-- The trap statements: a launch with a handler, one without, a header trap, a late trap. -/
def trapState (handler : Bool) (traph : Option DWord) : State :=
  { w := { waveOf 3 with handler := handler }, cohorts := [Machine.seatCohort 7]
    launches := [{ Machine.seatLaunch 7 with kernel := { Machine.seatKernel with traph := traph } }] }

theorem witness_traps :
    ((trapState false (some 0)).w.handler = false ∧ ((trapState false (some 0)).myLaunch.map (·.kernel.traph)) = some (some 0) ∧
      (trapState false (some 0)).w.clause = some (clauseAt 3)) ∧
    ((trapState true (some 0x2000)).w.handler = true ∧ (trapState true (some 0x2000)).myLaunch.isSome = true ∧
      (trapState true (some 0x2000)).myCohort.isSome = true) ∧
    ((trapState false none).myLaunch.map (·.kernel.traph)) = some none ∧
    (let x : LateTrap := { cause := .memEcc, mask := 6, pc := 0x1004, word := 0, dst := 0, addr := 8 }
     let s : State := { trapState false (some 0x2000) with w := { waveOf 3 with clause := none, late := [x] } }
     s.w.on = true ∧ s.w.ended = false ∧ s.w.late = [x] ∧ x.mask &&& s.w.live ≠ 0) := by decide

/-- TRET: a handler lane left; none left, with each resume point, and a lane that has not exited and does not leave. -/
theorem witness_return :
    (let s : State := { w := { waveOf 1 with handler := true, handlerLanes := 3 } }
     s.w.active ≠ 0 ∧ s.w.handlerLanes &&& ~~~(s.w.tret ||| s.w.active) &&& ~~~s.w.exited ≠ 0) ∧
    (let f := fun (r : Resume) => ({ w := { waveOf 1 with handler := true, handlerLanes := 3, tret := 2, resume := r } } : State)
     let left := fun (s : State) => s.w.handlerLanes &&& ~~~(s.w.tret ||| s.w.active) &&& ~~~s.w.exited
     let back := fun (s : State) => (s.w.tret ||| s.w.active) &&& ~~~s.w.exited
     (left (f (.next 0x100C)) = 0 ∧ back (f (.next 0x100C)) ≠ 0 ∧ (f (.next 0x100C)).w.parkHeld = []) ∧
     left (f (.clause (clauseAt 3))) = 0 ∧ left (f .perLane) = 0 ∧ back (f .perLane) = 3 ∧
     (left (f .ends) = 0 ∧ (f .ends).w.parks = [] ∧ (∀ l, l < 64 → (back (f .ends)).getLsbD l = true → l < (f .ends).w.width) ∧
       (f .ends).w.exited.getLsbD 2 = false ∧ (back (f .ends)).getLsbD 2 = false)) := by decide

/-- A barrier that two lanes fill, one that they overfill, and one whose token is old. -/
def barState (expected arrived : Nat) (ops : List Op) : State :=
  { w := { waveOf 3 with ops := ops, s := [(4, 2)] }
    cohorts := [{ Machine.seatCohort 7 with bars := List.replicate 8 ⟨false, expected, arrived, 1⟩ }] }

/-- A load of one lane that has not been performed. -/
def oneLoad : Op :=
  { ctr := 0, i := .ld ⟨10, 4, 0, 0, none⟩, pc := 0x1004, word := 0, lanes := 1, src := [(0, [0x10000, 0])]
    pages := [(0, ⟨0x20000, 16, true, true, false, 0, false, true, false, 0, 0⟩)], version := 0, act := 1 }

theorem witness_barriers :
    ((barState 4 2 []).barrier 7 = some ⟨false, 4, 2, 1⟩ ∧ (barState 4 2 []).w.active ≠ 0 ∧ 2 + (lanesOf 3).length ≤ 4 ∧
      (barState 4 2 []).pending = [] ∧ (barState 4 2 []).updates = [] ∧
      (let u := releaseNow 2 {} (barState 4 2 []); u.cohorts = (barState 4 2 []).cohorts ∧ u.w = (barState 4 2 []).w)) ∧
    2 + (lanesOf 3).length < 5 ∧ 3 < 2 + (lanesOf (barState 3 2 []).w.active).length ∧
    (∃ o ∈ (barState 4 2 [oneLoad]).w.ops, o.perf ≠ o.lanes ∧ o.ctr ≠ 2) ∧
    ((1 : Word) = ({ w := { waveOf 3 with s := [(4, 1)] } : State }).w.sreg 4 ∧ (1 : Word) ≠ (barState 4 2 []).w.sreg 4) ∧
    (2 ≤ 1048575 ∧ 1048575 < (({ w := { waveOf 3 with s := [(4, 1048576)] } : State }).w.sreg 4).toNat) := by decide

/-- The cohort's instructions: a grid and a pool, a speculative wave, contexts with and without the power right; the log
entry of an earlier instruction, which enters after one of a later event. -/
theorem witness_cohort_instructions :
    (let s := trapState false none
     s.myLaunch.isSome = true ∧ s.w.active ≠ 0 ∧ s.w.version = 0 ∧ s.myCohort.isSome = true ∧
     (let u := releaseNow 4 {} s; u.w = s.w ∧ u.launches = s.launches)) ∧
    (let s : State := { trapState false none with
       w := { waveOf 3 with version := 2 }
       contexts := [{ Machine.seatContext with tags := [(2, { state := 1 })], pwr := false }] }
     s.w.version ≠ 0 ∧ live s s.w.ctx s.w.version = true ∧ logUsed s s.w.ctx < 2 ^ 8 ∧ (∀ e ∈ s.logs, e.num < s.nextId) ∧
     ((s.context s.w.ctx).map Context.pwr).getD false = false) ∧
    (let e : LogEntry := ⟨0, 2, .st ⟨10, 4, 0, 0, none⟩, 0, [7], 0, 0, 0, 1, false, 5, 3⟩
     let s : State := { contexts := [{ Machine.seatContext with tags := [(2, { state := 1 })] }]
                        logs := [⟨0, 2, .event ⟨0, 8, 20, 0⟩, 0, [7, 7, 7], 0, 0, 0, 1, false, 5, 4⟩] }
     live s e.ctx e.tag = true ∧ logUsed s e.ctx + e.recs ≤ 2 ^ 8 ∧ (logEntry e s).logs = e :: s.logs) ∧
    (let s : State := { trapState false none with contexts := [Machine.seatContext], w := { waveOf 3 with s := [(4, 32)] } }
     ((s.context s.w.ctx).map Context.pwr).getD false = true ∧
     (powerRequest (s.w.sreg 4).toNat (s.w.sreg 6).toNat (holdsForeign s s.w.ctx) s).2.w = s.w) ∧
    ((2 ^ 32 - 1 : Nat) < 1 + 4294967295 ∧ 0 + 4294967295 ≤ 2 ^ 32 - 1) := by decide

/-- Nothing is set in an empty memory. -/
theorem nobit (c : Nat × Nat) : readBit [] c = false := BitVec.getLsbD_zero

/-- A place in a machine whose memory lists nothing, holds no error and has nothing on its way, is calm. -/
theorem calm_of {s : State} {pa n : Nat} (hm : s.mem = []) (hp : s.pending = []) (hu : s.updates = []) (hl : s.l1 = [])
    (hq : s.poison = []) (he : s.ecc = []) (h : pa % 128 + n ≤ 128) (e : pa + n ≤ 0x1F00000000) : Calm s pa n := by
  refine ⟨hp, hu, hl, ?_, ?_, ?_, h, e⟩ <;> simp [*, nobit]

/-- A page that a TLB entry maps to 0x20000, with every permission. -/
def page (cache : Nat) (fe ver : Bool) : Leaf := ⟨0x20000, 16, true, true, false, cache, false, fe, ver, 0, 0⟩
/-- The same page where virtual and physical addresses agree. -/
def flat (cache : Nat) : Leaf := { page cache true false with pa := 0x10000 }
/-- The TLB entry of core 0 for the page at 0x10000. -/
def tlbOf (l : Leaf) : List TlbEntry := [{ core := 0, ctx := 0, vpn := 1, leaf := l }]
/-- A state whose focused wave, in a resident cohort, has some lanes ACTIVE, each with the address 0x10000 + 8 × lane in
v4, v5 and the scratch offset 8 × lane in v6. -/
def memState (active : Lanes) (l : Leaf) : State :=
  { w := { waveOf active with v := [(4, 0x10000), (132, 0x10008), (134, 8)] }, tlb := tlbOf l
    cohorts := [Machine.seatCohort 7], launches := [Machine.seatLaunch 7], contexts := [Machine.seatContext] }
/-- The cell that scratch offset 0 of that cohort names. -/
def cell0 : Nat := 7 * 2 ^ 28

/-- Counted accesses: every lane passes, one lane fails (lane 1, misaligned for 16 bytes), scratch; the lowest lane of
SLD. -/
theorem witness_accesses :
    (let s := memState 3 (page 0 false false)
     let f : MF := ⟨10, 4, 0, 0, none⟩
     s.w.active ≠ 0 ∧ (∀ l, l < 64 → Active s l → (match checkGlobal s { need := { r := true } } f.bytes
       (globalAddr s.w f.a (f.offset (offUnit f.bytes)) l) with | .ok _ => true | _ => false) = true)) ∧
    (let s := memState 3 (page 0 false false)
     let f : MF := ⟨10, 4, 0, 2, none⟩
     let at_ := globalAddr s.w f.a (f.offset (offUnit f.bytes))
     Active s 1 ∧ (match checkGlobal s { need := { r := true } } f.bytes (at_ 1) with | .trap .memAlign => true | _ => false) = true ∧
       (match checkGlobal s { need := { r := true } } f.bytes (at_ 0) with | .ok _ => true | _ => false) = true) ∧
    (let s := memState 3 (page 0 false false)
     let f : MF := ⟨10, 6, 0, 1, none⟩
     ∀ l, l < 64 → Active s l → (match checkScratch s f.bytes (scratchOff s.w f.a (f.offset 8) l) with
       | .ok _ => true | _ => false) = true) ∧
    (let s := memState 2 (page 0 false false)
     Active s 1 ∧ ∀ k, k < 1 → ¬Active s k) := by decide

/-- The walk of R171's example: indices 1, 1, 1 and 3, the leaf at 0x23450000. -/
def walkState : State :=
  { w := waveOf 1, contexts := [{ Machine.seatContext with ptroot := 0x1000 }]
    mem := writeMem (writeMem (writeMem (writeMem [] (0x1000 + 8) 8 0x2001) (0x2000 + 8) 8 0x3001) (0x3000 + 8) 8 0x4001)
      (0x4000 + 24) 8 0x000000002345020F }

/-- A walk through four levels; a missing level 3, a missing level 2, a malformed level 3; leaves of 1 GiB and of 2 MiB. -/
theorem witness_walk :
    (let s := walkState
     let va := 0x0000008040234568
     s.w.refused = none ∧ va % 8 = 0 ∧ va < 2 ^ 52 ∧ tlbHit s s.w.core s.w.ctx va = none ∧ s.updates = [] ∧
     ((s.context s.w.ctx).map Context.ptroot).getD 0 = 0x1000 ∧ va / 2 ^ 39 % 2 ^ 13 = 1 ∧
     readMem s.mem 0x1008 8 = 0x2001 ∧ readMem s.mem 0x2008 8 = 0x3001 ∧ readMem s.mem 0x3008 8 = 0x4001 ∧
     readMem s.mem 0x4018 8 = 0x000000002345020F ∧ leafBad 0 0x000000002345020F 16 = false ∧
     (readLeaf 0x000000002345020F 16).node = 0) ∧
    (readMem [] 0x1008 8 % 2 = 0) ∧ (0x2001 % 2 ^ 8 = 1 ∧ 0x2001 / 2 ^ 8 % 2 ^ 40 * 2 ^ 8 % 4096 = 0) ∧
    (0x40000003 % 4 = 3 ∧ leafBad 0 0x40000003 30 = false ∧ 0x200003 % 4 = 3 ∧ leafBad 0 0x200003 21 = false) ∧
    (2 ^ 52 ≤ 0x10000000000000 ∧ 0x10000000000000 % 16 = 0) := by decide

theorem witness_atomics : (2 ^ 32 - 1 < 2 ^ 32 ∧ 0 < 2 ^ 32) ∧ (2 ^ 64 - 1 < 2 ^ 64) ∧ (2 < 3 ∧ 11 < 12 ∧ 12 ≤ 14) := by decide

/-- An operation of some lanes, each with the virtual address va of a page. -/
def opOf (i : Instr) (ctr : Nat) (lanes : Lanes) (l : Leaf) (va : Nat) (data : List (Nat × Nat)) : Op :=
  { ctr := ctr, i := i, pc := 0x1004, word := 0, lanes := lanes, src := data.map fun e => (e.1, [va, e.2])
    pages := data.map fun e => (e.1, l), version := 0, act := lanes }
/-- The state in which it is the one outstanding operation. -/
def opState (lanes : Lanes) (l : Leaf) (o : Op) : State := { memState lanes l with w := { waveOf lanes with ops := [o] } }
/-- That of lane 1. -/
def aloneOp (i : Instr) (ctr : Nat) (l : Leaf) (va data : Nat) : Op := opOf i ctr 2 l va [(1, data)]

/-- The operation of lane 1 is alone, and its location calm. -/
theorem alone_calm (i : Instr) (ctr : Nat) (l : Leaf) (va data : Nat) :
    let s := opState 2 l (aloneOp i ctr l va data)
    Alone s (aloneOp i ctr l va data) 1 l va data ∧ s.pending = [] ∧ s.updates = [] ∧ s.l1 = [] ∧ s.poison = [] ∧ s.ecc = [] :=
  ⟨⟨rfl, rfl, rfl, by decide, rfl, rfl, rfl, rfl, rfl, rfl, rfl, BitVec.getLsbD_zero⟩, rfl, rfl, rfl, rfl, rfl⟩

theorem calm_at (lanes : Lanes) (l : Leaf) (o : Op) (pa n : Nat) (h : pa % 128 + n ≤ 128)
    (e : pa + n ≤ 0x1F00000000) : Calm (opState lanes l o) pa n :=
  calm_of rfl rfl rfl rfl rfl rfl h e

/-- Three lanes at one place: lanes 0, 2 and 63. -/
theorem crowd (i : Instr) (ctr : Nat) (l : Leaf) (va : Nat) (data : Nat → Nat) :
    let o := opOf i ctr 0x8000000000000005 l va [(0, data 0), (2, data 2), (63, data 63)]
    Crowd (opState 0x8000000000000005 l o) o [0, 2, 63] l va data := by
  refine ⟨rfl, rfl, rfl, by decide, by decide, ?_, ?_, rfl, rfl, rfl, rfl, rfl, rfl⟩
  · simp only [List.mem_cons, List.not_mem_nil, or_false, forall_eq_or_imp, forall_eq]
    exact ⟨⟨by decide, BitVec.getLsbD_zero⟩, ⟨by decide, BitVec.getLsbD_zero⟩, by decide, BitVec.getLsbD_zero⟩
  · intro k
    by_cases h : k < 64
    · exact (by decide : ∀ k, k < 64 → ((0x8000000000000005 : Lanes).getLsbD k = true ↔ k ∈ [0, 2, 63])) k h
    · have hk : (0x8000000000000005 : Lanes).getLsbD k = false := BitVec.getLsbD_of_ge _ _ (Nat.le_of_not_lt h)
      have hn : k ≠ 0 ∧ k ≠ 2 ∧ k ≠ 63 := by omega
      constructor
      · intro hc
        exact absurd (hk.symm.trans hc) (by decide)
      · simp [hn]

/-- Loads, atomics and stores: `alone_calm` and `crowd` with the last bytes of a sector and of memory, and the registers 124 to
127. -/
theorem witness_landings : (124 + 16 / 4 ≤ 128 ∧ (2 : Nat) < 3) ∧
    (∀ lanes o, Calm (opState lanes (page 0 false false) o) ((page 0 false false).addr 0x10070) 16) ∧
    (∀ lanes l o, Calm (opState lanes l o) 0x1EFFFFFFFC 4) ∧ ((page 1 false false).cache ≠ 2 ∧ (page 0 false false).cache = 0) ∧
    ([0, 2, 63] = [0, 2] ++ 63 :: []) :=
  ⟨by decide, fun _ _ => calm_at _ _ _ _ _ (by decide) (by decide), fun _ _ _ => calm_at _ _ _ _ _ (by decide) (by decide), by decide, rfl⟩

/-- The maker of an access: lane 0 of wave 5. -/
def maker : Origin := ⟨5, 0, 0, 0, 7, 0, 0, 0, 0x1004, 0, 0, 0x10008⟩
/-- A store of one instruction that core 0 has accepted. -/
def stored (id data buf : Nat) (feset : Bool) : Pending :=
  ⟨id, 0, 0, 0, 0x10008, 0x20008, 4, data, feset, false, false, decide (buf ≠ 0), buf, 1, maker, false, false⟩

/-- Stores at their home: one alone, a FESET, one in a combining buffer, two of one instruction; and a reduction. -/
theorem witness_homes :
    (∀ buf feset, let p := stored 3 0x1234 buf feset
     let s : State := { w := waveOf 1, pending := [p] }
     s.pending = [p] ∧ s.updates = [] ∧ p.tag = 0 ∧ Sound s p.pa p.n ∧ p.buf = buf ∧ p.feset = feset) ∧
    (let p := stored 3 1 0 false
     let q := stored 4 2 0 false
     let s : State := { w := waveOf 1, pending := [p, q] }
     s.pending = p :: [q] ∧ (p :: [q]).getLast? = some q ∧ (∀ x ∈ p :: [q], x.core = p.core ∧ x.op = p.op ∧ x.pa = p.pa ∧
       x.n = p.n ∧ x.tag = 0 ∧ x.feset = false ∧ x.buf = 0) ∧ Sound s p.pa p.n) ∧
    (let u : Update := ⟨0, 0x10008, 0x20008, true, 0, 0, false, .red ⟨0, 4, 6, 0, ⟨2, 0, 0, 0⟩⟩, 5, [maker]⟩
     let s : State := { w := waveOf 1, updates := [u] }
     s.updates = [u] ∧ u.tag = 0 ∧ Sound s u.pa (rmwBytes u.i)) :=
  ⟨fun _ _ => ⟨rfl, rfl, rfl, ⟨rfl, rfl, nobit _, by show 0x20008 % 128 + 4 ≤ 128; decide, by show 0x20008 + 4 ≤ 0x1F00000000; decide⟩, rfl, rfl⟩,
   ⟨rfl, rfl, by decide, ⟨rfl, rfl, rfl, by decide, by decide⟩⟩, ⟨rfl, rfl, ⟨rfl, rfl, rfl, by decide, by decide⟩⟩⟩

/-- Full/empty waits: a word that is empty, one that is full, a value that differs, scratch words full and empty. -/
theorem witness_full_empty :
    (let s := memState 2 (page 0 true false)
     let f : MF := ⟨10, 4, 0, 0, none⟩
     Single s 1 ∧ f.d < 128 ∧ globalAddr s.w f.a (f.offset 4) 1 = 0x10008 ∧
     checkGlobal s { need := .load, fe := true } 4 0x10008 = .ok (page 0 true false) ∧
     checkGlobal s { need := .rmw, fe := true, write := true, spec := true } 4 0x10008 = .ok (page 0 true false) ∧
     Calm s ((page 0 true false).addr 0x10008) 4 ∧ readBit s.mem (feCell 0x20008) = false ∧
     readBit (writeBit s.mem (feCell 0x20008) true) (feCell 0x20008) = true) ∧
    (let s : State := { memState 2 (page 0 true false) with scratchFe := [(cell0 + 8, true)] }
     let f : MF := ⟨10, 6, 0, 0, none⟩
     Single s 1 ∧ scratchOff s.w f.a (f.offset 4) 1 % 4 = 0 ∧ scratchCell s (scratchOff s.w f.a (f.offset 4) 1) 4 = some (cell0 + 8) ∧
     scratchFull s (cell0 + 8) = true ∧ scratchFull { s with scratchFe := [(cell0 + 8, false)] } (cell0 + 8) = false) ∧
    (let f : V3 := ⟨10, 4, 6, 0, none⟩
     let s := memState 2 (page 0 true false)
     readMem s.mem ((page 0 true false).addr 0x10008) 4 ≠ (s.w.srcB f 1).toNat) :=
  ⟨⟨⟨rfl, rfl, by decide, rfl, rfl, by decide, rfl⟩, by decide, by decide, rfl, rfl,
    calm_of rfl rfl rfl rfl rfl rfl (by decide) (by decide), by decide, by decide⟩,
   ⟨⟨rfl, rfl, by decide, rfl, rfl, by decide, rfl⟩, by decide, by decide, by decide, by decide⟩, by decide⟩

/-- A woken lane at 0x10008, or at the scratch offset 8, with some attempts left. -/
def wokenAt (i : Instr) (kind : Nat) (scratch : Bool) (budget : Nat) : Park :=
  { lane := 1, i := i, pc := 0x1004, word := 0, va := 0x10008, scratch := scratch, kind := kind, data := 0, dst := 0
    budget := budget, version := 0, level := 0, woken := true, pa := if scratch then cell0 + 8 else 0x20008 }
/-- Its wave. -/
def wokenState (i : Instr) (kind : Nat) (scratch : Bool) (budget : Nat) : State :=
  { memState 0 (page 0 true false) with w := { waveOf 0 with parks := [wokenAt i kind scratch budget], parked := 2 } }

/-- A woken lane of each kind, with its last attempt and with more; its word empty; its scratch word full and empty. -/
theorem witness_reevaluation :
    (∀ i kind scratch budget, let s := wokenState i kind scratch budget
     Woken s (wokenAt i kind scratch budget) i kind scratch ∧ (wokenAt i kind scratch budget).budget = budget ∧ Calm s 0x20008 4 ∧
     readBit s.mem (feCell 0x20008) = false) ∧
    (∀ i kind, let s := wokenState i kind false 1
     checkAt s 0 0 0 { need := .load, fe := true } 4 0x10008 = .ok (page 0 true false) ∧
     checkAt s 0 0 0 { need := .rmw, fe := true, write := true, spec := true } 4 0x10008 = .ok (page 0 true false)) ∧
    (page 0 true false).addr 0x10008 = 0x20008 ∧
    (∀ i kind, let s := wokenState i kind true 1
     s.pending = [] ∧ s.updates = [] ∧ scratchFull { s with scratchFe := [(cell0 + 8, false)] } (cell0 + 8) = false ∧
     scratchFull { s with scratchFe := [(cell0 + 8, true)] } (cell0 + 8) = true) :=
  ⟨fun _ _ _ _ => ⟨⟨rfl, rfl, .inl rfl, rfl, rfl, rfl, rfl, rfl, rfl, by show 1 < 64; decide, BitVec.getLsbD_zero⟩, rfl,
    calm_of rfl rfl rfl rfl rfl rfl (by decide) (by decide), nobit _⟩, fun _ _ => ⟨rfl, rfl⟩, by decide,
   fun _ _ => ⟨rfl, rfl, rfl, rfl⟩⟩

/-- Special registers of a group of a grid and of a formed wave. -/
theorem witness_launch_registers :
    (let s := memState 3 (flat 0)
     s.myCohort = some (Machine.seatCohort 7) ∧ s.myLaunch = some (Machine.seatLaunch 7) ∧ (Machine.seatCohort 7).formed = none) ∧
    (let c : Cohort := { Machine.seatCohort 7 with formed := some ⟨3, []⟩ }
     let s : State := { memState 3 (flat 0) with cohorts := [c] }
     s.myCohort = some c ∧ c.formed = some ⟨3, []⟩) := by decide

/-- A late trap that names the address of each of its lanes. -/
theorem witness_late_addresses :
    let x : LateTrap := { cause := .rsvdField, mask := 6, pc := 0x1004, word := 0, dst := 0, addr := 8, addrs := [(1, 8), (2, 9)] }
    let s : State := { trapState false (some 0x2000) with w := { waveOf 3 with clause := none, late := [x], exited := 2 } }
    (x.mask &&& s.w.live).getLsbD 2 = true ∧ (∀ k, k < 2 → (x.mask &&& s.w.live).getLsbD k = false) ∧
    (x.addrs.find? fun e => e.1 == 2) = some (2, 9) := by decide

/-- An acquire of a wave that has not been performed. -/
def oneAcquire : Op := { oneLoad with i := .ldw ⟨10, 4, 0, 0, none⟩ }

/-- A lane whose first attempt an acquire holds back; one whose first attempt nothing holds back any more. -/
theorem witness_first_attempts :
    (let s : State := { memState 2 (page 0 true false) with w := { (memState 2 (page 0 true false)).w with ops := [oneAcquire] } }
     s.w.on = true ∧ s.w.ended = false ∧ s.w.active = laneBit 1 ∧ s.w.ops = [oneAcquire] ∧ oneAcquire.ctr = 0 ∧
     acquires (orderOf oneAcquire.i).1 = true ∧ oneAcquire.perf ≠ oneAcquire.lanes ∧ s.updates = [] ∧
     checkGlobal s { need := .load, fe := true } 4 (globalAddr s.w 4 0 1) = .ok (page 0 true false) ∧
     checkGlobal s { need := .rmw, fe := true, write := true, spec := true } 4 (globalAddr s.w 4 0 1) = .ok (page 0 true false)) ∧
    (let p : Park := { wokenAt (.ldw ⟨10, 4, 0, 0, none⟩) 1 false 5 with first := 9 }
     let s : State := { wokenState (.ldw ⟨10, 4, 0, 0, none⟩) 1 false 5 with
       w := { waveOf 0 with parks := [p], parked := 2 } }
     p.first ≠ 0 ∧ s.w.ops = [] ∧ s.w.parks = [p] ∧ p.woken = true ∧ p.lane < 64 ∧ s.w.exited.getLsbD p.lane = false) := by decide

/-- FENCE with an access outstanding and with none, with no combining buffer in use, at the narrowest scope that drops lines;
BIND and UNBIND with room, with 64 bindings, and on a bad range. -/
theorem witness_fences :
    ((∃ o ∈ (barState 4 2 [oneLoad]).w.ops, o.perf ≠ o.lanes ∧ o.ctr ≠ 2) ∧ (∀ o ∈ (memState 3 (flat 0)).w.ops, o.perf = o.lanes ∨ o.ctr = 2)) ∧
    (let s : State := { memState 3 (flat 0) with pending := [stored 3 1 0 false] }
     let f : MF := ⟨0, 0, 0, 0, some { scope := 2, order := 1 }⟩
     (∀ p ∈ s.pending, p.core = s.w.core → p.buf = 0) ∧ f.m.order = 1 ∧ 2 ≤ f.m.scope ∧ s.w.ended = false ∧ s.poison = [] ∧ s.ecc = []) ∧
    (let s : State := { memState 3 (flat 0) with w := { waveOf 3 with s := [(4, 0x10000), (8, 128), (6, 0x20000)] } }
     s.context s.w.ctx = some Machine.seatContext ∧ s.w.active ≠ 0 ∧ s.w.version = 0 ∧ (s.w.spair 4).toNat % 128 = 0 ∧
     (s.w.sreg 8).toNat = 128 ∧ (s.w.spair 6).toNat % 4 = 0 ∧ ¬(0x10000 ≤ (s.w.spair 6).toNat ∧ (s.w.spair 6).toNat < 0x10000 + 128)) ∧
    (let c : Context := { Machine.seatContext with bindings := List.replicate 64 ⟨0x10000, 128, 0x20000⟩ }
     64 ≤ c.bindings.length ∧ ∃ b ∈ c.bindings, b.base = 0x10000) ∧ (127 % 128 ≠ 0) := by decide

/-- A cache range of one line whose page passes, one whose page does not, and one whose page is not there; lines and entries
within it and outside, a store of the wave that CWB waits for, and one of the core that it sends home. -/
theorem witness_ranges :
    (let s : State := { memState 1 (flat 0) with w := { waveOf 1 with s := [(4, 0x10000)] } }
     let f : MF := ⟨6, 4, 0, 0, none⟩
     s.w.active ≠ 0 ∧ rangeLines s.w f = [] ++ 0x10000 :: [] ∧ checkGlobal s { need := .load } 4 0x10000 = .ok (flat 0) ∧
     (match checkGlobal s { need := .fetch } 4 0x10000 with | .trap .memPerm => true | _ => false) = true ∧ s.pending = [] ∧
     s.updates = [] ∧ s.w.ops = [] ∧ Active s 0 ∧ f.d < 8) ∧
    (match checkGlobal { memState 1 (flat 0) with tlb := [] } { need := .load } 4 0x10000 with | .replay 3 => true | _ => false) = true ∧
    (let s : State := { memState 1 (flat 0) with w := { waveOf 1 with s := [(4, 0x10000)] } }
     let f : MF := ⟨6, 4, 0, 0, none⟩
     RangeHas s f .load 64 ∧ (flat 1).cached = false ∧
     (let o := opOf (.st ⟨10, 4, 0, 0, none⟩) 1 1 (flat 0) 0x10004 [(0, 7)]
      o.perf ≠ o.lanes ∧ o.ctr ≠ 2 ∧ writesMem o.i = true ∧ onScratch o.i = false ∧ o.sites = [(0x10004, 0x10004)] ∧ 0x10004 / 1024 = 64) ∧
     (let x : CacheLine := ⟨64, 0, 1, [0], 0, 0, false⟩; x.num = 64 ∧ x.dirty ≠ 0 ∧ 0 ∈ x.pins) ∧
     (let p : Pending := { stored 3 1 0 false with pa := 0x10008 }; p.core = s.w.core ∧ p.pa / 1024 = 64)) := by
  refine ⟨⟨by decide, by decide, rfl, by decide, rfl, rfl, rfl, by decide, by decide⟩, by decide, ⟨⟨0x10000, flat 0, by decide, rfl, by decide⟩, by decide⟩⟩

/-! ### Copies, FIFOs, versions -/

/-- The bytes of a copy barrier with EXPECT, NEXT, DONE and PHASE, with POISON, its code and an empty bitmap. -/
def copyBar (expect next poison : Nat) : List Host.Cell :=
  writeScratch [] cell0 20 (expect + next * 2 ^ 16 + poison * 2 ^ 64)

/-- Copy commands: a lane that leads and none, a misaligned barrier, one outside, a slot with room and one without; and
CWAIT that waits, one that is over, and one that is poisoned. -/
theorem witness_copies :
    (let s := memState 3 (page 0 false false)
     let f : CF := ⟨7, 0, 8, 10, 20, 0, 2⟩
     (Active s 0 ∧ s.w.pred f.p 0 = true) ∧ f.bar % 16 = 0 ∧ f.bar < 0x1000000 ∧ scratchCell s f.bar 16 = some cell0 ∧
     (SMap.get {} s.w.batches f.batch).incomplete < 63 ∧ layoutRoom s = true) ∧
    (∀ l, l < 64 → (memState 3 (page 0 false false)).w.pred 0 l = false) ∧
    (0x808 % 16 ≠ 0) ∧ (0x50000 % 16 = 0 ∧ scratchCell (memState 3 (page 0 false false)) 0x50000 16 = none) ∧
    (let s : State := { memState 3 (page 0 false false) with w := { waveOf 3 with batches := [(2, ⟨2, 1, 0⟩), (3, ⟨1, 63, 0⟩), (4, ⟨2, 0, 5⟩)] } }
     (SMap.get {} s.w.batches 2).state = 2 ∧ (SMap.get {} s.w.batches 2).incomplete ≠ 0 ∧
     63 ≤ (SMap.get {} s.w.batches 3).incomplete ∧ (SMap.get {} s.w.batches 4).incomplete = 0) ∧
    (let s := fun (b : List Host.Cell) => ({ memState 3 (page 0 false false) with
       scratch := b, w := { waveOf 3 with s := [(6, 1)] } } : State)
     let set_ := fun (b : List Host.Cell) => decide (readScratch (s b).scratch (cell0 + 16) 4 / 2 ^ 0 % 2 = 1)
     (s (copyBar 1 1 0)).w.active ≠ 0 ∧ (((s (copyBar 1 1 0)).w.sreg 4).toNat) % 16 = 0 ∧
     scratchCell (s (copyBar 1 1 0)) 0 16 = some cell0 ∧ (s (copyBar 1 1 0)).w.spair 6 = 1 ∧
     (set_ (copyBar 1 1 0) = false ∧ readScratch (copyBar 1 1 0) cell0 2 = 1 ∧ readScratch (copyBar 1 1 0) (cell0 + 8) 1 % 2 ≠ 1) ∧
     readScratch (copyBar 0 0 0) cell0 2 ≤ 0 ∧ readScratch (copyBar 1 1 0x2201) (cell0 + 8) 1 % 2 = 1 ∧
     readScratch (copyBar 1 1 0x2201) (cell0 + 9) 1 = 0x22) ∧
    (let s : State := { memState 3 (page 0 false false) with w := { waveOf 3 with s := [(4, 8)] } }
     (s.w.sreg 4).toNat % 16 ≠ 0) ∧
    (let s := fun (res : Option Word) => ({ memState 3 (page 0 false false) with
       scratch := copyBar 1 1 0, w := { waveOf 3 with clause := none, hold := .cwait cell0 0 1 5 res } } : State)
     (s none).w.on = true ∧ (s none).w.hold = .cwait cell0 0 1 5 none ∧ (s (some 0)).w.hold = .cwait cell0 0 1 5 (some 0) ∧
     (s (some 0)).w.ended = false ∧ (s (some 0)).w.clause = none ∧
     readScratch (setSlot cell0 0 (s none)).scratch (cell0 + 16) 4 % 2 = 1 ∧
     readScratch (setSlot cell0 1 (s none)).scratch (cell0 + 16) 4 % 2 = 0) := by decide

/-- A command of a kind of the cohort's core 0, whose barrier lies at scratch offset 0. -/
def cmdOf (kind : Nat) : Cmd :=
  { id := 9, kind := kind, core := 0, wave := 5, batch := 2, cohort := 7, ctx := 0, tag := 0, owner := 7, bar := cell0
    tags := [7], scratch := 0x50000, column := 0 }
/-- The record of n 4-byte elements in a row at 0x10000, moved with a FEPOL in a MODE (R232). -/
def recordOf (n mode fe : Nat) : Nat :=
  0x10000 + 2 ^ 64 + mode * 2 ^ 72 + fe * 2 ^ 74 + n * 2 ^ 128 + 4 * 2 ^ 160 + n * 2 ^ 208
/-- The state in which a command is the only one; its unit's TLB holds the page at 0x10000. -/
def cmdState (c : Cmd) (l : Leaf) (b m : List Host.Cell) : State :=
  { memState 3 l with cmds := [c], scratch := b, mem := m, tlb := [{ core := c.unit, ctx := 0, vpn := 1, leaf := l }] }

/-- A record that may be taken, one of no dimension, one of a length that is no number of 4-byte elements; a mapping that changes
nothing and one that splits a bit off one element; an element beyond the tensor. -/
theorem witness_records :
    (let v := recordOf 1 0 2
     (¬RecordMalformed v ∧ ¬RecordMisaligned v ∧ recMODE v < 2 ∧ recES v = 4 ∧ recBYTES v = 4 ∧ recFMT v ≠ 5) ∧
     ¬RecordMalformed (recordOf 1 2 2) ∧ 2 ≤ recMODE (recordOf 1 2 2) ∧ RecordMalformed 0 ∧ RecordMisaligned (v + 2) ∧
     ¬RecordMalformed (v + 2) ∧ ¬RecordMalformed (recordOf 2 0 0) ∧ v < 2 ^ 1024) ∧
    (let v := recordOf 1 0 0
     ¬MappingBad 0 v v ∧ MappingBad 1 v v ∧ ¬RecordMalformed v ∧ recMODE v = 0 ∧ recFEPOL v = 0) ∧
    (OutOfTensor (recordOf 1 0 2) (fun _ => 1) ∧ ¬OutOfTensor (recordOf 1 0 2) (fun _ => 0)) := by
  simp only [RecordMalformed, RecordMisaligned, MappingBad, OutOfTensor]
  and_intros <;> decide +kernel

/-- A record is read where memory holds it. -/
theorem witness_record_read :
    (let s := cmdState (cmdOf 0) (flat 0) (copyBar 1 0 0) (writeMem [] 0x10080 128 (recordOf 1 0 2))
     RecordRead s (cmdOf 0) 0x10080 (recordOf 1 0 2)) ∧
    (let s := cmdState (cmdOf 1) (flat 0) (copyBar 1 0 0) (writeMem [] 0x10080 128 (recordOf 1 0 0))
     RecordRead s (cmdOf 1) 0x10080 (recordOf 1 0 0)) :=
  ⟨⟨by decide, by decide, flat 0, rfl, ⟨rfl, rfl, rfl, rfl, rfl, by decide +kernel, by decide, by decide⟩, by decide +kernel⟩,
   ⟨by decide, by decide, flat 0, rfl, ⟨rfl, rfl, rfl, rfl, rfl, by decide +kernel, by decide, by decide⟩, by decide +kernel⟩⟩

/-- Offers of each kind: a reservation of the last slot, of one too many, of more than 256; a bitmap that reaches beyond. -/
theorem witness_offers :
    (∀ kind, kind < 3 → Offered (cmdState (cmdOf kind) (flat 0) (copyBar 1 0 0) []) (cmdOf kind) kind) ∧
    (let s := cmdState (cmdOf 2) (flat 0) (copyBar 1 0 0) []
     readScratch s.scratch cell0 2 = 1 ∧ readScratch s.scratch (cell0 + 2) 2 = 0 ∧
     (∃ t ∈ (cmdOf 2).tags, t * 2 ^ 28 ≤ (cmdOf 2).bar ∧
       (cmdOf 2).bar + 16 + 4 * ((1 + 31) / 32) ≤ t * 2 ^ 28 + (cmdOf 2).scratch) ∧
     ¬(∃ t ∈ (cmdOf 2).tags, t * 2 ^ 28 ≤ cell0 + 0x4FFF0 ∧ cell0 + 0x4FFF0 + 16 + 4 * ((1 + 31) / 32) ≤ t * 2 ^ 28 + 0x50000)) ∧
    (256 < readScratch (copyBar 257 0 0) cell0 2 ∧ readScratch (copyBar 1 1 0) cell0 2 <
      readScratch (copyBar 1 1 0) (cell0 + 2) 2 + 1) ∧
    (cellAt (cmdOf 0).tags (cmdOf 0).rank (cmdOf 0).scratch (cmdOf 0).column 0x4FFFC 4 = some (cell0 + 0x4FFFC) ∧
     cellAt (cmdOf 0).tags (cmdOf 0).rank (cmdOf 0).scratch (cmdOf 0).column 0x50000 4 = none) ∧
    (let c : Cmd := { cmdOf 1 with accepted := true }
     c.kind = 1 ∧ c.accepted = true ∧ c.started = false) :=
  ⟨fun kind h => ⟨rfl, rfl, rfl, rfl, rfl, (by decide : ∀ k, k < 3 → resident (cmdState (cmdOf k) (flat 0) (copyBar 1 0 0) []) (cmdOf k).bar = true) kind h, rfl⟩, by decide, by decide, by decide, by decide⟩

/-- The chunk of a COPY of one element from 0x10000 to scratch, with a policy. -/
def oneMove (fe : Nat) : Cmd :=
  { cmdOf 0 with accepted := true, todo := [0], record := toBytes 128 (recordOf 1 0 fe), nums := [0, cell0 + 64, 0] }
/-- Its move. -/
def itsMove : Move := ⟨.glob 0x10000, .cell (cell0 + 64), 4, 0, 0⟩

/-- Chunks: a move that fits under each of two policies; a page without full/empty bits and a poisoned one; two moves that
do not meet. -/
theorem witness_chunks :
    (∀ fe, fe = 0 ∨ fe = 2 → let s := cmdState (oneMove fe) (flat 0) (copyBar 1 1 0) []
     MoveFits s (oneMove fe) itsMove ∧ spot s (oneMove fe) .load itsMove.src = some (false, 0x10000) ∧
     spot s (oneMove fe) .store itsMove.dst = some (true, cell0 + 64)) ∧
    ((oneMove 2).moves 0 = [itsMove] ∧ (oneMove 1).moves 0 = [itsMove] ∧ (oneMove 0).moves 0 = [itsMove]) ∧
    (let c := oneMove 2
     let s := cmdState c (flat 0) (copyBar 1 1 0) []
     s.cmds = [c] ∧ c.kind = 0 ∧ c.accepted = true ∧ c.todo = [0] ∧ c.packet = none ∧ c.tag = 0 ∧ c.base + 0 < 256 ∧
     resident s c.bar = true ∧ c.bar % 16 = 0 ∧ s.pending = [] ∧ s.updates = [] ∧ s.l1 = []) ∧
    (xlate (cmdState (oneMove 1) (page 0 false false) [] []) 128 0 0x10000 .load = .ok (page 0 false false) ∧
     (oneMove 1).policy = 1 ∧ (oneMove 2).policy = 2 ∧
     ({ cmdState (oneMove 2) (flat 0) [] [] with poison := [512] } : State).poison.contains ((flat 0).addr 0x10000 / 128) = true) ∧
    (let c : Cmd := { cmdOf 0 with record := toBytes 128 (recordOf 2 0 2), nums := [0, cell0 + 64, 0] }
     c.moves 0 = [itsMove, ⟨.glob 0x10004, .cell (cell0 + 68), 4, 0, 4⟩] ∧ ¬SpotsMeet (true, cell0 + 64) 4 (true, cell0 + 68) 4 ∧
     ¬SpotsMeet (true, cell0 + 68) 4 (false, 0x10000) 4) ∧
    (let c : Cmd := { cmdOf 1 with
       record := toBytes 128 (recordOf 1 0 0) ++ toBytes 128 (recordOf 1 0 0), nums := List.replicate 13 0 }
     c.moves 0 = [⟨.glob 0x10000, .glob 0x10000, 4, 0, 0⟩]) := by
  refine ⟨fun fe h => ⟨⟨?_, ?_, ?_, ?_, .inl rfl, ?_⟩, ?_, rfl⟩, by decide +kernel, by decide +kernel, ?_, ?_, by decide +kernel⟩
  · intro va h2
    cases h2
    refine ⟨by decide, by decide, flat 0, rfl, by decide, by decide, fun _ => rfl, rfl, rfl, nobit _, by decide, by decide⟩
  · intro va h2
    cases h2
  · intro a h2
    cases h2
  · intro a h2
    cases h2
    exact ⟨by decide, rfl, .inr (by show cell0 + 48 ≤ cell0 + 64; decide)⟩
  · intro h3
    rcases h with h | h <;> subst h <;> exact absurd h3 (by decide +kernel)
  · rcases h with h | h <;> subst h <;> decide +kernel
  · exact ⟨rfl, by decide +kernel, by decide +kernel, rfl⟩
  · simp only [SpotsMeet]
    decide +kernel

/-- The end of a PUT, and PUT messages of two pieces: admitted, not admitted, and with a piece or a counter beyond memory. -/
theorem witness_puts :
    (let c : Cmd := { cmdOf 2 with accepted := true, started := true, todo := [0] }
     let s := cmdState c (flat 0) (copyBar 1 1 0) []
     s.cmds = [c] ∧ c.kind = 2 ∧ c.started = true ∧ c.packet = none ∧ resident s c.bar = true ∧ c.bar % 16 = 0 ∧ c.base < 256 ∧
     (∀ h ∈ s.plat.held, ¬(h.kind = 0 ∧ h.id = c.id))) ∧
    (let m : PutMsg := ⟨3, 1, 0, [(0x2007C, 4), (0x30000, 4)], 0x20010, 1, [1, 2, 3, 4, 5, 6, 7, 8]⟩
     let s : State := { contexts := [{ Machine.seatContext with fabric := 8 }] }
     m.pieces = [(0x2007C, 4), (0x30000, 4)] ∧ m.data = [1, 2, 3, 4, 5, 6, 7, 8] ∧ s.updates = [] ∧
     (∃ c ∈ s.contexts, c.id < 4096 ∧ c.fabric.testBit m.src = true) ∧ Sound s 0x2007C 4 ∧ Sound s 0x30000 4 ∧ Sound s m.counter 4) ∧
    (∀ c ∈ ({ contexts := [Machine.seatContext] } : State).contexts, c.id < 4096 → c.fabric.testBit 3 = false) ∧
    0x1F00000000 < 0x1EFFFFFFFC + 8 := by
  refine ⟨by decide, ⟨rfl, rfl, rfl, by decide, ?_, ?_, ?_⟩, by decide, by decide⟩ <;>
    exact ⟨rfl, rfl, nobit _, by decide, by decide⟩

/-- One entry of a FIFO for context 0. -/
def entry (ready : Bool) : FifoEntry := ⟨0, List.replicate 64 7, ready⟩
/-- The state in which pair 0's FIFOs hold something; the focused wave runs on core 0. -/
def fifoState (up down : Fifo) : State := { w := waveOf 3, plat := { fifos := [(0, up), (1, down)] } }

/-- VPUSH: down, full, with room for a last entry, with an access to wait for, for an island that closes; VPOP: an entry not
available, one available behind another context's, none; an entry that becomes available. -/
theorem witness_fifos :
    ((fifoState { down := true } {}).w.active ≠ 0 ∧ (fifoState { down := true } {}).w.core = 0 ∧
      ((fifoState { down := true } {}).fifo 0).down = true) ∧
    16 ≤ ((fifoState { entries := List.replicate 16 (entry true) } {}).fifo 0).entries.length ∧
    (∃ o ∈ [oneLoad], o.perf ≠ o.lanes ∧ o.ctr ≠ 2) ∧
    (let s := fifoState { entries := List.replicate 15 (entry true) } {}
     (s.fifo 0).down = false ∧ (s.fifo 0).entries.length < 16 ∧ (∀ o ∈ s.w.ops, o.perf = o.lanes ∨ o.ctr = 2) ∧
     s.pending = [] ∧ s.updates = [] ∧ pushDropped s 0 = false ∧
     pushDropped { s with plat := { s.plat with islands := [((pairClusters 0).2, { state := 1, drained := true })] } } 0 = true) ∧
    (let other : FifoEntry := { entry true with ctx := 1 }
     ((fifoState {} { entries := [other, entry true] }).fifo 1).entries = [other] ++ entry true :: [] ∧
     (∀ d ∈ [other], d.ctx ≠ (fifoState {} {}).w.ctx) ∧ (entry true).ready = true ∧ (entry false).ready = false) ∧
    (∀ d ∈ ((fifoState {} { down := true }).fifo 1).entries, d.ctx ≠ 0) ∧
    (((fifoState { entries := [entry true, entry false] } {}).fifo (2 * 0 + 0)).entries = [entry true] ++ entry false :: []) :=
  by decide

/-- A context with the tags 1 (LIVE, from 0) and 2 (LIVE, from 1), and a wave at a tag that names one in s4. -/
def tagState (version tag : Nat) (g : Tag) : State :=
  { w := { waveOf 3 with version := version, s := [(4, BitVec.ofNat 32 tag)] }
    contexts := [{ Machine.seatContext with tags := [(1, g), (2, { state := 1, parent := 1, depth := 2 })] }] }

/-- VFORK: no tags asked for, too many, a depth that does not allow it, and one that does; VSET to a child and to a tag
that is not LIVE; VCOMMIT from the parent, VSQUASH from an ancestor, both refused; a deadline that has passed; a tag that
nothing carries. -/
theorem witness_versions :
    (let s := tagState 0 1 { state := 1, depth := 1 }
     s.context s.w.ctx = some { Machine.seatContext with tags := [(1, { state := 1, depth := 1 }), (2, { state := 1, parent := 1, depth := 2 })] } ∧
     s.w.active ≠ 0 ∧ s.w.on = true ∧ (tagOf s 0 0).state = 1 ∧ (tagOf s 0 0).depth ≠ 2 ∧
     1 ≤ (s.w.sreg 4).toNat ∧ (s.w.sreg 4).toNat ≤ 8 ∧
     1 ≤ ((List.range 16).filter fun t => t ≠ 0 ∧ (tagOf s 0 t).state = 0).length ∧
     (∀ o ∈ s.w.ops, o.perf = o.lanes ∨ o.ctr = 2) ∧ s.pending = [] ∧ s.updates = []) ∧
    ((0 : Nat) = 0 ∧ 8 < 9) ∧ (tagOf (tagState 2 1 {}) 0 2).depth = 2 ∧
    (let s := tagState 0 1 { state := 1, depth := 1 }
     (tagOf s 0 1).state = 1 ∧ isAncestor s 0 0 1 = true ∧ (tagOf s 0 1).dset = false) ∧
    (tagOf (tagState 0 1 { state := 2 }) 0 1).state ≠ 1 ∧
    (let s := tagState 0 2 { state := 1, depth := 1 }
     (2 : Nat) ≠ 0 ∧ (tagOf s 0 2).state = 1 ∧ s.w.version ≠ 2 ∧ s.w.version ≠ (tagOf s 0 2).parent ∧
     isAncestor s 0 0 2 = true ∧ children s 0 2 = [] ∧ (∀ w ∈ allWaves s, w.version ≠ 2) ∧ s.st = {} ∧ s.streams = [] ∧
     isAncestor s 0 2 2 = false) ∧
    (let x : Sector := ⟨0, 2, 0x400, 5, 0, false⟩
     let s : State := { tagState 1 2 { state := 1, depth := 1 } with sectors := [x] }
     s.w.version = (tagOf s 0 2).parent ∧ children s 0 1 = [2] ∧ children s 0 2 = [] ∧
     128 * x.num + 128 ≤ 0x1F00000000 ∧ readBit s.mem (waitCell (128 * x.num)) = false) ∧
    (let g : Tag := { state := 1, depth := 1, dset := true, deadline := 5 }
     let s : State := { tagState 0 1 g with now := 6 }
     (tagOf s 0 1).dset = true ∧ (tagOf s 0 1).expired = false ∧ (5 : Int) < timeNow s ∧ s.plat.frames = []) ∧
    (let s := tagState 0 1 { state := 3, into := 0 }
     2 ≤ (tagOf s 0 1).state ∧ tagUnused s 0 1 = true) := by decide

/-- A context whose tag 1 has the child 2 and the sibling 5, with its child 6, two sectors and a log entry of tag 1; the
focused wave, at tag 0, names tag 1 in s4. -/
def familyState : State :=
  { w := { waveOf 3 with s := [(4, 1)] }
    contexts := [{ Machine.seatContext with tags := [(1, { state := 1, depth := 1 }),
      (2, { state := 1, parent := 1, depth := 2 }), (5, { state := 1, depth := 1 }), (6, { state := 1, parent := 5, depth := 2 })] }]
    sectors := [⟨0, 1, 0x400, 5, 1, false⟩, ⟨0, 1, 0x401, 6, 0, true⟩, ⟨0, 5, 0x400, 7, 0, false⟩]
    logs := [{ ctx := 0, tag := 1, i := .event ⟨0, 0, 0, 0⟩, va := 0, data := [], core := 0, wave := 0, part := 0, recs := 1, late := false }] }

theorem commits_alone : CommitsAlone 0 1 familyState := by
  have below : ∀ k ∈ children familyState 0 0, ∀ j ∈ children familyState 0 k, children familyState 0 j = [] := by decide +kernel
  have none_ : ∀ j ∈ children familyState 0 0, j ≠ 1 → 0 ∉ children familyState 0 j := by decide +kernel
  refine ⟨by decide, by decide +kernel, by decide +kernel, fun k j _ hk hj => below k hk j hj, ?_, rfl, rfl, by decide, ?_⟩
  · intro w hw
    rw [show allWaves familyState = [familyState.w] from rfl, List.mem_singleton] at hw
    subst hw
    rintro ⟨-, h | ⟨j, hj, hm⟩⟩
    · exact (by decide +kernel : 0 ∉ children familyState 0 0) h.2
    · exact none_ j hj.2 hj.1 hm
  · intro x hx
    refine ⟨(by decide +kernel : ∀ x ∈ familyState.sectors, 128 * x.num + 128 ≤ 0x1F00000000) x hx, nobit _⟩

/-- VCOMMIT of a family, from its parent; and held back by an access of the wave. -/
theorem witness_commits :
    (familyState.context familyState.w.ctx).isSome = true ∧ familyState.w.active ≠ 0 ∧ (familyState.w.sreg 4).toNat % 16 = 1 ∧
    (tagOf familyState 0 1).state = 1 ∧ familyState.w.version = (tagOf familyState 0 1).parent ∧
    (∀ o ∈ familyState.w.ops, o.perf = o.lanes ∨ o.ctr = 2) ∧ familyState.pending = [] ∧ familyState.updates = [] ∧
    CommitsAlone 0 1 familyState ∧ (∃ o ∈ [oneLoad], o.perf ≠ o.lanes ∧ o.ctr ≠ 2) :=
  ⟨by decide, by decide, by decide, by decide, by decide, by decide, rfl, rfl, commits_alone, by decide⟩

/-! ### Matrix streams and engines, textures, grids -/

/-- Whether a check passes. -/
def passes : Check → Bool
  | .ok _ => true
  | _ => false

/-- A running stream of the cohort, whose claims hold slots 0 to 2 and accumulator 2 of engine core 0. -/
def running : Stream :=
  { on := true, cohort := 7, state := 1, x := [(1, 0x20), (2, 0x0000000100000100)]
    claims := [(0, 0, 0), (0, 0, 1), (0, 0, 2), (0, 1, 2)] }
/-- A word in an engine's queue, with its registers. -/
def queuedAt (i : Instr) (xa xs : Nat) : EngineWord :=
  { core := 0, cohort := 7, i := i, xa := xa, xs := xs, pc := 0, word := 0, done := 0 }
/-- One of one row at scratch offset 0x20. -/
def queued (i : Instr) : EngineWord := queuedAt i 0x20 0x0000000100000100
/-- The cohort's state with a stream and some engine words. -/
def matrixState (x : Stream) (ws : List EngineWord) : State :=
  { memState 3 (page 0 false false) with st := x, engine := ws, tlb := [{ core := engineUnit 0, ctx := 0, vpn := 1, leaf := flat 0 }] }

theorem witness_streams :
    (let s := matrixState { running with state := 0 } []
     s.myLaunch = some (Machine.seatLaunch 7) ∧ s.w.active ≠ 0 ∧ (Machine.seatLaunch 7).kernel.matrix = true ∧
     (s.w.sreg 4).toNat < 1 ∧ 1 ≤ ({ s with w := { s.w with s := [(4, 1)] } }.w.sreg 4).toNat ∧
     s.stream s.w.cohort = some { running with state := 0 } ∧ (∀ o ∈ s.w.ops, o.perf = o.lanes ∨ o.ctr = 2) ∧
     s.pending = [] ∧ s.updates = [] ∧ (∃ o ∈ [oneLoad], o.perf ≠ o.lanes ∧ o.ctr ≠ 2)) ∧
    (matrixState running []).stream 7 = some running ∧
    (let s : State := { matrixState running [] with
       launches := [{ Machine.seatLaunch 7 with kernel := { Machine.seatKernel with matrix := false } }] }
     s.myLaunch.map (·.kernel.matrix) = some false) ∧
    (let s := matrixState running [queued (.mload 0 0 1 2 1 1)]
     s.st.on = true ∧ s.st.state = 1 ∧ s.st.parked = none ∧ (∃ e ∈ s.engine, e.cohort = s.st.cohort ∧ isMove e.i = true)) ∧
    (4 ≤ ({ running with loops := [(1, 2), (1, 2), (1, 2), (1, 2)] } : Stream).loops.length ∧ running.loops.length < 4) ∧
    (let s := matrixState running []
     s.cohort 7 = some (Machine.seatCohort 7) ∧ (Machine.seatCohort 7).waves ≠ 0 ∧
     (Machine.seatCohort 7).bars[7]? = some ⟨false, 8, 0, 0⟩ ∧ kernelOf s 7 = some Machine.seatKernel ∧
     Machine.seatKernel.teams ≤ 1 ∧ 0 < Machine.seatKernel.teams ∧ s.streams = [] ∧
     (∀ y ∈ s.streams, y.cohort = s.st.cohort)) ∧
    ((⟨true, 8, 7, 0⟩ : Barrier).count = true ∧ 7 + 1 ≤ 8 ∧ 8 < 8 + 1) ∧
    (let s : State := { matrixState running [] with streams := [{ running with cohort := 8, claims := [(0, 0, 5)] }] }
     ∃ y ∈ s.streams, y.cohort ≠ s.st.cohort ∧ ∃ q ∈ y.claims, q.1 = engineCore s 7 0 ∧ q.2.1 = 0 ∧ q.2.2 < 16 ∧
       (2 ^ 5).testBit q.2.2 = true) := by decide

/-- Values of a chunk: with a NaN, with infinities of one sign and of both, all finite; accumulators of each kind. -/
theorem witness_matrix_values :
    ((∃ p ∈ [FV.nan 0, .inf true], IsNan p) ∧ (∀ p ∈ [FV.inf true], ¬IsNan p) ∧ FV.inf false ∉ [FV.inf true] ∧
      (∀ p ∈ [FV.fin false 3 (-1), .fin true 0 0], IsFin p)) ∧
    (FFmt.f32.read 0x7FC00001 = .nan 1 ∨ ∃ r, FFmt.f32.read 0x7FC00001 = .nan r) ∧ FFmt.f32.read 0x7F800000 = .inf false ∧
    FFmt.f32.read 0x3F800000 = .fin false (2 ^ 23) (-23) ∧ FFmt.f32.read 0 = .fin false 0 (-149) := by
  refine ⟨⟨⟨_, .head _, 0, rfl⟩, ?_, by decide, ?_⟩, .inr ⟨_, rfl⟩, by decide, by decide, by decide⟩
  · intro p hp ⟨r, hr⟩
    rw [List.mem_singleton] at hp
    exact absurd (hp.symm.trans hr) (by intro h; cases h)
  · simp only [List.mem_cons, List.not_mem_nil, or_false, forall_eq_or_imp, forall_eq]
    exact ⟨⟨_, _, _, rfl⟩, _, _, _, rfl⟩

/-- The words for an engine: room in its queue and none; claimed operands and one that is not; tags that pair, for numbers and for
integers, and tags that do not; a scale slot; rows of scratch and of memory, aligned and not. -/
theorem witness_matrix_engines :
    (let s := matrixState running []
     kernelOf s s.st.cohort = some Machine.seatKernel ∧ (s.st.reg 2).toNat / 2 ^ 32 ≤ 128 ∧
     s.engine.countP (fun w => w.core == engineCore s 7 0) < 8 ∧ 128 < (129 * 2 ^ 32) / 2 ^ 32) ∧
    (let s := matrixState running (List.replicate 8 (queued (.mzero 0 4)))
     8 ≤ s.engine.countP fun w => w.core == engineCore s 7 0) ∧
    (let s := matrixState running [queued (.mzero 0 4)]
     s.engine = [queued (.mzero 0 4)] ∧ (queued (.mzero 0 4)).parked = none ∧ s.stream 7 = some running ∧ running.state = 1 ∧
     (∀ n, n < 9 → (4 : Nat).testBit n = true → (0, 1, n) ∈ running.claims)) ∧
    ((12 : Nat).testBit 3 = true ∧ ¬(0, 1, 3) ∈ running.claims) ∧
    ((0, 0, 0) ∈ running.claims ∧ (0, 0, 1) ∈ running.claims ∧ (0, 0, 2) ∈ running.claims ∧ (0, 1, 2) ∈ running.claims) ∧
    (let s : State := { matrixState running [] with slotTag := [(0, 9), (1, 8), (2, 7)] }
     slotTagOf s 0 0 = some 8 ∧ slotTagOf s 0 1 = some 7 ∧ slotTagOf s 0 2 = some 6 ∧ slotTagOf s 0 3 = none) ∧
    (TagsPair false 8 7 ∧ TagsPair false 2 2 ∧ TagsPair true 5 5 ∧ TagsPair true 3 4 ∧ ¬TagsPair false 5 5 ∧ ¬TagsPair true 2 2) ∧
    (let w := queued (.mload 0 0 1 2 1 1)
     w.xa % 16 = 0 ∧ (BitVec.ofNat 32 w.xs).toInt % 16 = 0 ∧ rowCount w.xs = 1 ∧ w.done = 0 ∧ w.xa < 2 ^ 32 ∧
     (queuedAt (.mload 0 0 1 2 1 1) 0x28 0x100000100).xa % 16 ≠ 0 ∧
     cellAt [7] 0 0x50000 0 (rowAddr w 1 0) 256 = some (cell0 + 0x20) ∧
     cellAt [7] 0 0x50000 0 (rowAddr w 1 0) (128 * elemSize 0) = some (cell0 + 0x20)) ∧
    (let w := queuedAt (.mload 0 0 1 2 1 0) 0x10000 0x200000100
     let s := matrixState running [w]
     rowCount w.xs = 2 ∧ w.tag = 0 ∧
     (∀ r, r < 2 → ∀ p, p < 16 → let va := (rowAddr w 0 r + 16 * p) % 2 ^ 64
       checkAt s (engineUnit 0) 0 0 { need := .load } 16 va = .ok (flat 0) ∧
       checkAt s (engineUnit 0) 0 0 { need := .store, write := true, spec := true } 16 va = .ok (flat 0) ∧
       (flat 0).addr va = 0x10000 + 256 * r + 16 * p ∧ (flat 0).addr va % 128 + 16 ≤ 128)) := by
  refine ⟨by decide, by decide, by decide, by decide, by decide, by decide, ?_, by decide, by decide +kernel⟩
  unfold TagsPair
  and_intros <;> decide

/-- The registers of a texture of one F32 channel, 4 × 4, at 0x10000 (s16 to s23), and of a grid of one level with
RES 3, two features and 16 entries at 0x10000, with its gradient buffer at 0x10100 (s32 to s47). -/
def descRegs : SMap Word := [(16, 0x10000), (19, 0x00030003), (32, 0x10000), (34, 0x400), (36, 0x10100), (40, 3)]
/-- A state whose lane 0 may sample it. -/
def texState (nregs : Nat) (l : Leaf) : State := { memState 1 l with w := { waveOf 1 with s := descRegs, nregs := nregs } }
/-- The accesses of lane 0 of a texture instruction. -/
def texPs (i : Instr) (s : State) (f : V3) : List (Nat × Nat) :=
  let d := descOf s.w f.b 8
  let src := texLam i s.w f d 0 :: (List.range (texInputs i d)).map fun k => (s.w.vreg 0 (f.a + k)).toNat
  (((texTaps i d src).filterMap Tap.addr).eraseDups).map fun a => (a, texelBytes d)

/-- Each texture instruction with its accesses checked; a descriptor that fails its check; too few registers; a page that
may not be read; HGSETTLE with a pair out of range, with no entries, and with a table that may not be written. -/
theorem witness_textures :
    let f : V3 := ⟨20, 10, 16, 0, none⟩
    let s := texState 128 (flat 1)
    texBad (descOf s.w 16 8) = false ∧ s.w.active ≠ 0 ∧ texBad (descOf s.w 32 8) = true ∧
    ((texState 10 (flat 1)).w.nregs ≤ 10 + texInputs (.tex f) (descOf s.w 16 8) - 1) ∧
    (∀ i ∈ [Instr.tex f, .texl f, .texg f, .tld f, .tquery f],
      ((texPs i s f).all fun p => passes (checkGlobal s { need := .load } p.2 p.1)) = true) ∧
    texPs (.tex f) s f = [(0x10000, 4)] ∧
    spansFail (texState 128 { flat 1 with r := false }) { need := .load } [(0x10000, 4)] = some (0x10000, .trap .memPerm) ∧
    (gridBad (descOf s.w 32 16) true = false ∧ 64 ≤ 64 ∧ 63 < 64 ∧ (s.w.sreg 4).toNat = 0) ∧
    (let s : State := { texState 128 (flat 1) with
       w := { waveOf 1 with s := (5, 16) :: (36, 0x20000) :: descRegs }
       tlb := [{ core := 0, ctx := 0, vpn := 1, leaf := { flat 1 with w := false } }
               , { core := 0, ctx := 0, vpn := 2, leaf := { flat 1 with pa := 0x20000 } }] }
     let d := descOf s.w 32 16
     let ask : Ask := { need := .store, write := true, spec := true }
     gridBad d true = false ∧ (0x10000, ask) ∈ settlePages d false 0 16 ∧ checkGlobal s ask 2 0x10000 = .trap .memPerm ∧
     ((settlePages d false 0 16).all fun q => decide (q = (0x10000, ask)) || passes (checkGlobal s q.2 2 q.1)) = true) := by
  decide +kernel

/-- An engine's operation of lane 0. -/
def engineOp (i : Instr) (args aux : List Nat) (sp : List Span) : Op :=
  { ctr := 3, i := i, pc := 0x1004, word := 0, lanes := 1, src := [(0, args)], aux := aux, act := 1, spans := [(0, sp)]
    version := 0 }
/-- The state in which it is the only one. -/
def engineState (i : Instr) (args aux : List Nat) (sp : List Span) : State :=
  { texState 128 (flat 1) with w := { waveOf 1 with s := descRegs, ops := [engineOp i args aux sp] } }

theorem engine_alone (i : Instr) (args aux : List Nat) (sp : List Span)
    (h : ∀ p ∈ sp, p.leaf.cached = false ∧ p.leaf.addr p.va % 128 + p.n ≤ 128 ∧ p.leaf.addr p.va + p.n ≤ 0x1F00000000) :
    EngineAlone (engineState i args aux sp) (engineOp i args aux sp) 0 sp :=
  ⟨rfl, rfl, rfl, by decide +kernel, rfl, rfl, rfl, rfl, rfl, rfl, rfl, BitVec.getLsbD_zero, rfl, rfl, rfl, fun p hp =>
    ⟨(h p hp).1, rfl, rfl, nobit _, (h p hp).2.1, (h p hp).2.2⟩⟩

/-- The span of an access of a page that is not cached. -/
def spanAt (va n : Nat) : Span := ⟨va, n, flat 1, []⟩

/-- Texture and grid results: a texel, a missing one, no access; the gradients of a lane whose additions all fit, with a
zero gradient; a settlement of the whole table, whose every address translates to itself. -/
theorem witness_texture_results :
    (∀ i args aux, EngineAlone (engineState i args aux [spanAt 0x10000 4]) (engineOp i args aux [spanAt 0x10000 4]) 0
      [spanAt 0x10000 4]) ∧
    (let d := descOf (texState 128 (flat 1)).w 16 8
     tldAddr d (fun _ => 0) = some 0x10000 ∧ tldAddr d (fun _ => -1) = none ∧ 124 + 2 ^ 2 ≤ 128) ∧
    (let d := descOf (texState 128 (flat 1)).w 32 16
     let adds := laneAdds d [0, 0, 0, 0]
     gridBad d true = false ∧ gridGbase d = 0x10100 ∧ gridWords d = 2 ∧ adds.length = 8 ∧
     (∀ a ∈ adds, a.2.1 < gridF d ∧ a.2.2.1 = 0 ∧ a.1 < 16)) := by
  refine ⟨fun i args aux => engine_alone i args aux _ ?_, by decide +kernel, by decide +kernel⟩
  intro p hp
  have : p = spanAt 0x10000 4 := by simpa using hp
  subst this
  decide +kernel

/-- An empty memory reads as 0. -/
theorem memzero (a n : Nat) : readMem [] a n = 0 := by
  induction n generalizing a with
  | zero => rfl
  | succ n ih =>
    have h : readByte [] a = 0 := rfl
    simp [readMem, h, ih]

/-- The accesses of a scatter of a lane at the origin. -/
def scatSpans : List Span :=
  spanAt 0x10100 16 :: [0, 1, 4, 5].flatMap fun e => [spanAt (0x10200 + 32 * e) 16, spanAt (0x10210 + 32 * e) 16]

theorem witness_scatter :
    let d := descOf (texState 128 (flat 1)).w 32 16
    let i : Instr := .hgscat ⟨20, 10, 32, 0, none⟩
    let s := engineState i [0, 0, 0, 0] [d] scatSpans
    EngineAlone s (engineOp i [0, 0, 0, 0] [d] scatSpans) 0 scatSpans ∧
    (∀ a, readBit s.mem (waitCell a) = false) ∧
    (gridGbase d % 256 = 0 ∧ (∃ p ∈ scatSpans, p.va = gridGbase d) ∧
     (∀ p ∈ scatSpans, p.leaf.addr p.va = p.va ∧ p.n = 16)) ∧
    (∀ a ∈ laneAdds d [0, 0, 0, 0], (∃ p ∈ scatSpans, p.va = accumAddr d a.1 a.2.1) ∧
      (scatDelta a.2.2.1 a.2.2.2.1 a.2.2.2.2 0) = (0, false)) ∧
    (∀ e g, accumValue (readMem s.mem (accumAddr d e g) 16) = 0) := by
  refine ⟨engine_alone _ _ _ _ (by decide +kernel), fun _ => nobit _, by decide +kernel, by decide +kernel,
    fun e g => (congrArg accumValue (memzero (accumAddr _ e g) 16)).trans (by decide)⟩

theorem witness_settlement :
    let s : State := { texState 128 (flat 1) with w := { waveOf 1 with s := (4, 0) :: (5, 16) :: descRegs } }
    let d := descOf s.w 32 16
    gridBad d true = false ∧ Active s 0 ∧ (s.w.sreg 4).toNat = 0 ∧ (s.w.sreg 5).toNat = 16 ∧
    16 ≤ (gridNlev d + 1) * 2 ^ gridK d ∧
    (∀ add, ((settlePages d add 0 16).all fun p => passes (checkGlobal s p.2 2 p.1)) = true) ∧
    entryAddr d 16 ≤ gridGbase d ∧ (entryAddr d 0 = 0x10000 ∧ accumAddr d 16 0 = 0x10400) ∧
    ∀ a, 0x10000 ≤ a → a < 0x10400 → a < 0x1F00000000 ∧
      ∃ leaf, xlate s s.w.core s.ctxId a .load = .ok leaf ∧ leaf.cached = false ∧ leaf.addr a = a := by
  refine ⟨by decide +kernel, by decide +kernel, by decide +kernel, by decide +kernel, by decide +kernel, by decide +kernel, by decide +kernel, by decide +kernel, ?_⟩
  intro a h1 h2
  have hv : a / 2 ^ 16 = 1 := by omega
  refine ⟨by omega, flat 1, ?_, rfl, ?_⟩
  · unfold xlate rawLeaf tlbHit tlbEntry
    rw [hv]
    rfl
  · simp only [Leaf.addr, flat, page]
    omega

/-! ### Raster, frames, rays -/

/-- The triangle and tile of the example of R335's section: its vertices in s4 to s15, its tile in s16 to s18. -/
def triRegs (tile : Word) (tb : Word) : SMap Word :=
  [(6, 0x3E800000), (7, 0x3F800000), (8, 0x40800000), (10, 0x3F000000), (11, 0x3F800000), (13, 0x40800000), (14, 0x3F400000)
   , (15, 0x3F800000), (17, tile), (18, tb)]
/-- A wave that issues TRISET. -/
def triState (s : SMap Word) (slots : List RasterSlot) : State :=
  { memState 3 (page 0 false false) with w := { waveOf 3 with s := s }, raster := slots }
/-- The slot of that triangle. -/
def slotOf (num : Nat) : RasterSlot :=
  ⟨0, num, 7, [0, 0, 1024, 0, 0, 1024], [0x3E800000, 0x3F000000, 0x3F400000], [0, 0, 4, 4, 0, 0x1000]⟩

/-- TRISET: a tile whose field is reserved, one that is misaligned, one outside the team's scratch, one in another team's, one
that has its cell, directly and in the window of its own team; vertices that are valid and one with w 0; slots taken, and free from
number 1; accesses that CLR waits for. -/
theorem witness_triset :
    (let s := triState (triRegs 0x00000303 0x1000) []
     s.w.active ≠ 0 ∧ (s.w.sreg 17).toNat / 2 ^ 18 = 0 ∧ scratchCell s 0x1000 128 = some (cell0 + 0x1000) ∧
     scratchCell s 0x101000 128 = some (cell0 + 0x1000) ∧ scratchTag (cell0 + 0x1000) = teamTag s ∧
     (readVertex (s.w.sreg 8).toNat (s.w.sreg 9).toNat (s.w.sreg 10).toNat (s.w.sreg 11).toNat).map (fun v => (v.x, v.y)) =
       some (1024, 0) ∧ s.w.ops = [] ∧
     teamTag s = 7 ∧ (∀ r ∈ s.raster, ¬(r.core = s.w.core ∧ r.num = 0))) ∧
    ((BitVec.ofNat 32 0x00040303).toNat / 2 ^ 18 ≠ 0 ∧ 0x1004 % 8 ≠ 0 ∧
     scratchCell (triState (triRegs 0x00000303 0x4FFF8) []) 0x4FFF8 128 = none) ∧
    (let s : State := { triState (triRegs 0x00000303 0x200000) [] with cohorts := [{ Machine.seatCohort 7 with tags := [7, 8] }] }
     scratchCell s 0x200000 128 = some (8 * 2 ^ 28) ∧ scratchTag (8 * 2 ^ 28) ≠ teamTag s) ∧
    (readVertex 0 0 0 0).isNone = true ∧
    (let s := triState (triRegs 0x00000303 0x1000) ((List.range 32).map slotOf)
     ∀ k, k < 32 → ∃ r ∈ s.raster, r.core = s.w.core ∧ r.num = k) ∧
    (let s := triState (triRegs 0x00000303 0x1000) [slotOf 0]
     (∃ r ∈ s.raster, r.core = s.w.core ∧ r.num = 0) ∧ ∀ r ∈ s.raster, ¬(r.core = s.w.core ∧ r.num = 1)) ∧
    ((∃ t, t < 16 ∧ (tilePoint [0, 0, 4, 4, 0, 0x1000] t).1 ≤ 1024) ∧ (1024 : Int) * 1024 - 0 * 0 ≠ 0) ∧
    (let o := opOf (.lds ⟨10, 6, 0, 0, none⟩) 0 1 { flat 0 with pa := cell0 + 0x107C } 0x107C [(0, 0)]
     o.perf ≠ o.lanes ∧ onScratch o.i = true ∧ ∃ a ∈ o.sites, a.2 < cell0 + 0x1000 + 128 ∧ cell0 + 0x1000 < a.2 + 16) ∧
    (let o := opOf (.ld ⟨10, 4, 0, 0, some { scope := 4, order := 1 }⟩) 0 1 (flat 0) 0x10000 [(0, 0)]
     o.perf ≠ o.lanes ∧ o.ctr = 0 ∧ acquires (orderOf o.i).1 = true) := by decide

/-- RAST: a DONE token, a slot that is free, one of the team at its GEN, one of an older GEN. -/
theorem witness_rast :
    (125 + 3 ≤ 128 ∧ 7 < 8) ∧
    (let s : State := { triState [(20, 0x80000000)] [] with w := { waveOf 3 with s := [(20, 0x80000000)] } }
     s.w.active ≠ 0 ∧ 2 ^ 31 ≤ (s.w.sreg 20).toNat) ∧
    (let s : State := { triState [(20, 0x00800000)] [slotOf 0] with rasterGen := [(0, 1)] }
     (s.w.sreg 20).toNat < 2 ^ 31 ∧ s.raster.find? (fun x => x.core == s.w.core && x.num == 0) = some (slotOf 0) ∧
     (slotOf 0).owner = teamTag s ∧ SMap.get 0 s.rasterGen 0 = (s.w.sreg 20).toNat / 2 ^ 23 % 256 ∧
     SMap.get 0 s.rasterGen 0 ≠ 2 ∧ (∀ r ∈ s.raster, ¬(r.core = s.w.core ∧ r.num = 1)) ∧
     s.w.on = true ∧ s.w.ended = false ∧ s.w.ops = [] ∧ (∀ l, l < 64 → Active s l → s.w.exited.getLsbD l = false)) := by decide

/-- A mesh of one triangle in memory: its record at 0x10000, its indices at 0x10040, its vertices at 0x10100, its
attributes at 0x10200, one of each vertex. -/
def meshMem : List Host.Cell :=
  writeMem [] 0x10000 32 (0x10100 + 0x10040 * 2 ^ 64 + 0x10200 * 2 ^ 128 + 1 * 2 ^ 192 + 1 * 2 ^ 224)
/-- A wave whose lane 0 holds a visibility word in v6, v7, with the records' address in s24, s25. -/
def attrState (vis : Word) : State :=
  { memState 1 (flat 1) with mem := meshMem, w := { waveOf 1 with s := [(24, 0x10000)], v := [(6, vis), (7, vis)] } }

theorem witness_attributes :
    let f : V3 := ⟨121, 6, 8, 1, some { c := 24 }⟩
    let s := attrState 0
    (f.d + 3 + f.attrRegs ≤ 128 ∧ Single s 0 ∧ (s.w.vpair 0 f.a).toNat = 0) ∧
    ((attrState 0xFFFFFFFF).w.vpair 0 f.a).toNat = 2 ^ 64 - 1 ∧
    ((s.w.spair f.x.c).toNat = 0x10000 ∧ s.pending = [] ∧ s.updates = [] ∧ s.l1 = [] ∧ s.poison = [] ∧ s.ecc = []) ∧
    (∀ k, k < 16 → (0x10000 + 4 * k) % 4 = 0 ∧ readBit s.mem (waitCell (0x10000 + 4 * k)) = false ∧
      checkGlobal s { need := .load } 4 (0x10000 + 4 * k) = .ok (flat 1) ∧ (flat 1).addr (0x10000 + 4 * k) = 0x10000 + 4 * k) ∧
    (let rec_ := joinWords (fun k => readMem s.mem (0x10000 + 4 * k) 4) 16
     meshBad rec_ 0 = false ∧ meshBad rec_ 1 = true ∧ rec_ / 2 ^ 64 % 2 ^ 64 = 0x10040 ∧ meshNattr rec_ = 1 ∧
     vertexAddr rec_ 0 = 0x10100 ∧ attrAddr rec_ 0 0 = 0x10200) ∧
    (∀ k, k < 64 → checkGlobal s { need := .load } 4 (0x10040 + 4 * k) = .ok (flat 1) ∧
      (flat 1).addr (0x10040 + 4 * k) = 0x10040 + 4 * k ∧ readBit s.mem (waitCell (0x10040 + 4 * k)) = false) ∧
    checkGlobal s { need := .load } 4 0x10200 = .ok (flat 1) ∧ (flat 1).cached = false := by
  refine ⟨⟨by decide, ⟨rfl, rfl, by decide, rfl, rfl, by decide, rfl⟩, by decide⟩, by decide, ⟨by decide, rfl, rfl, rfl, rfl, rfl⟩, ?_⟩
  simp only [checkGlobal]
  decide +kernel

/-- A context whose egress ring of 16 records stands at 0x40000, and which may send to node 3. -/
def frameContext (append take : Nat) : Context :=
  { Machine.seatContext with egressPa := 0x40000, fabric := 8, append := append, take := take }
/-- A surface of one pixel of 4 bytes at 0x10000 with a pitch of 256, for node 3, in s8 to s13. -/
def frameRegs (rest : SMap Word) : SMap Word := [(8, 0x10000), (11, 0x100), (12, 3)] ++ rest
/-- Its state. -/
def frameState (version : Nat) (c : Context) : State :=
  { w := { waveOf 3 with s := frameRegs [], version := version }, contexts := [c] }
/-- The record of such a surface, queued, with bits set; the egress engine's TLB holds its page. -/
def queuedFrame (base extra : Nat) : State :=
  { frameState 0 (frameContext 0 0) with
    mem := writeMem [] 0x40000 64 (base + 0x100 * 2 ^ 96 + 3 * 2 ^ 128 + 2 ^ 256 + extra)
    tlb := [{ core := egressUnit, ctx := 0, vpn := 1, leaf := flat 0 }] }

theorem witness_frames :
    (let s := frameState 0 (frameContext 15 0)
     let d := descOf s.w 8 6
     s.context s.w.ctx = some (frameContext 15 0) ∧ s.w.active ≠ 0 ∧
     ¬(2 < d / 2 ^ 92 % 16 ∨ d % 256 ≠ 0 ∨ d / 2 ^ 96 % 2 ^ 32 % 256 ≠ 0 ∨
       d / 2 ^ 96 % 2 ^ 32 < (d / 2 ^ 64 % 2 ^ 14 + 1) * (if d / 2 ^ 92 % 16 = 1 then 8 else 4) ∨
       d / 2 ^ 144 % 2 ^ 16 ≠ 0 ∨ (frameContext 15 0).fabric.testBit (d / 2 ^ 128 % 2 ^ 8) = false ∨ (frameContext 15 0).egressPa = 0) ∧
     (∀ o ∈ s.w.ops, o.perf = o.lanes ∨ o.ctr = 2) ∧ s.pending = [] ∧ s.updates = [] ∧
     (let at_ := 0x40000 + 64 * 15
      readMem s.mem (at_ + 32) 1 % 8 ≠ 1 ∧ readMem s.mem (at_ + 32) 1 % 8 ≠ 2 ∧ at_ % 64 = 0 ∧ at_ + 64 ≤ 0x1F00000000 ∧
      readBit s.mem (waitCell at_) = false)) ∧
    (frameState 0 Machine.seatContext).contexts.all (fun c => c.egressPa == 0) = true ∧
    (let c : Context := { frameContext 0 0 with tags := [(2, { state := 1, depth := 1 })] }
     let s := frameState 2 c
     s.w.version ≠ 0 ∧ (tagOf s s.w.ctx 2).state = 1 ∧ logUsed s s.w.ctx + 1 ≤ 2 ^ c.vlogLog2 ∧
     logsPending s s.w.leader s.nextId = false ∧ (∀ x ∈ s.logs, x.num < s.nextId) ∧
     (let o : Op := { opOf (.st ⟨10, 4, 0, 0, none⟩) 1 1 (page 0 false false) 0x10000 [(0, 7)] with version := 2 }
      logsPending { s with w := { s.w with ops := [o] } } s.w.leader s.nextId = true)) ∧
    (let s := queuedFrame 0x10000 0
     let u := setFrameState 0 0 2 0 s
     (frameContext 0 0).id = 0 ∧ readMem s.mem (0x40000 + 32) 1 % 8 = 1 ∧ s.plat.frames = [] ∧ s.updates = [] ∧
     readBit s.mem (waitCell 0x40000) = false ∧
     (let d := readMem s.mem 0x40000 64
      d / 2 ^ 144 % 2 ^ 16 = 0 ∧ d / 2 ^ 259 % 2 ^ 13 = 0 ∧ d / 2 ^ 280 = 0 ∧ d % 2 ^ 64 = 0x10000 ∧
      d / 2 ^ 96 % 2 ^ 32 = 0x100 ∧ d / 2 ^ 64 % 2 ^ 14 + 1 = 1 ∧ d / 2 ^ 78 % 2 ^ 14 + 1 = 1 ∧ d / 2 ^ 128 % 2 ^ 8 = 3) ∧
     (match xlate u egressUnit 0 0x10000 .load with | .ok l => decide (l = flat 0) | _ => false) = true ∧ s.poison = [] ∧ s.ecc = [] ∧
     routeUp s 3 = false ∧ routeUp { s with plat := { s.plat with config := { peers := [3] } } } 3 = true) ∧
    (readMem (queuedFrame (2 ^ 52) 0).mem 0x40000 64 % 2 ^ 64 = 2 ^ 52 ∧
     readMem (queuedFrame 0x10000 (2 ^ 511)).mem 0x40000 64 / 2 ^ 280 ≠ 0 ∧
     readMem (queuedFrame 0x10000 (2 ^ 144)).mem 0x40000 64 / 2 ^ 144 % 2 ^ 16 = 1) ∧
    (let x : Frame := ⟨4, 0, 0, false, 3, []⟩
     let s : State := { frameState 0 (frameContext 0 0) with plat := { frames := [x] } }
     s.plat.frames = [x] ∧ s.context x.ctx = some (frameContext 0 0) ∧ x.repeated = false ∧ s.plat.held = [] ∧ s.updates = []) := by
  and_intros <;> decide +kernel

/-- Ray operands: entries of each type, a malformed one, and a bit of the trail. -/
theorem witness_ray_issue :
    (entBad (0x10000 + 1) = false ∧ (0x10000 + 1) % 4 = 1 ∧ entBad (0x10000 + 2) = false ∧ entBad (0x10000 + 3) = false ∧
      entBad 8 = true) ∧
    (let s := memState 1 (flat 1)
     ((List.range 8).all fun k => passes (checkGlobal s { need := .load } 16 (0x10000 + 16 * k))) = true ∧ s.w.active ≠ 0) ∧
    (let e := 15 * 2 ^ 54 + 0x10001; e % 4 = 1 ∧ e / 2 ^ 54 % 16 = 15) ∧
    (let s : State := { memState 1 (flat 1) with w := { waveOf 1 with v := [(40, 4)] } }
     (s.w.vpair 0 40).toNat / 2 ^ (4 * 0) / 4 % 2 = 1) := by decide +kernel

/-- The accesses of a record of n pieces at 0x10000. -/
def raySpans (n : Nat) : List Span := (List.range n).map fun k => spanAt (0x10000 + 16 * k) 16

/-- RBOX of an empty node, RTRI of a leaf of one triangle, RXFM of an instance, and each of an entry of another type; a
node with a malformed child. -/
theorem witness_ray_results :
    (∀ i args, EngineAlone (engineState i args [] (raySpans 8)) (engineOp i args [] (raySpans 8)) 0 (raySpans 8)) ∧
    (∀ i args, EngineAlone (engineState i args [] (raySpans 4)) (engineOp i args [] (raySpans 4)) 0 (raySpans 4)) ∧
    (entType 0x10001 = 1 ∧ entType 0x10002 = 2 ∧ entType 0x10003 = 3 ∧ entAddr 0x10001 = 0x10000) ∧
    (nodeBad 0 = false ∧ nodeBad (8 * 2 ^ 768) = true ∧ 0x10002 / 4 % 16 = 0 ∧ (0 : Nat) / 2 ^ 322 % 2 ^ 190 = 0) ∧
    (instBad (0x10001 * 2 ^ 384) = false ∧ (raySpans 4).length = 4 ∧ (116 + 7 < 124 ∧ 124 + 4 ≤ 128 ∧ 117 + 11 ≤ 128)) :=
  ⟨fun i args => engine_alone i args [] _ (by decide +kernel), fun i args => engine_alone i args [] _ (by decide +kernel), by decide +kernel,
   by decide +kernel, by decide +kernel⟩

/-- Lane 0 with a short stack at v20 (its state word in v36, its spill base in v37) and an entry in v4, v5. -/
def stackState (word base : Word) (entry : Word) : State :=
  { memState 1 (flat 1) with w := { waveOf 1 with v := [(4, entry), (36, word), (37, base)] } }

theorem witness_ray_stacks :
    (let s := stackState 0 0 0x10001
     (108 + 19 < 128) ∧ (s.w.vpair 0 4).toNat = 0x10001 ∧ entBad 0x10001 = false ∧ stackBad (s.w.vreg 0 36).toNat = false ∧
     PushesFit [0x10001] (s.w.vreg 0 36).toNat) ∧
    (PushesFit [1, 2, 3] (5 * 8) ∧ ¬PushesFit [1, 2, 3] (6 * 8) ∧ PushesFit [1, 2, 3] (8 * 8 + 2 * 128) ∧ stackBad (9 * 8) = true) ∧
    (let s := stackState (8 * 8 + 128) 0 0x10001
     let v := (s.w.vreg 0 36).toNat
     Single s 0 ∧ stackBad v = false ∧ v / 8 % 16 = 8 ∧ v / 128 % 4 = 1 ∧ v / 2 ^ 16 < 65535 ∧
     scratchCell s (((s.w.vreg 0 37).toNat + 8 * (v / 2 ^ 16)) % 2 ^ 32) 8 = some cell0) ∧
    (let v := (stackState 0xFFFF00C0 0 1).w.vreg 0 36; v.toNat / 2 ^ 16 = 65535 ∧ v.toNat / 8 % 16 = 8 ∧ stackBad v.toNat = false) ∧
    (((stackState (8 * 8 + 128) 4 1).w.vreg 0 37).toNat + 8 * 0) % 2 ^ 32 % 8 ≠ 0 ∧
    (let s := stackState (1 * 2 ^ 16 + 128) 0 0
     let v := (s.w.vreg 0 36).toNat
     s.w.ops = [] ∧ stackBad v = false ∧ v / 8 % 16 = 0 ∧ v / 128 % 4 = 1 ∧ v / 2 ^ 16 ≠ 0 ∧
     scratchCell s (((s.w.vreg 0 37).toNat + 8 * (v / 2 ^ 16 - 1)) % 2 ^ 32) 8 = some cell0 ∧
     (let o := opOf (.sts ⟨10, 6, 0, 0, none⟩) 1 1 { flat 0 with pa := cell0 + 4 } 4 [(0, 0)]
      o.perf ≠ o.lanes ∧ onScratch o.i = true ∧ ∃ a ∈ o.sites, a.2 < cell0 + 8 ∧ cell0 < a.2 + 16)) ∧
    (stackBad (2 * 128 + 512) = false ∧ (2 * 128 + 512) / 512 % 2 = 1) ∧
    (let i : Instr := .rtrail ⟨20, 30, 10, 0, none⟩
     EngineAlone (engineState i [4, 0x10001, 0] [] []) (engineOp i [4, 0x10001, 0] [] []) 0 []) := by
  refine ⟨⟨by decide, by decide, by decide, by decide, .inr (by decide)⟩, ⟨.inr (by decide), ?_, .inl (by decide), by decide⟩,
    ⟨⟨rfl, rfl, by decide, rfl, rfl, by decide, rfl⟩, by decide⟩, by decide, by decide, by decide, by decide, engine_alone _ _ _ _ (by decide)⟩
  intro h
  cases h <;> rename_i h <;> revert h <;> decide

/-- An engine's queue: a word of a cohort that is gone; a word behind another of its context, and behind a move of another
context that is part-way. -/
theorem witness_engine_order :
    (let w : EngineWord := { queued (.mstore 0 0 1 2 1 1 0 0 0) with lost := true }
     (matrixState running [w]).engine = [w] ∧ w.lost = true ∧ rowCount w.xs - w.done = 1) ∧
    (let v := queued (.mzero 0 4)
     let w := queued (.mload 0 0 1 2 1 1)
     (matrixState running [v, w]).engine = [v, w] ∧ v.core = w.core ∧ isMove w.i = true ∧ v.lost = false ∧ w.lost = false ∧
     v.cohort = w.cohort) ∧
    (let v : EngineWord := { queued (.mload 0 0 1 2 1 1) with cohort := 8, started := true }
     isMove v.i = true ∧ v.started = true) := by decide

/-- A feature of a lane's fetch that may be read ahead of the rest. -/
theorem witness_read_ahead (f : V3) :
    EngineAlone (engineState (.hgfetch f) [] [] [spanAt 0x10000 4]) (engineOp (.hgfetch f) [] [] [spanAt 0x10000 4]) 0 [spanAt 0x10000 4] ∧
    (engineOp (.hgfetch f) [] [] [spanAt 0x10000 4]).i = .hgfetch f ∧ (spanAt 0x10000 4).got = [] ∧ 2 * 1 + 2 ≤ (spanAt 0x10000 4).n :=
  ⟨engine_alone _ _ _ _ (by decide +kernel), rfl, rfl, by decide⟩

/-- A leaf of two triangles; a node and an instance record, well formed and malformed. -/
theorem witness_ray_records :
    (∀ i args, EngineAlone (engineState i args [] (raySpans 8)) (engineOp i args [] (raySpans 8)) 0 (raySpans 8)) ∧
    (let e := 0x10006; e % 4 = 2 ∧ e / 4 % 16 + 1 = 2 ∧ entAddr e = 0x10000 ∧
      ((raySpans 8).map fun p => (p.va, p.n)) = (List.range (4 * 2)).map (fun k => (entAddr e + 16 * k, 16))) ∧
    (¬NodeMalformed 0 ∧ NodeMalformed (8 * 2 ^ 768) ∧ ¬InstanceMalformed (0x10001 * 2 ^ 384) ∧ InstanceMalformed 0) := by
  refine ⟨fun i args => engine_alone i args [] _ (by decide +kernel), by decide +kernel, ?_⟩
  unfold NodeMalformed InstanceMalformed EntryMalformed
  exact ⟨by decide +kernel, ⟨0, by decide +kernel⟩, by decide +kernel, by decide +kernel⟩

/-- RSTKP held back by an access of its own lane to the cell of its spill. -/
theorem witness_scratch_held :
    let o := { opOf (.sts ⟨10, 6, 0, 0, none⟩) 1 1 { flat 0 with pa := cell0 + 4 } 4 [(0, 0)] with perf := 0 }
    let s : State := { stackState (8 * 8 + 128) 0 0x10001 with w := { (stackState (8 * 8 + 128) 0 0x10001).w with ops := [o] } }
    let v := (s.w.vreg 0 36).toNat
    s.w.active = laneBit 0 ∧ entBad (s.w.vpair 0 4).toNat = false ∧ (s.w.vpair 0 4).toNat % 4 ≠ 0 ∧ stackBad v = false ∧
    v / 8 % 16 = 8 ∧ v / 128 % 4 = 1 ∧ v / 2 ^ 16 < 65535 ∧
    ((s.w.vreg 0 37).toNat + 8 * (v / 2 ^ 16)) % 2 ^ 32 % 8 = 0 ∧
    scratchCell s (((s.w.vreg 0 37).toNat + 8 * (v / 2 ^ 16)) % 2 ^ 32) 8 = some cell0 ∧
    (o ∈ s.w.ops ∧ onScratch o.i = true ∧ o.lanes.getLsbD 0 = true ∧ o.perf.getLsbD 0 = false ∧
     ∃ a ∈ o.laneSpans 0, a.1 < cell0 + 8 ∧ cell0 < a.1 + a.2) := by decide +kernel

/-! ### Queues, packets, launches -/

/-- A run of a queue program. -/
def aRun (used : Nat) (loop : Option (Nat × Nat × Nat)) : Run := { pc := 2, used := used, loop := loop }
/-- A queue of context 0 on stack 0, whose descriptor stands at 0x10000 and whose ring of 4 slots at 0x10100. -/
def aQueue (run : Option Run) (state : QState) : Queue :=
  { on := true, desc := 0x10000, ring := 0x10100, run := run, state := state, buf := List.replicate 64 0
    windows := [⟨0x10000, 12, true⟩], prog := [0, 0, 0, 0x2F, 0] }
/-- The state in which it is the focused queue; its pages are in the TLB of its command processor. -/
def queueState (q : Queue) (m : List Host.Cell) : State :=
  { q := q, mem := m, contexts := [Machine.seatContext], tlb := [{ core := 644, ctx := 0, vpn := 1, leaf := flat 0 }] }

/-- Programs: a run with instructions left, and one without; a loop; a READY queue, a notified one whose counts agree,
differ, and lie beyond the ring; a refused address; a page of the command processor. -/
theorem witness_queue_programs :
    (let s := queueState (aQueue (some (aRun 255 (some (1, 3, 2)))) .ready) []
     Running s (aRun 255 (some (1, 3, 2))) ∧ (aRun 255 (some (1, 3, 2))).loop = some (1, 3, 2) ∧ 60 + 4 ≤ s.q.buf.length ∧
     s.q.reg 3 = 0 ∧ (s.ready.filter fun p => p.stack == s.q.home && p.cls == s.q.cls).length < 1024 ∧
     s.eventRing = none) ∧
    (256 ≤ (aRun 256 none).used) ∧
    (let s : State := { queueState (aQueue (some (aRun 0 none)) .ready) [] with
       queues := [{ aQueue none .idle with num := 5 }], q := { aQueue (some (aRun 0 none)) .ready with c := [(1, 5)] } }
     (s.q.reg 1).toNat % 64 = 5 ∧ s.queues = [] ++ { aQueue none .idle with num := 5 } :: [] ∧ s.q.num ≠ 5) ∧
    (let p : Packet := ⟨0, 0, 0, 0, []⟩
     1024 ≤ ((List.replicate 1024 p).filter fun p => p.stack == 0 && p.cls == 0).length) ∧
    (let s := queueState { aQueue none .idle with notified := true } [(0x1000C, 4)]
     s.q.on = true ∧ s.queues = [] ∧ s.q.notified = true ∧ s.q.run = none ∧ readMem s.mem 0x1000C 4 = 4 ∧
     (4 + 2 ^ 32 - s.q.ridx) % 2 ^ 32 ≤ 2 ^ s.q.ringLog2 ∧ 2 ^ s.q.ringLog2 < (5 + 2 ^ 32 - s.q.ridx) % 2 ^ 32) ∧
    (let s := queueState (aQueue none .ready) []
     s.q.notified = false ∧ s.q.state = .ready ∧ s.q.run = none ∧ s.q.ring + 64 * 3 = 0x101C0) := by
  refine ⟨⟨⟨rfl, rfl, by decide⟩, rfl, by decide, by decide, by decide, rfl⟩, by decide, ⟨by decide, rfl, by decide⟩,
    by decide +kernel, by decide, by decide⟩

/-- An access of the command processor that its page permits, at every place of the page that one sector holds, in every
state whose TLBs hold that page and nothing else, and that no error and no reduction touches. -/
theorem cp_page_in (s : State) (va n : Nat) (need : Need) (h : va / 2 ^ 16 = 1) (hn : 0 < n) (hs : va % 128 + n ≤ 128)
    (hx : need.x = false) (hm : readBit s.mem (waitCell va) = false) (hc : s.plat.config.node = 0) (hp : s.poison = [])
    (he : s.ecc = []) (hu : s.updates = []) (hl : s.tlb = [{ core := 644, ctx := 0, vpn := 1, leaf := flat 0 }]) :
    CpHeld s 0 0 va n need (flat 0) := by
  have ha : (flat 0).addr va = va := by simp only [Leaf.addr, flat, page]; omega
  have ht : tlbHit s (cpUnit 0) 0 va = some (flat 0) := by
    unfold tlbHit tlbEntry
    rw [hl, h]
    rfl
  refine ⟨⟨hn, by omega, by omega, ?_, ⟨by rw [hp]; rfl, by rw [he]; rfl, ?_, ?_, ?_⟩, hu⟩, ht⟩
  · unfold xlate rawLeaf
    rw [ht]
    simp [permit, flat, page, hx, hc]
  · rw [ha]; exact hm
  · rw [ha]; exact hs
  · rw [ha]; omega

/-- The same where only a queue and memory differ from reset. -/
theorem cp_page (q : Queue) (m : List Host.Cell) (va n : Nat) (need : Need) (h : va / 2 ^ 16 = 1) (hn : 0 < n)
    (hs : va % 128 + n ≤ 128) (hx : need.x = false) (hm : readBit m (waitCell va) = false) :
    CpHeld (queueState q m) 0 0 va n need (flat 0) := cp_page_in _ va n need h hn hs hx hm rfl rfl rfl rfl rfl

/-- A queue's counts and its packet are on a page of the command processor; a packet at 2^52 is on none. -/
theorem witness_queue_pages :
    CpPage (queueState { aQueue none .idle with notified := true } []) 0 0 (0x10000 + 12) 4 .load (flat 0) ∧
    CpPage (queueState (aQueue none .ready) []) 0 0 (0x10100 + 64 * (3 % 2 ^ 2)) 64 .load (flat 0) ∧
    2 ^ 52 ≤ (({ aQueue none .ready with ring := 2 ^ 52 } : Queue).ring + 64 * (0 % 2 ^ 2)) % 2 ^ 64 :=
  ⟨(cp_page _ _ _ _ _ (by decide) (by decide) (by decide) rfl (nobit _)).1,
   (cp_page _ _ _ _ _ (by decide) (by decide) (by decide) rfl (nobit _)).1, by decide⟩

/-- Memory words: a window access, a free and an armed counter pair, DONE; each at the last place of a sector. -/
theorem witness_queue_memory :
    (∀ need : Need, need.x = false → CpHeld (queueState (aQueue (some (aRun 0 none)) .ready) []) 0 0 0x10078 8 need (flat 0)) ∧
    (windowAt (aQueue none .ready) 0 1 0x78 8 = 0x10078 ∧ (2 ^ 52 ≤ windowAt { aQueue none .ready with windows := [⟨2 ^ 52, 12, true⟩] } 0 1 0 4)) ∧
    (let x : ArmedSlot := ⟨2, 7, ⟨0, 0, 2, 0, []⟩, false⟩
     let handle := 2 ^ 31 + 3 * 2 ^ 16 + 2 * 2 ^ 12 + 7
     handle % 2 ^ 12 = x.slot ∧ handle / 2 ^ 12 % 4 = x.stack ∧ x.due = false ∧
     SMap.get 0 [(4096 * 2 + 7, 3)] (4096 * 2 + 7) = handle / 2 ^ 16 % 2 ^ 15) ∧
    (let all := (List.range 4096).map fun k => (⟨0, k, ⟨0, 0, 0, 0, []⟩, false⟩ : ArmedSlot)
     all.length = 4096) := by
  refine ⟨fun need hx => cp_page _ _ _ _ need (by decide) (by decide) (by decide) hx (nobit _), by decide, by decide, ?_⟩
  exact (List.length_map _).trans List.length_range

/-- A packet of a type with an OPTIONS byte. -/
def packetOf (type options : Nat) (rest : List Nat) : Packet := ⟨0, 0, 0, 0, [type, options] ++ rest⟩
/-- The state in which it is the only one ready; its context holds tag 1 LIVE, 2 SQUASHED. -/
def readyState (p : Packet) : State :=
  { queueState (aQueue none .idle) [] with
    ready := [p]
    contexts := [{ Machine.seatContext with tags := [(1, { state := 1, depth := 1 }), (2, { state := 2 })] }] }
/-- A grid of one group whose kernel header stands at 0x10000. -/
def gridPacket (version : Nat) : Packet := packetOf 1 version [0, 0, 1, 0, 0, 0, 1, 0, 1, 0, 0, 0, 0, 0, 0, 0, 1]
/-- A good kernel header: magic, width 8, one team of 8 threads. -/
def goodHeader : List Nat :=
  [0x4B, 0x5A, 1, 0, 64, 0, 0, 0, 1, 0, 8, 0, 1] ++ List.replicate 31 0 ++ [1] ++ List.replicate 19 0

/-- Every kind of packet is the only one ready at stack 0; the versions it may name; good and bad fields; a pending fault
that a resolution ends; a completion at each stage. -/
theorem witness_packets :
    (let is := fun (p : Packet) => match nextWork (readyState p) 0 with | some (.packet q) => decide (q = p) | _ => false
     is (packetOf 0 0 []) = true ∧ is (packetOf 6 0 []) = true ∧ is (gridPacket 0) = true ∧ is (packetOf 2 0 []) = true ∧
     is (packetOf 3 0x11 []) = true ∧ is (packetOf 4 0 []) = true ∧ is (packetOf 5 0 []) = true) ∧
    (let s := readyState (gridPacket 0)
     (tagOf s 0 (mergedTag s 0 0)).state = 1 ∧ (tagOf s 0 (mergedTag s 0 2)).state = 2 ∧ (tagOf s 0 (mergedTag s 0 3)).state = 0 ∧
     launchBad (gridPacket 0) = false ∧ launchBad (packetOf 1 0 []) = true ∧ (gridPacket 0).khdr = 0x10000 ∧ copyCore s (packetOf 2 0 []) 0 = true ∧
     kernelRefusal 0x10000 goodHeader false = 0 ∧ kernelRefusal 0x10000 [] false ≠ 0 ∧ goodHeader.length = 64) ∧
    (field (packetOf 3 0x11 []).bytes 1 1 / 16 % 4 = 1 ∧ field (packetOf 3 0x11 []).bytes 0 48 / 2 ^ 14 = 0 ∧
     (packetOf 3 0x11 []).version = 1 ∧ children (readyState (packetOf 3 0x11 [])) 0 1 = []) ∧
    (let r : FaultRec := ⟨0, [], 9, 0, true, true⟩
     let s : State := { readyState (packetOf 5 0 [0, 0, 9]) with faults := [r], w := { waveOf 1 with hold := .fault (some (.ld ⟨10, 4, 0, 0, none⟩)) 9 0x10000 } }
     field (packetOf 5 0 [0, 0, 9]).bytes 4 4 = 9 ∧ field (packetOf 5 0 [0, 0, 9]).bytes 1 1 % 4 = 0 ∧ s.faults = [r] ∧
     r.replay = true ∧ r.written = true ∧ r.ctx = 0 ∧ s.waves = [] ∧ s.streams = [] ∧ s.engine = [] ∧ s.w.on = true) ∧
    (let p := packetOf 4 0 []
     field p.bytes 0 8 / 2 ^ 13 = 0 ∧ field p.bytes 24 24 = 0 ∧ field p.bytes 8 8 % 65536 = 0 ∧ field p.bytes 16 8 % 65536 = 0 ∧
     field (packetOf 4 0 [0, 0, 0, 0, 0, 0, 1]).bytes 8 8 % 65536 = 1 ∧ field (packetOf 4 32 []).bytes 0 8 / 2 ^ 13 ≠ 0) ∧
    (let c : Completion := ⟨gridPacket 0, 0, 0, 0, 0, []⟩
     c.cohorts = [] ∧ c.version = 0 ∧ c.packet.statusa = 0 ∧ c.packet.done = 0 ∧
     (packetOf 0 0 (List.replicate 54 0 ++ [0, 0, 1])).statusa = 0x10000 ∧ (packetOf 0 0 (List.replicate 46 0 ++ [0, 0, 1])).done = 0x10000) ∧
    (let p := packetOf 4 0 (List.replicate 14 0 ++ [0, 0, 1])
     let c : Completion := ⟨p, 0, 0, 0, 8, []⟩
     let x : Pending := { stored 1 0 0 false with va := 0xFFFF }
     c.stage = 8 ∧ c.cohorts = [] ∧ c.version = 0 ∧ x.ctx = p.ctx ∧ field p.bytes 8 8 ≤ x.va ∧ x.va < field p.bytes 8 8 + field p.bytes 16 8) := by
  decide +kernel

/-- The kernel header of a grid, a status word and a counter are on a page of the command processor. -/
theorem witness_packet_pages (p : Packet) (c : Completion) :
    CpPage (readyState p) 0 0 0x10000 64 .load (flat 0) ∧
    CpPage { queueState (aQueue none .idle) [] with completions := [c] } 0 0 0x10000 4 .store (flat 0) ∧
    CpPage { queueState (aQueue none .idle) [] with completions := [{ c with stage := 1 }] } 0 0 0x10000 8 .rmw (flat 0) :=
  ⟨(cp_page_in _ _ _ _ (by decide) (by decide) (by decide) rfl (nobit _) rfl rfl rfl rfl rfl).1,
   (cp_page_in _ _ _ _ (by decide) (by decide) (by decide) rfl (nobit _) rfl rfl rfl rfl rfl).1,
   (cp_page_in _ _ _ _ (by decide) (by decide) (by decide) rfl (nobit _) rfl rfl rfl rfl rfl).1⟩

/-- A launch of one group, about to be placed, or with a cohort that waits for relaunch. -/
def aLaunch (waiting : List Waiting) : Launch :=
  { Machine.seatLaunch 7 with
    kernel := { Machine.seatKernel with regs := 8, matrix := false }, nextGroup := 0, waiting := waiting }
/-- The state in which it is the only launch. -/
def launchState (waiting : List Waiting) : State := { queueState (aQueue none .idle) [] with launches := [aLaunch waiting] }

/-- A cohort to place at its first and at its restart, on the lowest cluster; a watchdog before and at its time; a pool
with nothing to consume, with a record that is full, and with an empty one. -/
theorem witness_launches :
    (let s := launchState []
     (∀ m ∈ s.launches, m.drained = false) ∧ blockedRealtime s 0 = none ∧ s.launches = [aLaunch []] ∧
     (match nextWork s 0 with | some (.cohort l x) => decide (l = aLaunch [] ∧ x.group = 0 ∧ x.formed = none ∧ x.version = 0) | _ => false) = true ∧
     placeFor s (keyStacks s (aLaunch []).packet.key) (aLaunch []).kernel = some (0, [0]) ∧
     (tagOf s 0 (mergedTag s 0 0)).state = 1 ∧ (aLaunch []).nextGroup + 1 = (aLaunch []).count ∧ (aLaunch []).kernel.width ≤ 64) ∧
    (let x : Waiting := ⟨0, 0x1100, 1, 0, none⟩
     let s := launchState [x]
     (match nextWork s 0 with | some (.relaunch l y) => decide (l = aLaunch [x] ∧ y = x) | _ => false) = true ∧
     placeFor s (keyStacks s (aLaunch [x]).packet.key) (aLaunch [x]).kernel = some (0, [0]) ∧ mergedTag s 0 x.version = x.version) ∧
    (let x : Watch := ⟨0, 0, 7, 5⟩
     [x][0]? = some x ∧ (4 : Nat) < x.until_ ∧ x.until_ ≤ 5) := by decide +kernel

/-- A notified queue with a run in progress, at the end of its run, and one that is suspended; the pages that its WIDX and its
copy of RIDX lie on; a page it may not write and one that is not mapped; a HANDLE with bit 14 set. -/
theorem witness_queue_notices :
    (let q : Queue := { aQueue (some (aRun 3 none)) .ready with notified := true }
     let s := queueState q (writeMem [] 0x1000C 4 3)
     s.q.on = true ∧ s.queues = [] ∧ s.q.notified = true ∧ s.q.state ≠ .suspended ∧ s.q.state ≠ .faulted ∧
     Running s (aRun 3 none) ∧ (3 + 2 ^ 32 - s.q.ridx) % 2 ^ 32 ≤ 2 ^ s.q.ringLog2 ∧ s.q.widxPa = 0 ∧
     0x10010 + 4 ≤ 0x10100 ∧ 0x1000C + 4 ≤ 0x10010) ∧
    (∀ q m, readBit m (waitCell 0x1000C) = false → CpHeld (queueState q m) 0 0 (0x10000 + 12) 4 .load (flat 0)) ∧
    (∀ q, CpPage (queueState q []) 0 0 (0x10000 + 16) 4 .store (flat 0)) ∧
    ((queueState (aQueue none .suspended) []).q.state = .suspended) ∧
    (let s : State := { queueState (aQueue (some (aRun 0 none)) .ready) [] with
       tlb := [{ core := 644, ctx := 0, vpn := 1, leaf := { flat 0 with w := false } }] }
     (match xlate s (cpUnit 0) 0 0x10008 .store with | .perm _ _ => true | _ => false) = true ∧
     (match xlate (queueState (aQueue none .ready) []) (cpUnit 0) 0 0x20008 .store with
       | .bad _ => true | .replay _ => true | _ => false) = true ∧
     s.faults = [] ∧ s.updates = [] ∧ SMap.get 0 s.faultBase 0 = 0) ∧
    (let handle := 2 ^ 31 + 2 ^ 14; 2 ^ 31 ≤ handle ∧ handle / 2 ^ 14 % 4 ≠ 0) := by
  refine ⟨⟨rfl, rfl, rfl, by decide, by decide, ⟨rfl, rfl, by decide⟩, by decide, rfl, by decide, by decide⟩,
    fun q m hm => cp_page _ _ _ _ _ (by decide) (by decide) (by decide) rfl hm,
    fun q => (cp_page _ _ _ _ _ (by decide) (by decide) (by decide) rfl (nobit _)).1, rfl, by decide +kernel, by decide⟩

/-- A pool launch whose kernel header stands at 0x10000, and whose descriptor at 0x10100 has its ring at 0x10000. -/
def poolPacket (poola : Nat) : Packet :=
  packetOf 1 16 ([0, 0, 0, 0, 0, 0, 0, 0, 0, 0, 0, 0, 0, 0, 0, 0, 1] ++ List.replicate 13 0 ++ toBytes 8 poola)
/-- Its memory: one bin, 2^log2 records. -/
def poolLaunchMem (log2 : Nat) : List Host.Cell :=
  writeMem (writeMem (writeMem (stage [] 0x10000 goodHeader) 0x10100 8 0x10000) 0x10108 8 (0x100 + log2)) 0x10118 4 3
/-- It is the only packet ready. -/
def poolState (poola log2 : Nat) : State := { readyState (poolPacket poola) with mem := poolLaunchMem log2 }

theorem pool_page (poola log2 va n : Nat) (need : Need) (h : va / 2 ^ 16 = 1) (hn : 0 < n) (hs : va % 128 + n ≤ 128)
    (hx : need.x = false) (hm : readBit (poolLaunchMem log2) (waitCell va) = false) :
    CpHeld (poolState poola log2) 0 0 va n need (flat 0) :=
  cp_page_in _ va n need h hn hs hx hm rfl rfl rfl rfl rfl

theorem witness_pool_packets :
    (let p := poolPacket 0x10100
     let header := (List.range 64).map fun k => (readByte (poolLaunchMem 5) (0x10000 + k)).toNat
     let desc := fun (log2 : Nat) => (List.range 64).map fun k => (readByte (poolLaunchMem log2) (0x10100 + k)).toNat
     p.pool = true ∧ launchBad p = false ∧ p.khdr = 0x10000 ∧ p.poola = 0x10100 ∧ p.poola % 64 = 0 ∧ (poolPacket 0x10108).poola % 64 ≠ 0 ∧
     kernelRefusal p.khdr header p.pool = 0 ∧ (match nextWork (poolState 0x10100 5) 0 with | some (.packet q) => decide (q = p) | _ => false) = true ∧
     (flat 0).ver = false ∧ (flat 0).fe = true ∧ field (desc 5) 0 8 = 0x10000 ∧ field (desc 5) 8 1 = 5 ∧ field (desc 5) 9 1 = 1 ∧
     field (desc 5) 10 2 = 0 ∧ ((desc 5).drop 28).all (· == 0) = true ∧ (desc 5).length = 64 ∧ field (desc 5) 24 4 = 3 ∧
     ¬5 ≤ field (desc 4) 8 1) ∧
    CpHeld (poolState 0x10100 5) 0 0 0x10000 64 .load (flat 0) ∧ CpHeld (poolState 0x10100 5) 0 0 0x10100 64 .rmw (flat 0) ∧
    (∀ k, 65536 * k < 32 * 2 ^ 5 → ∃ r, CpHeld (poolState 0x10100 5) 0 0 (0x10000 + 65536 * k) 4 .rmw r ∧ r.fe = true) ∧
    (let s : State := { poolState 0x10100 5 with tlb := [{ core := 644, ctx := 0, vpn := 1, leaf := { flat 0 with fe := false } }] }
     CpHeld s 0 0 (0x10000 + 65536 * 0) 4 .rmw { flat 0 with fe := false }) ∧
    ((2 : Nat) ^ 52 ≤ (packetOf 1 0 (List.replicate 20 0 ++ [16])).khdr ∧
     leafOf (readyState (packetOf 1 0 (List.replicate 16 0 ++ [2]))) (cpUnit 0) 0 0x20000 .load = none) := by
  refine ⟨by decide +kernel, pool_page _ _ _ _ _ (by decide) (by decide) (by decide) rfl (by decide +kernel),
    pool_page _ _ _ _ _ (by decide) (by decide) (by decide) rfl (by decide +kernel), fun k hk => ?_,
    ⟨⟨by decide, by decide, by decide, rfl, ⟨rfl, rfl, by decide +kernel, by decide, by decide⟩, rfl⟩, rfl⟩, by decide +kernel⟩
  obtain rfl : k = 0 := by omega
  exact ⟨flat 0, pool_page _ _ _ _ _ (by decide) (by decide) (by decide) rfl (by decide +kernel), rfl⟩

/-- A commit packet of tag 1 of the family, and its completion while and after its log is replayed. -/
theorem witness_commit_packets :
    (let p := packetOf 3 1 []
     let s : State := { readyState p with contexts := familyState.contexts, w := familyState.w, sectors := familyState.sectors, logs := familyState.logs }
     (match nextWork s 0 with | some (.packet q) => decide (q = p) | _ => false) = true ∧ field p.bytes 0 48 / 2 ^ 14 = 0 ∧
     field p.bytes 1 1 / 16 % 4 = 0 ∧ p.version = 1 ∧ (tagOf s 0 1).state = 1 ∧ s.pending = [] ∧ s.updates = [] ∧ s.completions = [] ∧
     (children s 0 0 = children familyState 0 0 ∧ allWaves s = allWaves familyState ∧ s.st = {} ∧ s.streams = [])) ∧
    (let c : Completion := ⟨packetOf 3 1 [], 0, 0, 0, 16 + 1, []⟩
     let e := familyState.logs.headD { ctx := 0, tag := 0, i := .qdone, va := 0, data := [], core := 0, wave := 0, part := 0, recs := 0, late := false }
     c.stage = 16 + 1 ∧ e.ctx = c.packet.ctx ∧ e.tag = 1) := by decide +kernel

/-- A pool whose descriptor stands at 0x10100: its ring of 32 records at 0x10000, one bin, RIDX 0, and WIDX. -/
def poolMem (widx : Nat) (full : Bool) : List Host.Cell :=
  writeBit (writeMem (writeMem [] 0x10100 8 0x10000) 0x10108 8 (0x105 + widx * 2 ^ 32)) (feCell 0x1001C) full
/-- Its launch. -/
def aPool : Launch := { aLaunch [] with pool := true, poolA := 0x10100 }

theorem witness_pools :
    (let s : State := { queueState (aQueue none .idle) (poolMem 0 false) with launches := [{ aPool with flush := true }] }
     s.launches = [{ aPool with flush := true }] ∧ aPool.pool = true ∧ aPool.bins = [] ∧ s.cohorts = [] ∧ aPool.waiting = [] ∧
     aPool.formedQueue = []) ∧
    (let desc := fun (m : List Host.Cell) => (List.range 64).map fun k => (readByte m (0x10100 + k)).toNat
     field (desc (poolMem 0 false)) 12 4 = 0 ∧ field (desc (poolMem 1 true)) 12 4 = 1 ∧ field (desc (poolMem 1 true)) 16 4 = 0 ∧
     poolRing (desc (poolMem 1 true)) = 0x10000 ∧ poolLog2 (desc (poolMem 1 true)) = 5 ∧ poolBins (desc (poolMem 1 true)) = 1 ∧
     readBit (poolMem 1 true) (feCell 0x1001C) = true ∧ readBit (poolMem 1 false) (feCell 0x1001C) = false ∧
     (flat 0).fe = true ∧ (flat 0).ver = false) ∧
    (aPool.kernel.width ≠ 1 ∧ aPool.status ≠ 3 ∧ aPool.version = 0) ∧
    (∀ m full, let s : State := { queueState (aQueue none .idle) (poolMem m full) with launches := [aPool] }
      m = 1 → full = true → CpHeld s 0 0 0x10100 64 .load (flat 0) ∧ CpHeld s 0 0 0x10000 32 .rmw (flat 0) ∧
        CpHeld s 0 0 0x10110 4 .store (flat 0)) := by
  refine ⟨by decide, by decide +kernel, by decide, fun m full => ?_⟩
  rintro s rfl rfl
  exact ⟨cp_page_in s _ _ _ (by decide) (by decide) (by decide) rfl (by decide +kernel) rfl rfl rfl rfl rfl,
    cp_page_in s _ _ _ (by decide) (by decide) (by decide) rfl (by decide +kernel) rfl rfl rfl rfl rfl,
    cp_page_in s _ _ _ (by decide) (by decide) (by decide) rfl (by decide +kernel) rfl rfl rfl rfl rfl⟩

/-- A state in which one launch has some other cohorts beside it, all without waves. -/
def placeState (l : Launch) (cohorts : List Cohort) : State :=
  { queueState (aQueue none .idle) [] with launches := [l], cohorts := cohorts }
/-- A cohort of another launch, on cluster 5. -/
def otherCohort : Cohort := { Machine.seatCohort 9 with launch := 8, cluster := 5 }

/-- With no waves resident, a cohort of a kernel that core 0 has room for is placed there. -/
theorem places_on (l : Launch) (cohorts : List Cohort) (ht : l.kernel.teams = 1) (hm : l.kernel.matrix = false)
    (hc : l.kernel.column = 0) (h : CoreHolds (placeState l cohorts) l.kernel 0) :
    PlacesOn (placeState l cohorts) 1 l.kernel 0 [0] := by
  refine ⟨⟨by decide, by decide, rfl, by simp [placeState, queueState], by simp [placeState, queueState],
    fun h => absurd hc h, fun h => absurd (hm.symm.trans h) (by decide), by rw [ht]; rfl, ?_⟩, ?_⟩
  · intro r hr
    obtain rfl : r = 0 := by omega
    exact ⟨rfl, List.not_mem_nil, h, fun d _ _ _ => .inr ⟨rfl, Nat.zero_le _⟩⟩
  · exact fun d ds _ => .inr ⟨rfl, Nat.zero_le _⟩

theorem first_work (l : Launch) (cohorts : List Cohort) (hc : l.packet.cls < 4) (hd : l.drained = false)
    (hk : l.packet.key = 0) : FirstWork (placeState l cohorts) 0 l := by
  refine ⟨.head _, by simp [placeState], ?_, by simp [placeState, queueState], hc, by decide, ?_, ?_⟩
  · intro m hm
    rw [show (placeState l cohorts).launches = [l] from rfl, List.mem_singleton] at hm
    exact ⟨hm ▸ hd, .inl (by rw [hm])⟩
  · rw [hk]; show (1 : Nat).testBit 0 = true; decide
  · rw [hk]
    intro q hq
    rw [show (placeState l cohorts).queue (0 / 64) (0 % 64) = some (aQueue none .idle) from rfl] at hq
    obtain rfl := Option.some.inj hq
    decide

/-- A cohort to place at its first, beside a cohort of another launch and alone, for a formed wave, and at its restart; a
kernel that fits nowhere. -/
theorem witness_placements :
    (let l := aLaunch []
     let x : Waiting := { group := l.nextGroup, label := l.kernel.restart, restarts := 0, version := l.version, formed := none }
     let s := placeState l []
     FirstWork s 0 l ∧ mergedTag s l.ctx x.version = x.version ∧ (tagOf s l.ctx x.version).state = 1 ∧ l.kernel.width ≤ 64 ∧
     keyStacks s l.packet.key = 1 ∧ PlacesOn s 1 l.kernel 0 [0] ∧ l.waiting = [] ∧ l.formedQueue = [] ∧ l.pool = false ∧
     l.nextGroup + 1 = l.count) ∧
    (let l := { aLaunch [] with count := 3 }
     FirstWork (placeState l []) 0 l ∧ PlacesOn (placeState l []) 1 l.kernel 0 [0] ∧ (placeState l []).ready = [] ∧
     l.nextGroup < l.count ∧ l.count < l.nextGroup + 16384 ∧
     FirstWork (placeState l [otherCohort]) 0 l ∧ PlacesOn (placeState l [otherCohort]) 1 l.kernel 0 [0] ∧
     otherCohort.launch ≠ l.id ∧ (1 : Nat).testBit (otherCohort.cluster / 8) = true) ∧
    (let f : Formed := ⟨3, [(0x1000, [1, 2, 3, 4, 5, 6])]⟩
     let l := { aLaunch [] with pool := true, formedQueue := [f] }
     FirstWork (placeState l []) 0 l ∧ PlacesOn (placeState l []) 1 l.kernel 0 [0] ∧ f.recs.length ≤ l.kernel.width) ∧
    (let x : Waiting := ⟨0, 0x1100, 1, 0, none⟩
     let l := aLaunch [x]
     FirstWork (placeState l []) 0 l ∧ PlacesOn (placeState l []) 1 l.kernel 0 [0] ∧ l.waiting.head? = some x ∧
     mergedTag (placeState l []) 0 x.version = x.version) ∧
    (let l := { aLaunch [] with kernel := { (aLaunch []).kernel with scratch := 0x60000 }, packet := { Machine.seatPacket with cls := 1 } }
     FirstWork (placeState l []) 0 l ∧ 0 < l.packet.cls ∧ launchWork l ≠ none ∧ ∀ c cs, ¬PlacesOn (placeState l []) 1 l.kernel c cs) := by
  refine ⟨⟨first_work _ _ (by decide) rfl rfl, rfl, rfl, by decide, rfl, places_on _ _ rfl rfl rfl ⟨by decide +kernel, by decide +kernel⟩,
    rfl, rfl, rfl, rfl⟩, ⟨first_work _ _ (by decide) rfl rfl, places_on _ _ rfl rfl rfl ⟨by decide +kernel, by decide +kernel⟩, rfl, by decide, by decide,
    first_work _ _ (by decide) rfl rfl, places_on _ _ rfl rfl rfl ⟨by decide +kernel, by decide +kernel⟩, by decide, by decide⟩,
    ⟨first_work _ _ (by decide) rfl rfl, places_on _ _ rfl rfl rfl ⟨by decide +kernel, by decide +kernel⟩, by decide⟩,
    ⟨first_work _ _ (by decide) rfl rfl, places_on _ _ rfl rfl rfl ⟨by decide +kernel, by decide +kernel⟩, rfl, rfl⟩,
    ⟨first_work _ _ (by decide) rfl rfl, by decide, by decide, fun c cs h => ?_⟩⟩
  obtain ⟨⟨-, -, -, -, -, -, -, -, hr⟩, -⟩ := h
  have h := (hr 0 (by decide)).2.2.1.2.1
  dsimp only at h
  omega

/-- The bins of a pool with two: one that holds the record's PC, one that is empty, and the fullest where none is; each to be
filled up, and all emitted. -/
theorem witness_bins :
    (let r := fun (pc : Nat) => (pc, [0, 0, 0, 0, 0, 0])
     let of := fun (a b : List (Nat × List Nat)) (k : Nat) => SMap.get [] [(0, a), (1, b)] k
     BinFor (of [r 5] [r 7]) 2 7 1 false ∧ BinFor (of [r 5] []) 2 7 1 false ∧ BinFor (of [r 5, r 5] [r 6, r 6]) 2 7 0 true ∧
     (of [r 5] [r 7] 1).length + 1 ≠ aPool.kernel.width ∧ 7 + 1 = aPool.kernel.width) ∧
    (let m := poolMem 1 true
     let s : State := { queueState (aQueue none .idle) m with launches := [{ aPool with flush := true, flushPa := 0x10114 + 1, bins := [(0, [(5, [])])] }] }
     CpHeld s 0 0 0x10118 4 .store (flat 0) ∧ (flat 0).addr (0x10100 + 20) + 1 = 0x10114 + 1 ∧ SMap.get [] [(0, [(5, ([] : List Nat))])] 0 ≠ []) := by
  refine ⟨⟨⟨by decide, .inl ⟨rfl, rfl, by decide⟩⟩, ⟨by decide, .inr (.inl ⟨by decide, rfl, rfl, by decide⟩)⟩,
    ⟨by decide, .inr (.inr ⟨by decide, rfl, by decide⟩)⟩, by decide, by decide⟩, cp_page_in _ _ _ _ (by decide) (by decide) (by decide) rfl (by decide +kernel) rfl rfl rfl rfl rfl, by decide, by decide⟩

/-! ### The control protocol and the platform -/

/-- The header of a request of master 3 on host port 0. -/
def hdrOf (seq : Nat) : ZcpHdr := { master := 3, seq := seq, port := 0 }
/-- The platform with an owner and host port 0 trained. -/
def owned (owner : Option Nat) : Platform := { owner := owner, lastRequest := 10, hostPorts := [(0, 1)] }
/-- The state at a count. -/
def zcpState (owner : Option Nat) (now : Nat) : State := { queueState (aQueue none .idle) [] with plat := owned owner, now := now }

theorem arrives (owner : Option Nat) (now seq : Nat) : Arrives (hdrOf seq) (zcpState owner now) :=
  ⟨rfl, rfl, by simp [zcpState, owned]⟩
/-- The owner's request at the last count before its ownership lapses. -/
theorem from_owner (seq : Nat) : FromOwner (hdrOf seq) (zcpState (some 3) 500000009) :=
  ⟨arrives _ _ _, rfl, by decide⟩

/-- Ownership: a claim with no owner and with another; a roll call open and over, with the claims of R429's example; an
ownership about to lapse; a successor named 100 ms ago. -/
theorem witness_ownership :
    (Arrives (hdrOf 1) (zcpState none 0) ∧ (hdrOf 1).master < 8 ∧ (zcpState none 0).plat.owner = none) ∧
    (Arrives (hdrOf 1) (zcpState (some 4) 20) ∧ (some 4 : Option Nat) ≠ some 3 ∧ (20 : Nat) < 10 + 500000000) ∧
    (let p : Platform := { owned none with roll := some 2000000, claims := [⟨3, 5, 0⟩, ⟨7, 3, 0⟩] }
     p.roll = some 2000000 ∧ (21999999 : Nat) < 2000000 + 20000000 ∧ 2000000 + 20000000 ≤ 22000000 ∧ p.claims ≠ []) ∧
    ((zcpState (some 4) 500000010).plat.owner = some 4 ∧ 10 + 500000000 ≤ (zcpState (some 4) 500000010).now) ∧
    (let s : State := { zcpState (some 4) 100000020 with plat := { owned (some 4) with successor := some (3, 20) } }
     s.plat.successor = some ((hdrOf 1).master, 20) ∧ s.now ≤ 20 + 100000000 ∧ 19 + 100000000 < s.now) ∧
    (admitted { master := 9, seq := 1, port := 0 } (zcpState none 0) = false) ∧
    (let r : Reply := ⟨3, 1, 0, [0]⟩
     let s : State := { zcpState (some 3) 20 with plat := { owned (some 3) with replies := [r] } }
     admitted (hdrOf 1) s = true ∧ s.plat.replies = [r] ∧ r.master = (hdrOf 1).master ∧ r.seq = (hdrOf 1).seq) :=
  ⟨⟨arrives _ _ _, by decide, rfl⟩, ⟨arrives _ _ _, by decide, by decide⟩, by decide, by decide, by decide, by decide, by decide⟩

/-- A record of context 5 whose areas stand at 0x100000, 0x200000, 0x300000. -/
def contextRecord : List Host.Cell :=
  writeMem [] 0x20000 128 (0x70000 + 5 * 2 ^ 64 + 0x100000 * 2 ^ 128 + 0x200000 * 2 ^ 256 + 0x300000 * 2 ^ 320 + 4 * 2 ^ 384
    + 8 * 2 ^ 400 + 8 * 2 ^ 408)
/-- A descriptor at 0x10000 of queue 9 with a ring of 4 slots at 0x10100, WEIGHT 1, STACKS 1, class 0, WDOG 1, and a program of one
word, DONE, at 0x10200. -/
def queueRecord (word : Nat) : List Host.Cell :=
  writeMem (writeMem [] 0x10200 4 word) 0x10000 128 (0x10100 + 2 * 2 ^ 64 + 1 * 2 ^ 70 + 1 * 2 ^ 78 + 9 * 2 ^ 84 + 1 * 2 ^ 160
    + 0x10200 * 2 ^ 192 + 1 * 2 ^ 256)

theorem witness_contexts :
    (∀ seq, FromOwner (hdrOf seq) (zcpState (some 3) 500000009)) ∧
    (let s : State := { zcpState (some 3) 20 with mem := contextRecord }
     0x20000 + 128 ≤ 0x1F00000000 ∧ s.poison = [] ∧ s.ecc = [] ∧ s.updates = [] ∧
     readMem s.mem 0x20000 128 / 2 ^ 64 % 2 ^ 12 = 5) ∧
    ((zcpState (some 3) 20).context 6 = none ∧ (zcpState (some 3) 20).context 0 = some Machine.seatContext ∧
     Machine.seatContext.tags = [] ∧ 4096 ≤ 4096 ∧ 4095 < 4096) ∧
    (let m := queueRecord 0x24
     let d := readMem m 0x10000 128
     let q := readQueueDesc 0 0x10000 d
     let s := queueState (aQueue none .idle) m
     bits d 256 10 = 1 ∧ bits d 192 64 = 0x10200 ∧ q.home = 0 ∧ bits d 84 6 = 9 ∧ s.q.on = true ∧
     readMem m 0x10200 4 = 0x24) ∧
    CpHeld (queueState (aQueue none .idle) (queueRecord 0x24)) 0 0 0x10000 128 .load (flat 0) ∧
    CpHeld (queueState (aQueue none .idle) (queueRecord 0x24)) 0 0 0x10200 4 .load (flat 0) ∧
    (let s := zcpState (some 3) 20
     s.queue 0 63 = none ∧ s.q.on = true ∧ s.q.ctx = 0 ∧ s.q.num = 0 ∧ s.queues = [] ∧ s.launches = []) ∧
    (({ aQueue none .suspended with num := 0 } : Queue).state = .suspended ∧ (aQueue none .faulted).state = .faulted) :=
  ⟨fun _ => from_owner _, by decide +kernel, by decide, by decide +kernel,
   cp_page _ _ _ _ _ (by decide) (by decide) (by decide) rfl (by decide +kernel),
   cp_page _ _ _ _ _ (by decide) (by decide) (by decide) rfl (by decide +kernel), by decide, by decide⟩

/-- Context records and queue descriptors that may be started and that may not; programs of one word that end a run, and
one that does not. -/
theorem witness_starts :
    (let s : State := { zcpState (some 3) 20 with mem := contextRecord }
     ContextStarts s (readMem s.mem 0x20000 128) ∧ ¬ContextStarts s 0) ∧
    (let s := queueState (aQueue none .idle) (queueRecord 0x24)
     QueueStarts s Machine.seatContext 0 (readMem s.mem 0x10000 128) ∧ ¬QueueStarts s Machine.seatContext 0 0 ∧
     bits (readMem s.mem 0x10000 128) 82 2 = 0) ∧
    (decodeQueue 0x24 none = .ok .qdone ∧ ∃ e, decodeQueue 0 none = .error e) := by
  refine ⟨⟨?_, fun h => absurd h.2.2.2.2.2.2.2.2.1.1 (by decide +kernel)⟩,
    ⟨?_, fun h => absurd h.2.2.2.2.1 (by decide), by decide +kernel⟩, rfl, _, rfl⟩
  · unfold ContextStarts; and_intros <;> decide +kernel
  · unfold QueueStarts; and_intros <;> decide +kernel

/-- Suspension of a queue with one grid, in each mode of pre-emption; of every queue of a context; a boot ROM that waits. -/
theorem witness_suspensions :
    (let l : Launch := { aLaunch [] with kernel := { (aLaunch []).kernel with restartMode := true } }
     let s : State := { zcpState (some 3) 20 with launches := [l], cohorts := [Machine.seatCohort 7], w := waveOf 1 }
     s.plat.waiting = false ∧ s.q.on = true ∧ s.q.ctx = 0 ∧ s.q.num = 0 ∧ s.queues = [] ∧ s.launches = [l] ∧
     s.cohorts = [Machine.seatCohort 7] ∧ (Machine.seatCohort 7).launch = l.id ∧ l.ctx = 0 ∧ l.packet.ctx = 0 ∧
     l.packet.q = 0 ∧ l.kernel.restartMode = true ∧ (aLaunch []).kernel.restartMode = false ∧ s.watches = [] ∧
     s.context 0 ≠ none) ∧
    (({ plat := { owned (some 3) with waiting := true } } : State).plat.waiting = true) ∧
    (let s := zcpState (some 3) 20
     s.context 6 = none ∧ s.queue 6 64 = none) := by decide +kernel

/-- Ownership that has not lapsed. -/
theorem early : (20 : Nat) < 10 + 500000000 := by decide
/-- The owner's state with one island in a given state. -/
def ownedIsland (cluster : Nat) (i : Island) : State :=
  { zcpState (some 3) 20 with plat := { owned (some 3) with islands := [(cluster, i)] } }

/-- The owner's requests: each with its boundary values. -/
theorem witness_requests :
    FromOwner (hdrOf 1) (zcpState (some 3) 500000009) ∧
    (let r : FaultRec := ⟨2, [], 9, 0, true, true⟩
     let again : Instr := .ld ⟨10, 4, 0, 0, none⟩
     let s : State := { zcpState (some 3) 20 with faults := [r], w := { waveOf 1 with hold := .fault (some again) 9 0x10000 } }
     s.faults = [r] ∧ r.replay = true ∧ r.written = true ∧ r.token = 9 ∧ r.stack = 2 ∧ s.waves = [] ∧ s.w.on = true ∧
     s.w.hold = .fault (some again) 9 0x10000) ∧
    (let s := tagState 0 1 { state := 2 }
     s.context 5 = none ∧ (tagOf s 0 1).state ≠ 1 ∧ s.context 0 ≠ none ∧ (tagOf s 0 2).state = 1 ∧ children s 0 2 = [] ∧
     (∀ w ∈ allWaves s, w.version ≠ 2) ∧ s.streams = []) ∧
    (300 ≤ 300 ∧ 800 ≤ 800 ∧ 8 ≤ 16 ∧ 16 ≤ 16 ∧ 0x1EFFE00000 % 2 ^ 16 = 0 ∧ 0x1EFFE00000 + 32 * 2 ^ 16 ≤ 0x1F00000000 ∧
     0x1EFFFF0000 + 2 ^ 16 ≤ 0x1F00000000 ∧ SMap.get 0 ({} : State).faultBase 3 = 0) ∧
    (let data := List.replicate 1392 7
     data ≠ [] ∧ data.length = 1392 ∧ (1393 : Nat) > 1392) ∧
    (∀ k : Fin 4, let s := ownedIsland 31 { state := k.val }
     FromOwner (hdrOf 1) s ∧ 31 < 32 ∧ (s.island 31).state = k ∧ s.plat.config.approxOk.testBit 31 = false) ∧
    (let s : State := { zcpState (some 3) 20 with plat := { owned (some 3) with config := { approxOk := 2 ^ 31 } } }
     FromOwner (hdrOf 1) s ∧ s.plat.config.approxOk.testBit 31 = true ∧ throttled s (31 / 8) = false) ∧
    (2 ^ 7 ≤ 128 ∧ (4 % 4 ≠ 1 ∧ 4 / 4 % 2 = 1) ∧ (8 % 4 ≠ 3 ∧ 8 / 8 % 16 ≠ 0) ∧ 5 < 99 / 16 % 8 ∧ (11 + 16 * 5) / 16 % 8 = 5) := by
  refine ⟨from_owner 1, by decide, by decide, by decide, ⟨by decide, List.length_replicate, by decide⟩, fun k => ?_, ?_, by decide⟩
  · exact ⟨⟨⟨rfl, rfl, by simp [ownedIsland, owned]⟩, rfl, early⟩, by decide, rfl, by simp [ownedIsland, zcpState, owned, queueState]⟩
  · exact ⟨⟨⟨rfl, rfl, by simp [owned]⟩, rfl, by decide⟩, by decide, by decide⟩

/-- A boot ROM that waits takes an image of any admitted master; an image below MINVER and one that is not. -/
theorem witness_boot (image : List Host.Cell) :
    (let s : State := { zcpState (some 4) 20 with plat := { owned (some 4) with waiting := true } }
     Arrives (hdrOf 1) s ∧ (hdrOf 1).master < 8 ∧ s.plat.waiting = true ∧ s.plat.nextConfig = none ∧
     belowMinver s.plat.config image = false) ∧
    (let s : State := { zcpState (some 3) 20 with plat := { owned (some 3) with config := { minver := Config.imageVersion image + 1 } } }
     FromOwner (hdrOf 1) s ∧ belowMinver s.plat.config image = true) ∧
    FromOwner (hdrOf 1) (zcpState (some 3) 20) ∧ (zcpState (some 3) 20).plat.waiting = false := by
  refine ⟨⟨⟨rfl, rfl, by simp [owned]⟩, by decide, rfl, rfl, rfl⟩, ⟨⟨⟨rfl, rfl, by simp [owned]⟩, rfl, early⟩, ?_⟩,
    ⟨arrives _ _ _, rfl, by decide⟩, rfl⟩
  simp [belowMinver]

/-- INPUT: a queue with room for a packet and one without, its WIDX and its slot. -/
theorem witness_input :
    FromOwner (hdrOf 1) (zcpState (some 3) 20) ∧ (zcpState (some 3) 20).q.on = true ∧ (zcpState (some 3) 20).eventRing = none ∧
    (let m := writeMem [] 0x1000C 4 4
     2 ^ 2 ≤ (readMem m 0x1000C 4 + 2 ^ 32 - 0) % 2 ^ 32) ∧
    ((0 + 2 ^ 32 - 0) % 2 ^ 32 < 2 ^ 2 ∧ 56 ≤ 56 ∧ 56 < 57 ∧ 0x1000C + 4 ≤ 0x10100) ∧
    CpHeld (zcpState (some 3) 20) 0 0 0x1000C 4 .load (flat 0) ∧ CpHeld (zcpState (some 3) 20) 0 0 0x1000C 4 .store (flat 0) ∧
    CpHeld (zcpState (some 3) 20) 0 0 0x10100 64 .store (flat 0) ∧
    (∀ a, readBit (zcpState (some 3) 20).mem (waitCell a) = false) :=
  ⟨⟨arrives _ _ _, rfl, by decide⟩, rfl, rfl, by decide, by decide,
   cp_page_in _ _ _ _ (by decide) (by decide) (by decide) rfl (nobit _) rfl rfl rfl rfl rfl,
   cp_page_in _ _ _ _ (by decide) (by decide) (by decide) rfl (nobit _) rfl rfl rfl rfl rfl,
   cp_page_in _ _ _ _ (by decide) (by decide) (by decide) rfl (nobit _) rfl rfl rfl rfl rfl, fun _ => nobit _⟩

/-- A configuration record of CVER 1 with the cap of 800 W, one below the least cap and one that is too short, also in one
fragment. -/
theorem witness_configuration :
    (let m := fun (cap : Nat) => writeMem (writeMem [] 1 1 1) 27 2 cap
     configOk 288 (m 800) = true ∧ configOk 288 (m 299) = false ∧ configOk 287 (m 800) = false) ∧
    (let data := (0 :: 1 :: List.replicate 25 0) ++ [0x20, 3] ++ List.replicate 259 0
     data.length = 288 ∧ configOk 288 (stage [] 0 data) = true ∧ configOk 288 (stage [] 0 (List.replicate 288 0)) = false) ∧
    (Arrives (hdrOf 1) (zcpState (some 3) 20) ∧ (20 : Nat) < 10 + 500000000) :=
  ⟨by decide, by decide +kernel, ⟨arrives _ _ _, by decide⟩⟩

/-- An island of cluster 5. -/
def islandState (i : Island) (now : Nat) : State := { plat := { islands := [(5, i)] }, now := now }

/-- The power manager: a measurement above, between and below; islands closing, opening (a nanosecond early and on time),
gates recorded meanwhile, and a level to change. -/
theorem witness_power :
    ((zcpState none 0).plat.cap < 801 ∧ 95 * 800 ≤ 100 * 760 ∧ 100 * 759 < 95 * (zcpState none 0).plat.cap ∧
     (zcpState none 0).plat.capping = false) ∧
    (let s : State := { plat := { capping := true, islands := [(4, { cut := 1 }), (5, { cut := 2 }), (6, { base := 4, cut := 1 })] } }
     (s.island 4).cut = 1 ∧ 1 < (s.island 5).cut ∧ ¬(s.island 6).base + (s.island 6).cut < 5 ∧ (s.island 4).base + (s.island 4).cut < 5) ∧
    (let s := islandState { state := 1, drained := true, gate := 1 } 0
     (s.island 5).state = 1 ∧ (s.island 5).drained = true ∧ (∀ x ∈ s.cohorts, x.cluster ≠ 5) ∧ inflight s 5 = 0 ∧
     workLeft s 5 = false ∧ s.pending = [] ∧ s.updates = []) ∧
    (let s := islandState { state := 3, since := 7, gate := 2 } 20007
     (s.island 5).state = 3 ∧ (s.island 5).since + 20000 ≤ s.now ∧ (20006 : Nat) < (s.island 5).since + 20000 ∧
     (s.island 5).gate = 2) ∧
    (((islandState { state := 1 } 0).island 5).state < 2) ∧
    (let s : State := { islandState { state := 3 } 20000 with plat := { islands := [(5, { state := 3 })], fifos := [(10, { down := true })] } }
     (s.fifo 10).down = true ∧ 10 ∈ clusterFifos 5 ∧ (s.island 1).state = 0) := by decide

/-- Trips: the last sensor and the first number beyond; a throttled cache die with a line to write back. -/
theorem witness_trips :
    (156 ≤ 156 ∧ 155 < 156 ∧ sensorStack 155 = 3 ∧ sensorDie 155 = 6 ∧ sensorDie 128 = 0) ∧
    (let l : CacheLine := { num := 0, way := 0, dirty := 3, pins := [], wrote := 0, used := 0 }
     let s : State := { lines := [l], plat := { trips := [(128 + 7 * (dieOf 0 0 / 3) + 4 + dieOf 0 0 % 3, 2)] } }
     dieThrottled s (dieOf 0 0) = true ∧ s.lines = [] ++ l :: [] ∧ l.num = 0 ∧ dieThrottled {} 0 = false) := by decide

/-- A held frame and a held PUT, a millisecond after they were held, and a nanosecond early; fault rings. -/
theorem witness_platform :
    (0x1EFFFFFFFF < 0x1F00000000 ∧ (({} : State).poison.contains (0x1EFFFFFFFF / 128) = false)) ∧
    (15 < 16 ∧ 3 < 4 ∧ 1 < 2 ∧ 2 < 3) ∧
    (let x : Frame := ⟨4, 0, 0, false, 3, []⟩
     let h : Held := ⟨1, 4, 5⟩
     let s : State := { frameState 0 (frameContext 0 0) with
       plat := { frames := [x], held := [h], config := { peers := [3] } }, now := 1000005 }
     s.plat.held[0]? = some h ∧ s.now ≤ h.since + 1000000 ∧ h.since + 1000000 ≤ s.now ∧ (1000004 : Nat) < h.since + 1000000 ∧
     h.since + 1000000 < 1000006 ∧ s.plat.frames = [x] ∧ x.id = h.id ∧ h.kind = 1 ∧ x.repeated = false ∧
     s.context x.ctx = some (frameContext 0 0) ∧ s.plat.config.peers.getD 0 0 = x.node ∧
     (0x40000 + 64 * x.index) % 64 = 0 ∧ readBit s.mem (waitCell (0x40000 + 64 * x.index)) = false) ∧
    ((cmdOf 4).kind = 4 ∧ (cmdOf 4).id = (⟨0, 9, 5⟩ : Held).id) ∧
    (let c : Cmd := { cmdOf 2 with started := true }
     let s := cmdState c (flat 0) (copyBar 1 1 0) []
     c.barrier s = some cell0 ∧ readScratch s.scratch (cell0 + 9) 1 = 0) ∧
    (let s : State := { faultBase := [(2, 0x50001)], mem := writeMem [] 0x52000 8 (256 + 0 * 2 ^ 32) }
     SMap.get 0 s.faultBase 2 = 0x50000 + 1 ∧ readMem s.mem 0x52000 4 = 256 ∧ readMem s.mem 0x52004 4 = 0 ∧
     (256 + 2 ^ 32 - 1) % 2 ^ 32 < (256 + 2 ^ 32 - 0) % 2 ^ 32 ∧ (256 + 2 ^ 32 - 0) % 2 ^ 32 < (256 + 2 ^ 32 - (2 ^ 32 - 1)) % 2 ^ 32 ∧
     SMap.get 0 s.faultBase 0 = 0 ∧ (256 + 2 ^ 32 - 0) % 2 ^ 32 ≤ 256) ∧
    (let r : FaultRec := ⟨2, [], 9, 0, true, false⟩
     r.written = false ∧ r.replay = true ∧ r.stack = 2 ∧ 0x50000 + 2 ^ 16 ≤ 0x1F00000000) := by decide

/-- The oldest entry of a committed log, of tag 3 of context 0. -/
def logged (i : Instr) (va : Nat) (data : List Nat) : LogEntry :=
  { ctx := 0, tag := 3, i := i, va := va, data := data, core := 0, part := 0, wave := 0, recs := 1, late := false }
/-- The state in which it is to be replayed; the page at 0x10000 is in the TLBs of core 0 and of its command processor. -/
def replayState (e : LogEntry) : State :=
  { queueState (aQueue none .idle) [] with
    replay := [e], w := waveOf 1, contexts := [frameContext 0 0]
    tlb := [{ core := 0, ctx := 0, vpn := 1, leaf := flat 0 }, { core := 644, ctx := 0, vpn := 1, leaf := flat 0 }
            , { core := 256, ctx := 0, vpn := 2, leaf := { flat 0 with pa := 0x20000, node := 3, rm := true } }] }

theorem witness_replay :
    (∀ e, (replayState e).replay = e :: [] ∧ (replayState e).pending = [] ∧ (replayState e).updates = []) ∧
    (let e := logged (.st ⟨10, 4, 0, 0, none⟩) 0x10008 [7]
     let s := replayState e
     entryWaits s e = false ∧ e.va < 2 ^ 52 ∧
     (match xlate s e.core e.ctx e.va .store with | .ok l => decide (l = flat 0) | _ => false) = true ∧
     (flat 0).addr e.va = 0x10008 ∧ (flat 0).fe = true ∧
     s.poison.contains (0x10008 / 128) = false ∧ readBit s.mem (waitCell 0x10008) = false ∧ 0x10008 % 128 + 4 ≤ 128) ∧
    (let e : LogEntry := { logged (.flip ⟨0, 0, 0, 0⟩) 0 [7] with wid := 5, num := 9 }
     let o : Op := { opOf (.st ⟨10, 4, 0, 0, none⟩) 1 1 (page 0 false false) 0x10000 [(0, 7)] with num := 8 }
     let s : State := { replayState e with w := { waveOf 1 with id := 5, ops := [o] } }
     s.replay = e :: [] ∧ entryWaits s e = true) ∧
    (2 ^ 52 ≤ (logged (.st ⟨10, 4, 0, 0, none⟩) (2 ^ 52) [7]).va ∧ SMap.get 0 (replayState (logged .mend 0 [])).faultBase 0 = 0) ∧
    (let e := logged (.st ⟨10, 4, 0, 0, none⟩) 0x10008 [7]
     let s : State := { replayState e with poison := [512] }
     s.poison.contains ((flat 0).addr 0x10008 / 128) = true ∧ entryWaits s e = false) ∧
    (let e := logged (.flip ⟨0, 0, 0, 0⟩) 0 [7]
     let s := replayState e
     entryWaits s e = false ∧ s.context 0 = some (frameContext 0 0) ∧ readMem s.mem (0x40000 + 32) 1 % 8 = 0 ∧
     readBit s.mem (waitCell 0x40000) = false) ∧
    (let e := logged (.put ⟨7, 0, 8, 10, 20, 0, 2⟩) 0 [0x10000, 0x20000, 0x20040, 4, 1, 9]
     let s : State := { replayState e with plat := { config := { peers := [3] } } }
     let c : Cmd := { id := s.nextId, kind := 4, core := e.core, wave := 0, batch := 0, cohort := 0, ctx := e.ctx, tag := 0
                      owner := 0, bar := 0, nums := e.data.take 5, data := e.data.drop 5, accepted := true, slot := e.wave, part := e.part }
     entryWaits s e = false ∧ (s.context 0).map (fun c => c.fabric.testBit 3) = some true ∧ putNode s c = 3 ∧
     routeUp s (putNode s c) = true ∧ (putBad s c false).isNone = true ∧ s.cmds = []) ∧
    CpPage (replayState (logged (.qwst 0 0 0 0 0) 0x10008 [7, 0])) 0 0 0x10008 4 .store (flat 0) ∧
    CpPage (replayState (logged (.qdepdec 0 0 0) 0x10008 [0])) 0 0 0x10008 8 .rmw (flat 0) := by
  refine ⟨fun _ => ⟨rfl, rfl, rfl⟩, by decide +kernel, by decide, by decide, by decide, by decide +kernel, by decide +kernel, ?_, ?_⟩
  all_goals
    refine ⟨by decide, by decide, by decide, ?_, ⟨rfl, rfl, by decide, by decide, by decide⟩, rfl⟩
    unfold xlate rawLeaf tlbHit tlbEntry
    rfl

/-! ### Headers and steps -/

/-- A wave between clauses whose lanes 0 and 1 stand at 0x1000. -/
def headState (fetched : SMap Nat) : State :=
  { w := { waveOf 3 with clause := none, width := 8, pc := (List.range 8).map fun l => (l, 0x1000), fetched := fetched } }

/-- A header of one word whose waits are met; one with a reserved bit, no words, no marker, and no guard but a predicate. -/
theorem witness_headers :
    (let s := headState [(0x1004, 0x00808300)]
     s.w.on = true ∧ s.w.ended = false ∧ s.w.clause = none ∧ s.w.squash = false ∧ s.w.fast = false ∧ s.w.late = [] ∧
     s.w.issueSet (readHeader 0xB0000071) ≠ 0 ∧ (s.w.pcOf (lowest (s.w.issueSet (readHeader 0xB0000071)))).toNat = 0x1000 ∧
     (s.w.fetched.find? fun e => e.1 == 0x1004) = some (0x1004, 0x00808300) ∧
     (∀ k, k < 4 → s.w.count k ≤ 0xB0000071 / 2 ^ (8 + 3 * k) % 8)) ∧
    (0xB0000070 % 16 = 0 ∧ 0xB2000071 / 2 ^ 25 % 8 ≠ 0 ∧ 0xA0000071 / 2 ^ 28 % 16 ≠ 0xB ∧
     0xB0100071 / 2 ^ 24 % 2 = 0 ∧ 0xB0100071 / 2 ^ 20 % 16 ≠ 0) ∧
    (let s : State := { headState [] with w := { (headState []).w with ops := [oneLoad] } }
     ¬s.w.count 0 ≤ 0xB0000071 / 2 ^ 8 % 8) := by decide

/-- A header on the fast path with BE = 0. -/
theorem witness_fast_path :
    let s : State := { headState [] with w := { (headState []).w with fast := true, prev := 5 } }
    s.w.fast = true ∧ 0xB0000071 / 2 ^ 7 % 2 = 0 ∧ s.w.issueSet (readHeader 0xB0000071) = s.w.prev := by decide

/-- A wave of two that are ready issues when its last issue is older, or as old and its context lower; one that is still to
issue in the slot taken last goes first. Two waves of a team at one header, packed there, and at the next word of one clause
(R80). -/
theorem witness_choice :
    (let c : Clause := { hdr := 0x1000, head := 0xB0000071, words := [0x00808300], idx := 0, at_ := 0, issue := 3, active := 3 }
     let s := fun (mine other slot : Nat) => ({ w := { waveOf 3 with clause := some c, last := mine, slot := slot }
                                                waves := [{ waveOf 3 with clause := some c, last := other, slot := 2, id := 9 }] } : State)
     mayIssue (s 4 5 3) = true ∧ mayIssue (s 5 5 1) = true ∧ mayIssue (s 5 5 3) = false ∧ mayIssue (s 6 5 1) = false ∧
     waveReady (s 4 5 3) { waveOf 3 with clause := some c } = true) ∧
    (let s := headState [(0x1000, 0xB0000071), (0x1004, 0x00808300)]
     let s : State := { s with w := { s.w with width := 8 }, waves := [{ s.w with width := 8, id := 9, slot := 2 }] }
     s.w.owed = 0 ∧ nextHeader s = some (0x1000, some 0xB0000071) ∧
     ((after (.clauseHeader 0xB0000071) s).waves.map fun x => (x.id, x.owed, x.pack)) = [(9, 1, 1)]) ∧
    (let c : Clause := { hdr := 0x1000, head := 0xB0000071, words := [0x00808300], idx := 0, at_ := 0, issue := 3, active := 3 }
     let x : Wave := { waveOf 3 with clause := some c, id := 9, pack := 1 }
     let u : State := { w := { waveOf 3 with clause := some c, pack := 1, id := 8 }, waves := [x] }
     u.w.owed = 0 ∧ (u.waves.map Wave.id).Nodup ∧ u.w.pack ≠ 0 ∧ x.pack = u.w.pack ∧ waveReady u x = true ∧
     x.core = u.w.core ∧ x.part = u.w.part) := by
  decide +kernel

/-- A speculative sector of a line that was replaced, in a context of 2^4 spill slots: with 15 in use, and with all. -/
theorem witness_spills :
    let x : Sector := { ctx := 0, tag := 1, num := 0, data := 0, fe := 0, spilled := false }
    let c : Context := { Machine.seatContext with vspillLog2 := 4, tags := [(1, { state := 1, depth := 1 })] }
    let s := fun (n : Nat) => ({ contexts := [c], evicted := [0], sectors := x :: (List.range n).map fun k =>
      { x with num := 8 * (k + 1), spilled := true } } : State)
    (∀ k : Bool, let t := s (if k then 15 else 16)
      t.evicted = [x.num / 8] ∧ t.context x.ctx = some c ∧ (∀ y ∈ t.sectors.drop 1, y.num / 8 ≠ x.num / 8) ∧
      (tagOf t 0 1).state = 1 ∧ children t 0 1 = [] ∧ t.st = {} ∧
      decide (((t.sectors.drop 1).filter fun y => y.ctx == x.ctx && y.spilled).length < 2 ^ c.vspillLog2) = k) ∧
    (match finishTurn (.next (s 16)) with
      | .next u => decide ((tagOf u 0 1).state = 2 ∧ (tagOf u 0 1).reason = 4 ∧ u.sectors = [] ∧ u.evicted = [])
      | _ => false) = true := by decide +kernel

/-- A turn of the wave in a clause: a word that decodes, an opcode that is none, a reserved bit; a held instruction; a
turn between clauses with its header held, and at memory; a stream's and a queue's turn; an event's. -/
theorem witness_steps :
    (let c : Clause := { hdr := 0x1000, head := 0xB0000071, words := [0x00808300], idx := 0, at_ := 0, issue := 3, active := 3 }
     let s : State := { w := { waveOf 3 with clause := some c }, agenda := [.issue none] }
     s.agenda = .issue none :: [] ∧ s.w.hold = .none ∧ s.w.clause = some c ∧ c.refetch = false ∧ misplaced c 0x00808300 = false ∧
     (match decodeSimt 0x00808300 none with | .ok i => (i.vregs.all fun r => decide (r < s.w.nregs)) && !s.w.stalled i | _ => false) = true ∧
     mayIssue { s with agenda := [] } = true ∧ readyNow { s with agenda := [] } = true ∧ opIllegal 0x00808316 = true ∧ opIllegal 0x00808300 = false ∧
     (match decodeSimt 0x00809400 none with | .ok i => i.vregs.any fun r => decide (20 ≤ r) | .error _ => false) = true ∧
     (match decodeSimt 0x60808300 none with | .ok _ => false | .error _ => true) = true) ∧
    (({ w := { waveOf 3 with hold := .again (.rast ⟨8, 20, 1, 0, none⟩) } } : State).w.hold = .again (.rast ⟨8, 20, 1, 0, none⟩)) ∧
    (let s := headState [(0x1000, 0xB0000071)]
     s.w.compare = some (0x1000, s.w.frontier) ∧ mayIssue s = true ∧ nextHeader s = some (0x1000, some 0xB0000071) ∧
     (headerFault 0xB0000071).isNone = true ∧ (s.w.fetched.find? fun e => e.1 == 0x1000) = some (0x1000, 0xB0000071)) ∧
    (let s : State := { headState [] with tlb := [{ core := 0, ctx := 0, vpn := 0, leaf := { flat 0 with pa := 0, x := true } }] }
     s.w.fetched = [] ∧ 
     (match xlate s 0 0 0x1000 .fetch with | .ok l => decide (l = { flat 0 with pa := 0, x := true }) | _ => false) = true ∧
     s.icache = [] ∧ s.updates = [] ∧ s.w.version = 0 ∧ mayIssue s = true ∧
     readBit s.mem (waitCell ({ flat 0 with pa := 0 }.addr 0x1000)) = false) ∧
    (let s : State := { headState [(0x1000, 0xB0000071)] with w := { (headState [(0x1000, 0xB0000071)]).w with fast := true, prev := 3 } }
     (s.w.pcOf (lowest s.w.prev)).toNat = 0x1000 ∧ 0xB0000071 / 2 ^ 7 % 2 = 0 ∧ mayIssue s = true) ∧
    (let s : State := { matrixState { running with fetched := [(0, 0x06)] } [] with agenda := [.stream 7] }
     s.st.runs = true ∧ (s.cohort 7).isSome = true ∧ (kernelOf s 7).isSome = true ∧ loopIllegal s.st 0x06 = false ∧
     (s.st.fetched.find? fun e => e.1 == s.st.idx) = some (s.st.idx, 0x06)) ∧
    (let s : State := { queueState (aQueue (some (aRun 0 none)) .ready) [] with agenda := [.queue 0 0] }
     s.q.on = true ∧ s.q.run = some (aRun 0 none) ∧ (aRun 0 none).used < 256) ∧
    isEvent (.evMacsecFailure 0) = true :=
  ⟨by decide, by decide, by decide, by decide, by decide, by decide, by decide, by decide⟩

/-! ## Values

Results that the spec works out, each of one instruction. -/

/-- A wave of width 8 whose lanes hold, from lane 0 up, the values of two registers v1 and v2. -/
def lanesOf12 (active : Lanes) (xs : List (Nat × Nat)) : Wave :=
  { waveOf active with v := xs.zipIdx.flatMap fun e => [(128 * e.2 + 1, BitVec.ofNat 32 e.1.1), (128 * e.2 + 2, BitVec.ofNat 32 e.1.2)] }

/-- The example of R66: FDIV with ENINV set. -/
theorem test_fdiv_flags_and_trap :
    let x := (0x3F800000, 0x3F800000)
    let s : State := { w := { lanesOf12 0xFF [x, x, (0, 0), x, x, (0x7F000000, 0x3F000000), x, x] with fpmode := 0x21 } }
    let t := after (.fdiv ⟨3, 1, 2, 0, none⟩) { s with cohorts := [Machine.seatCohort 7], launches := [{ Machine.seatLaunch 7 with kernel := { Machine.seatKernel with traph := some 0x2000 } }] }
    t.w.fpmode = 0x150021 ∧ [0, 2, 5].map (fun l => t.w.vreg l 3) = [0x3F800000, 0x7FC00000, 0x7F800000] ∧
    t.w.trapCause = BitVec.ofNat 32 Cause.fpInvalid.code ∧ t.w.trapMask = 4 := by decide +kernel

/-- The example of R123. -/
theorem test_idiv :
    let s : State := { w := lanesOf12 0xF [(7, 2), (0xFFFFFFF9, 2), (5, 0), (0x80000000, 0xFFFFFFFF)]
                       cohorts := [Machine.seatCohort 7]
                       launches := [{ Machine.seatLaunch 7 with kernel := { Machine.seatKernel with traph := some 0x2000 } }] }
    let t := after (.idiv ⟨3, 1, 2, 1, none⟩) s
    (List.range 4).map (fun l => t.w.vreg l 3) = [3, 0xFFFFFFFD, 0xFFFFFFFF, 0x80000000] ∧
    t.w.trapMask = 4 ∧ t.w.trapDst = 0x83 ∧ t.w.trapCause = BitVec.ofNat 32 Cause.intDivzero.code := by decide +kernel

/-- The example of R130: CVT with SAT and MERGE, and without MERGE. -/
theorem test_cvt :
    let s : State := { w := { waveOf 1 with v := [(4, 0x43EB0000), (5, 0x11223344)] } }
    (after (.cvt ⟨5, 4, 0, 0x50930⟩) s).w.vreg 0 5 = 0x117E3344 ∧ (after (.cvt ⟨5, 4, 0, 0x10930⟩) s).w.vreg 0 5 = 0x007E0000 ∧
    (after (.cvt ⟨5, 4, 0, 0x50130⟩) s).w.vreg 0 5 = 0x117F3344 := by decide +kernel

/-- The table of R63: 455, 464, 470 and -470 in E4M3 without saturation. -/
theorem test_cvt_e4m3 :
    let f := fun (x : Word) => ((after (.cvt ⟨5, 4, 0, 0x130⟩) { w := { waveOf 1 with v := [(4, x)] } }).w.vreg 0 5)
    [f 0x43E38000, f 0x43E80000, f 0x43EB0000, f 0xC3EB0000] = [0x7E, 0x7E, 0x7F, 0xFF] := by decide +kernel

/-- R131: a permutation of bytes. -/
theorem test_prmt :
    (after (.prmt ⟨4, 1, 2, 0, some { c := 3 }⟩) { w := { waveOf 1 with v := [(1, 0x44332211), (2, 0x88776655), (3, 0x4438)] } }).w.vreg 0 4
      = 0x33008811 := by decide +kernel

/-- R71 for a = 5 and b = 1, worked by hand from its six lines. -/
theorem test_ihash : (after (.ihash ⟨4, 1, 2, 0, none⟩) { w := { waveOf 1 with v := [(1, 5), (2, 1)] } }).w.vreg 0 4 = 0x342A3A5C := by
  decide +kernel

/-- The example of R72: the hashed corner (3, 5, 2) in a table of 2^14 entries (DIMS 3, RES 0xFFFF). -/
theorem test_grid_hash : cornerIndex (2 ^ 68 + 14 * 2 ^ 72) 0xFFFF 3 5 2 = 0x31D0 := by decide

/-- The example of R69: chunk 0 holds 2^24, 1 and -2^24, chunk 1 holds 2^24. -/
theorem test_mma_chunks :
    accumulate 32 0 false (fun k => if k = 0 ∨ k = 32 then .fin false 1 24 else if k = 1 then .fin false 1 0
      else if k = 2 then .fin true 1 24 else .fin false 0 0) 0 2 0 0 = 0x4B800000 := by decide +kernel

/-- The example of R136: SHFL.DOWN by 3 with the exited lanes 6 and 7. -/
theorem test_shfl_down :
    let s : State := { w := { waveOf 0xF with
      s := [(3, 3)], m := [(2, 0xFF)], exited := 0xC0, v := (List.range 8).map fun l => (128 * l + 1, BitVec.ofNat 32 (10 + l)) } }
    let t := after (.shfl ⟨2, 1, 3, 2, some { c := 2 + 16, bs := true }⟩) s
    (List.range 4).map (fun l => t.w.vreg l 2) = [13, 14, 15, 0] ∧ (List.range 4).map (t.w.pred 1) = [true, true, true, false] := by
  decide +kernel

/-- The example of R141: SALU.ADD, then SCMP.EQ, of two groups. -/
theorem test_salu_scmp :
    let s : State := { w := { waveOf 0xF with s := [(4, 10), (5, 1), (6, 11)] } }
    let t := after (.scmp ⟨2, 4, 6, 0⟩) (after (.salu ⟨4, 4, 5, 0⟩) s)
    let u := after (.scmp ⟨2, 4, 6, 0⟩) (after (.salu ⟨4, 4, 5, 0⟩) { t with w := { t.w with clause := some (clauseAt 0xF0) } })
    t.w.sreg 4 = 11 ∧ u.w.sreg 4 = 12 ∧ (List.range 8).map (u.w.pred 2) = [true, true, true, true, false, false, false, false] := by
  decide +kernel

/-- The example of R149: LEAVE by lane 3 releases lanes 0 to 2. -/
theorem test_leave :
    let s : State := { w := { waveOf 8 with m := [(3, 0xF)], parked := 7, waitOn := [(0, 4), (1, 4), (2, 4)] } }
    let t := after (.leave ⟨3, 0, 0, 0, 0⟩) s
    t.w.mreg 3 = 7 ∧ t.w.parked = 0 := by decide +kernel

/-- The example of R226: two visibility minima in either order. -/
theorem test_vismin (f : AM) : rmwNew (.vismin f) 0xBF00000000000207 0xBF00000000000105 = 0xBF00000000000105 ∧
    rmwNew (.vismin f) 0xBF00000000000105 0xBF00000000000207 = 0xBF00000000000105 := ⟨rfl, rfl⟩

/-- The example of R225: eight lanes compare and swap one word. -/
theorem test_cas :
    let f : AM := ⟨8, 4, 6, 0, ⟨2, 0, 1, 0⟩⟩
    let s : State := { w := { waveOf 0xFF with v := (List.range 8).flatMap fun l =>
      [(128 * l + 4, 0x10000), (128 * l + 6, 5), (128 * l + 7, BitVec.ofNat 32 (10 + l))] }
                       tlb := tlbOf (page 0 false false), mem := writeMem [] 0x20000 4 5 }
    let t := after (.evCountedResult 0 0 (2 ^ 64 - 1) (2 ^ 64 - 1) false) (after (.cas f) s)
    readMem t.mem 0x20000 4 = 10 ∧ (List.range 8).map (fun l => t.w.vreg l 8) = [5, 10, 10, 10, 10, 10, 10, 10] ∧
    (List.range 8).map (t.w.pred 1) = [true, false, false, false, false, false, false, false] := by decide +kernel

/-- The example of R171: the walk of 0x0000008040234568. -/
theorem test_walk : (match xlate walkState 0 0 0x0000008040234568 .load with
    | .ok l => decide (l.addr 0x0000008040234568 = 0x23454568)
    | _ => false) = true := by decide

/-- The example of R335's section: TRISET.CLR, then RAST in a wave of width 4, twice. -/
theorem test_raster_example :
    let s : State := { triState (triRegs 0x00000303 0x1000) [] with w := { waveOf 15 with width := 4, s := triRegs 0x00000303 0x1000 } }
    let land := after (.evCountedResult 3 0 (2 ^ 64 - 1) (2 ^ 64 - 1) false)
    let a := after (.triset ⟨20, 4, 16, 8⟩) s
    let b := land (after (.rast ⟨8, 20, 1, 0, none⟩) a)
    let c := land (after (.rast ⟨8, 20, 1, 0, none⟩) b)
    a.w.sreg 20 = 0x00800000 ∧
    (List.range 4).map (fun l => [b.w.vreg l 8, b.w.vreg l 9, b.w.vreg l 10]) =
      [[0x1000, 0x3EB00000, 0], [0x1008, 0x3ED00000, 1], [0x1010, 0x3EF00000, 2], [0x1020, 0x3EF00000, 0x4000]] ∧
    b.w.sreg 20 = 0x008000A0 ∧
    (List.range 2).map (fun l => [c.w.vreg l 8, c.w.vreg l 9, c.w.vreg l 10]) =
      [[0x1028, 0x3F080000, 0x4001], [0x1040, 0x3F180000, 0x8000]] ∧
    (List.range 4).map (c.w.pred 1) = [true, true, false, false] ∧ c.w.sreg 20 = 0x80000000 := by decide +kernel


end Sys2Proof.Tests
end

namespace Sys2Proof.Safety

open Sys2Proof.Machine

/-!
# Every step keeps the canonical form of memory (O58)

The canonical form is a property of the memory alone, so an operation that leaves the memory as it was keeps it by
`rfl`, and the operations that write go through the laws of `Memory` (`writeMem_wf`, `writeBit_wf`, `freeCloaks_wf`).
One lemma per operation of the model, `MemOk.f`, says that `f` keeps the form; its proof follows the branches of `f`
and cites the lemmas of the operations that `f` calls, outermost first. `OutOk.f` says the same of an instruction's
outcome. The sections are in the order of the model's files.
-/

/-! ## The shapes of the model's definitions -/

theorem MemOk.ite {c : Prop} [Decidable c] {s t : State} (hs : MemOk s) (ht : MemOk t) :
    MemOk (if c then s else t) := by
  split
  · exact hs
  · exact ht

theorem MemOk.iteSnd {α : Type} {c : Prop} [Decidable c] {p q : α × State} (hp : MemOk p.2) (hq : MemOk q.2) :
    MemOk (if c then p else q).2 := by
  split
  · exact hp
  · exact hq

theorem MemOk.iteSndSnd {α β : Type} {c : Prop} [Decidable c] {p q : α × β × State} (hp : MemOk p.2.2)
    (hq : MemOk q.2.2) : MemOk (if c then p else q).2.2 := by
  split
  · exact hp
  · exact hq

theorem MemOk.ofEq {α : Type} {p : α × State} {a : α} {t : State} (e : p = (a, t)) (h : MemOk p.2) : MemOk t := by
  subst e
  exact h

theorem MemOk.ofEqSnd {α β : Type} {p : α × β × State} {a : α} {b : β} {t : State} (e : p = (a, b, t))
    (h : MemOk p.2.2) : MemOk t := by
  subst e
  exact h

theorem MemOk.foldl {α : Type} {f : State → α → State} {l : List α} {s : State}
    (hf : ∀ t a, MemOk t → MemOk (f t a)) (h : MemOk s) : MemOk (l.foldl f s) := by
  induction l generalizing s with
  | nil => exact h
  | cons a l ih => exact ih (hf _ _ h)

theorem MemOk.setWave {w : Wave} {s : State} (h : MemOk s) : MemOk { s with w := w } := h

/-- What an instruction answers carries a memory of the canonical form. -/
def OutOk : Host.Outcome State Fault Refusal → Prop
  | .next t => MemOk t
  | _ => True

/-! ## The home of a location: bytes, full/empty and waiters bits, events, faults -/

theorem MemOk.touchLine {s : State} {num : Nat} {wr : BitVec 8} (h : MemOk s) : MemOk (touchLine s num wr) := h

theorem MemOk.findEcc {s : State} {pa : Nat} (h : MemOk s) : MemOk (findEcc s pa) := .ite h h

theorem MemOk.mapWaves {f : Wave → Wave} {s : State} (h : MemOk s) : MemOk (mapWaves f s) := h

theorem MemOk.setWaiters {pa : Nat} {s : State} (h : MemOk s) : MemOk (setWaiters pa s) :=
  writeBit_wf _ _ _ h

theorem MemOk.clearWaiters {pa : Nat} {s : State} (h : MemOk s) : MemOk (clearWaiters pa s) :=
  clearWaiters_wf _ _ h

theorem MemOk.holdLine {pa : Nat} {s : State} (h : MemOk s) : MemOk (holdLine pa s) := h

theorem MemOk.wake {pa n : Nat} {s : State} (h : MemOk s) : MemOk (wake pa n s) :=
  wake_wf _ _ _ h

theorem MemOk.noticeWrite {pa n : Nat} {s : State} (h : MemOk s) : MemOk (noticeWrite pa n s) := h

theorem MemOk.homeWrite {cached : Bool} {pa n v : Nat} {s : State} (h : MemOk s) :
    MemOk (homeWrite cached pa n v s) :=
  homeWrite_wf _ _ _ _ _ h

theorem MemOk.homeSetFe {cached : Bool} {pa : Nat} {full : Bool} {s : State} (h : MemOk s) :
    MemOk (homeSetFe cached pa full s) :=
  homeSetFe_wf _ _ _ _ h

theorem MemOk.noteEvent {kind : Nat} {s : State} (h : MemOk s) : MemOk (noteEvent kind s) := h

theorem MemOk.postEvent {kind ctx version core wave code payload : Nat} {s : State} (h : MemOk s) :
    MemOk (postEvent kind ctx version core wave code payload s) :=
  postEvent_wf _ _ _ _ _ _ _ _ h

theorem MemOk.flushFaults {s : State} (h : MemOk s) : MemOk (flushFaults s) :=
  flushFaults_wf _ h

theorem MemOk.postFault {stack : Nat} {f : FaultInfo} {s : State} (h : MemOk s) : MemOk (postFault stack f s) :=
  postFault_wf _ _ _ h

/-! ## The vertical FIFOs -/

theorem MemOk.updFifo {k : Nat} {f : Fifo → Fifo} {s : State} (h : MemOk s) : MemOk (updFifo k f s) := h

theorem MemOk.countDrops {pair n : Nat} {s : State} (h : MemOk s) : MemOk (countDrops pair n s) := h

theorem MemOk.dropEntries {p : FifoEntry → Bool} {k : Nat} {s : State} (h : MemOk s) : MemOk (dropEntries p k s) :=
  .ite h (.countDrops (.updFifo h))

theorem MemOk.forFifos {f : Nat → State → State} {ks : List Nat} {s : State}
    (hf : ∀ k t, MemOk t → MemOk (f k t)) (h : MemOk s) : MemOk (forFifos f ks s) := by
  induction ks generalizing s with
  | nil => exact h
  | cons k ks ih => exact ih (hf _ _ h)

theorem MemOk.dropContextEntries {ctx : Nat} {s : State} (h : MemOk s) : MemOk (dropContextEntries ctx s) :=
  .forFifos (fun _ _ h => .dropEntries h) h

theorem MemOk.updIsland {cluster : Nat} {f : Island → Island} {s : State} (h : MemOk s) :
    MemOk (updIsland cluster f s) :=
  h

theorem MemOk.drainIsland {cluster : Nat} {s : State} (h : MemOk s) : MemOk (drainIsland cluster s) :=
  .ite (.updIsland (.forFifos (fun _ _ h => .dropEntries h) h)) h

/-! ## Launches, cohorts, waves and traps -/

theorem MemOk.updCohort {id : Nat} {f : Cohort → Cohort} {s : State} (h : MemOk s) : MemOk (updCohort id f s) := h

theorem MemOk.updLaunch {id : Nat} {f : Launch → Launch} {s : State} (h : MemOk s) : MemOk (updLaunch id f s) := h

theorem MemOk.updContext {id : Nat} {f : Machine.Context → Machine.Context} {s : State} (h : MemOk s) :
    MemOk (updContext id f s) :=
  h

theorem MemOk.withWave {f : Wave → Wave} {s : State} (h : MemOk s) : MemOk (withWave f s) := h

theorem MemOk.complete {p : Packet} {status cause version : Nat} {s : State} (h : MemOk s) :
    MemOk (complete p status cause version s) :=
  h

theorem MemOk.endLaunch {l : Launch} {s : State} (h : MemOk s) : MemOk (endLaunch l s) := h

theorem MemOk.finishLaunch {id : Nat} {s : State} (h : MemOk s) :
    MemOk (finishLaunch id s) := by
  unfold Machine.finishLaunch
  split
  · exact h
  · exact .ite (.endLaunch h) h

theorem MemOk.cancelWatch {id : Nat} {s : State} (h : MemOk s) : MemOk (cancelWatch id s) := .ite h h

theorem MemOk.releaseCohort {c : Cohort} {s : State} (h : MemOk s) : MemOk (releaseCohort c s) := .drainIsland h

theorem MemOk.releaseTeam {c : Cohort} {rank : Nat} {s : State} (h : MemOk s) : MemOk (releaseTeam c rank s) := h

theorem MemOk.releaseTeams {c : Cohort} {s : State} (h : MemOk s) : MemOk (releaseTeams c s) :=
  .foldl (fun _ _ h => .ite h (.releaseTeam h)) h

theorem MemOk.endCohort {id : Nat} {s : State} (h : MemOk s) :
    MemOk (endCohort id s) := by
  unfold Machine.endCohort
  dsimp only
  split
  · exact h
  · exact .ite (.releaseTeams h) (.finishLaunch (.cancelWatch (.updLaunch (.releaseCohort h))))

theorem MemOk.dropCohort {c : Cohort} {s : State} (h : MemOk s) : MemOk (dropCohort c s) :=
  .releaseCohort (freeCloaks_wf _ _ _ h)

theorem MemOk.reportDiscard {c : Cohort} {cause cause2 addr : Nat} {w : Option Wave} {s : State} (h : MemOk s) :
    MemOk (reportDiscard c cause cause2 addr w s) :=
  .postFault h

theorem MemOk.discardCohort {id cause cause2 addr : Nat} {w : Option Wave} {s : State} (h : MemOk s) :
    MemOk (discardCohort id cause cause2 addr w s) := by
  unfold Machine.discardCohort
  dsimp only
  split
  · exact h
  · exact .finishLaunch (.cancelWatch (.updLaunch (.reportDiscard (.dropCohort h))))

theorem MemOk.lateUntaken {w : Wave} {cluster ctx : Nat} {ts : List LateTrap} {s : State} (h : MemOk s) :
    MemOk (lateUntaken w cluster ctx ts s) := by
  induction ts generalizing s with
  | nil => exact h
  | cons t ts ih =>
    refine ih ?_
    split
    · exact .discardCohort h
    · exact .postFault h

theorem MemOk.endWave {s : State} (h : MemOk s) : MemOk (endWave s) := .endCohort (.lateUntaken (.updCohort h))

theorem MemOk.exitLanes {e : Lanes} {s : State} (h : MemOk s) : MemOk (exitLanes e s) :=
  have freed : Memory.wf (freeCloaks _ _ s.mem) = true := freeCloaks_wf _ _ _ h
  .ite (.endWave freed) freed

theorem MemOk.takeTrap {t : TrapInfo} {lanes : Lanes} {resume : Resume} {s : State} (h : MemOk s) :
    MemOk (takeTrap t lanes resume s) := by
  unfold Machine.takeTrap
  dsimp only
  split
  · exact .discardCohort h
  · split
    · exact .discardCohort h
    · exact h

theorem MemOk.raise {cause : Cause} {mask : Lanes} {dst : Nat} {addr : DWord} {s : State} (h : MemOk s) :
    MemOk (raise cause mask dst addr s) :=
  .takeTrap h

theorem MemOk.raiseCheck {cause : Cause} {s : State} (h : MemOk s) : MemOk (raiseCheck cause s) := .takeTrap h

theorem MemOk.holdAgain {i : Instr} {s : State} (h : MemOk s) : MemOk (holdAgain i s) := h

theorem MemOk.focusWave {id : Nat} {s : State} (h : MemOk s) :
    MemOk (focusWave id s) := by
  unfold Machine.focusWave
  split
  · exact h
  · split
    · exact h
    · exact h

theorem MemOk.focusQueue {ctx q : Nat} {s : State} (h : MemOk s) :
    MemOk (focusQueue ctx q s) := by
  unfold Machine.focusQueue
  split
  · exact h
  · split
    · exact h
    · exact h

theorem MemOk.focusStream {cohort : Nat} {s : State} (h : MemOk s) :
    MemOk (focusStream cohort s) := by
  unfold Machine.focusStream
  split
  · exact h
  · split
    · exact h
    · exact h

theorem MemOk.forWaves {f : State → State} {ids : List Nat} {s : State} (hf : ∀ t, MemOk t → MemOk (f t))
    (h : MemOk s) : MemOk (forWaves f ids s) := by
  induction ids generalizing s with
  | nil => exact h
  | cons id ids ih => exact ih (.ite (hf _ (.focusWave h)) (.focusWave h))

theorem MemOk.eachWave {p : Wave → Bool} {f : State → State} {s : State} (hf : ∀ t, MemOk t → MemOk (f t))
    (h : MemOk s) : MemOk (eachWave p f s) :=
  .ite (.focusWave (.forWaves (fun _ h => hf _ h) h)) (.forWaves (fun _ h => hf _ h) h)

/-! ## Results in the register files -/

theorem MemOk.writeV {r : Nat} {f : Nat → Word} {s : State} (h : MemOk s) : MemOk (writeV r f s) := h

theorem MemOk.writeVPair {r : Nat} {f : Nat → DWord} {s : State} (h : MemOk s) : MemOk (writeVPair r f s) := h

theorem MemOk.writeP {p : Nat} {f : Nat → Bool} {s : State} (h : MemOk s) : MemOk (writeP p f s) := h

theorem MemOk.writeS {r : Nat} {x : Word} {s : State} (h : MemOk s) : MemOk (writeS r x s) := h

theorem MemOk.writeSPair {r : Nat} {x : DWord} {s : State} (h : MemOk s) : MemOk (writeSPair r x s) := h

theorem MemOk.completeFp {exc : Nat → Exc} {dst : Nat} {s : State} (h : MemOk s) :
    MemOk (completeFp exc dst s) := by
  unfold Machine.completeFp
  dsimp only
  split
  · exact h
  · exact .raise h

theorem MemOk.fpResult {d : Nat} {r : Nat → Word × Exc} {s : State} (h : MemOk s) : MemOk (fpResult d r s) :=
  .completeFp (.writeV h)

theorem MemOk.fpV3 {f : V3} {op : Word → Word → Word → Word × Exc} {s : State} (h : MemOk s) : MemOk (fpV3 f op s) :=
  .fpResult h

theorem MemOk.intV3 {f : V3} {op : Word → Word → Word → Word} {s : State} (h : MemOk s) : MemOk (intV3 f op s) :=
  .writeV h

theorem MemOk.crossLane {i : Instr} {f : V3} {op : State → State} {s : State} (hop : ∀ t, MemOk t → MemOk (op t))
    (h : MemOk s) : MemOk (crossLane i f op s) :=
  .ite (hop _ h) (.raise h)

/-! ## Versions of memory -/

theorem MemOk.updTag {ctx t : Nat} {f : Tag → Tag} {s : State} (h : MemOk s) : MemOk (updTag ctx t f s) :=
  .ite h (.updContext h)

theorem MemOk.killFocused {s : State} (h : MemOk s) : MemOk (killFocused s) := .ite h (.exitLanes h)

theorem MemOk.killTagged {s : State} (h : MemOk s) : MemOk (killTagged s) :=
  .ite (.killFocused h) (.ite h (.exitLanes h))

theorem MemOk.killWaves {ctx t : Nat} {s : State} (h : MemOk s) : MemOk (killWaves ctx t s) :=
  .eachWave (fun _ h => .killTagged h) h

theorem MemOk.squash {ctx t reason : Nat} {s : State} (h : MemOk s) : MemOk (squash ctx t reason s) :=
  .foldl (fun _ _ h => .endCohort h) (.killWaves (.updTag h))

theorem MemOk.squashTree {ctx t reason : Nat} {s : State} (h : MemOk s) : MemOk (squashTree ctx t reason s) :=
  .foldl (fun _ _ h => .foldl (fun _ _ h => .squash h) (.squash h)) (.squash h)

theorem MemOk.squashAll {ctx reason : Nat} {ts : List Nat} {s : State} (h : MemOk s) :
    MemOk (squashAll ctx reason ts s) :=
  .foldl (fun _ _ h => .ite (.squash h) h) (.foldl (fun _ _ h => .squash h) h)

theorem MemOk.ownSector {ctx t num : Nat} {s : State} (h : MemOk s) :
    MemOk (ownSector ctx t num s) := by
  unfold Machine.ownSector
  dsimp only
  split
  · exact h
  · exact h

theorem MemOk.updSector {ctx t num : Nat} {f : Sector → Sector} {s : State} (h : MemOk s) :
    MemOk (updSector ctx t num f s) :=
  h

theorem MemOk.touchSpec {pa : Nat} {s : State} (h : MemOk s) : MemOk (touchSpec pa s) := .ite (.touchLine h) h

theorem MemOk.viewWrite {ctx t : Nat} {ver cached : Bool} {pa n v : Nat} {s : State} (h : MemOk s) :
    MemOk (viewWrite ctx t ver cached pa n v s) :=
  .ite (.homeWrite h) (.ite h (.wake (.touchSpec (.updSector (.ownSector h)))))

theorem MemOk.viewSetFe {ctx t : Nat} {ver cached : Bool} {pa : Nat} {full : Bool} {s : State} (h : MemOk s) :
    MemOk (viewSetFe ctx t ver cached pa full s) :=
  .ite (.homeSetFe h) (.ite h (.wake (.updSector (.ownSector (.touchSpec h)))))

theorem MemOk.logEntry {e : LogEntry} {s : State} (h : MemOk s) :
    MemOk (logEntry e s) := by
  unfold Machine.logEntry
  dsimp only
  split
  · exact h
  · exact .ite h (.ite (.squashTree h) h)

theorem MemOk.spillSector {ctx t num : Nat} {s : State} (h : MemOk s) :
    MemOk (spillSector ctx t num s) := by
  unfold Machine.spillSector
  split
  · exact .ite h (.ite (.updSector h) (.squashTree h))
  · exact h

theorem MemOk.spillLine {num : Nat} {s : State} (h : MemOk s) : MemOk (spillLine num s) :=
  .foldl (fun _ _ h => .spillSector h) h

theorem MemOk.spillEvicted {s : State} (h : MemOk s) : MemOk (spillEvicted s) := .foldl (fun _ _ h => .spillLine h) h

/-! ## Global memory: translation, the L1, release and acquire -/

theorem MemOk.patchL1 {core ctx tag : Nat} {ver : Bool} {pa n v : Nat} {s : State} (h : MemOk s) :
    MemOk (patchL1 core ctx tag ver pa n v s) :=
  h

theorem MemOk.postLate {c : Cause} {o : Machine.Origin} {orgs : List Machine.Origin} {s : State} (h : MemOk s) :
    MemOk (postLate c o orgs s) :=
  .ite (.mapWaves h) (.lateUntaken h)

theorem MemOk.postLates {es : List (Cause × Machine.Origin)} {s : State} (h : MemOk s) : MemOk (postLates es s) :=
  .foldl (fun _ _ h => .postLate h) h

theorem MemOk.applyUpdate {u : Update} {s : State} (h : MemOk s) :
    MemOk (applyUpdate u s) := by
  unfold Machine.applyUpdate
  dsimp only
  split
  · exact h
  · split
    · exact .postLates (.findEcc h)
    · exact .patchL1 (.viewWrite h)

theorem MemOk.flushUpdates {p : Update → Bool} {s : State} (h : MemOk s) : MemOk (flushUpdates p s) :=
  .foldl (fun _ _ h => .applyUpdate h) h

theorem MemOk.recallLine {pa : Nat} {s : State} (h : MemOk s) : MemOk (recallLine pa s) := .flushUpdates h

theorem MemOk.undoAccepted {p : Pending} {s : State} (h : MemOk s) : MemOk (undoAccepted p s) := .mapWaves h

theorem MemOk.performPending {p : Pending} {s : State} (h : MemOk s) :
    MemOk (performPending p s).2 := by
  unfold Machine.performPending
  dsimp only
  split
  · exact .recallLine h
  · split
    · exact .undoAccepted (.findEcc (.recallLine h))
    · exact .ite (.viewSetFe (.recallLine h)) (.viewWrite (.recallLine h))

theorem MemOk.performAll {ps : List Pending} {s : State} (h : MemOk s) : MemOk (performAll ps s).2 := by
  induction ps generalizing s with
  | nil => exact h
  | cons p ps ih => exact ih (.performPending h)

theorem MemOk.retire {s : State} (h : MemOk s) : MemOk (retire s) := h

theorem MemOk.drain {p : Pending → Bool} {s : State} (h : MemOk s) : MemOk (drain p s) :=
  .ite (.retire (.postLates (.performAll h))) h

theorem MemOk.settle {core num : Nat} {s : State} (h : MemOk s) : MemOk (settle core num s) := .drain h

theorem MemOk.makeRoom {core : Nat} {s : State} (h : MemOk s) :
    MemOk (makeRoom core s) := by
  unfold Machine.makeRoom
  dsimp only
  split
  · exact h
  · split
    · exact h
    · exact .flushUpdates h
    · exact h

theorem MemOk.readEntry {a : Nat} {s : State} (h : MemOk s) : MemOk (readEntry a s).2 := .touchLine (.recallLine h)

theorem MemOk.walk {va table : Nat} {levels : List (Nat × Nat × Nat × Nat)} {s : State} (h : MemOk s) :
    MemOk (walk va table levels s).2 := by
  induction levels generalizing table s with
  | nil => exact h
  | cons l rest ih =>
    obtain ⟨level, lo, n, align⟩ := l
    have read : MemOk (Machine.readEntry (table + 8 * bits va lo n) s).2 := .readEntry h
    unfold Machine.walk
    generalize Machine.readEntry (table + 8 * bits va lo n) s = r at read ⊢
    exact .iteSnd read (.iteSnd read (.iteSnd read (ih read)))

theorem MemOk.walkFor {ctx va : Nat} {s : State} (h : MemOk s) : MemOk (walkFor ctx va s).2 := .walk h

theorem MemOk.putTlb {who ctx va : Nat} {l : Leaf} {s : State} (h : MemOk s) :
    MemOk (putTlb who ctx va l s) := by
  unfold Machine.putTlb
  split
  · exact h
  · exact h

theorem MemOk.fillTlb {who ctx va : Nat} {l : Leaf} {s : State} (h : MemOk s) :
    MemOk (fillTlb who ctx va l s) := by
  unfold Machine.fillTlb
  dsimp only
  split
  · exact .putTlb (.putTlb (.ite h (.walkFor h)))
  · exact .putTlb (.ite h (.walkFor h))

theorem MemOk.dropStale {core ctx tag : Nat} {ver : Bool} {pa n v : Nat} {s : State} (h : MemOk s) :
    MemOk (dropStale core ctx tag ver pa n v s) :=
  h

theorem MemOk.readHome {core ctx tag : Nat} {leaf : Leaf} {pa n : Nat} {s : State} (h : MemOk s) :
    MemOk (readHome core ctx tag leaf pa n s).2 :=
  .dropStale (.ite (.touchLine (.recallLine (.settle h))) (.recallLine (.settle h)))

theorem MemOk.readL1 {core ctx tag : Nat} {leaf : Leaf} {va pa n : Nat} {bypass : Bool} {s : State} (h : MemOk s) :
    MemOk (readL1 core ctx tag leaf va pa n bypass s).2 := by
  have read : MemOk (Machine.readHome core ctx tag leaf pa n s).2 := .readHome h
  unfold Machine.readL1
  dsimp only
  split
  · exact h
  · exact .iteSnd read (MemOk.makeRoom (core := core) read)

theorem MemOk.acceptStore {p : Pending} {s : State} (h : MemOk s) : MemOk (acceptStore p s) := .ite h h

theorem MemOk.releaseBy {core wave scope : Nat} {e : Extent} {s : State} (h : MemOk s) :
    MemOk (releaseBy core wave scope e s) :=
  .ite (.drain h) (.flushUpdates (.drain (.drain h)))

theorem MemOk.releaseNow {scope : Nat} {e : Extent} {s : State} (h : MemOk s) : MemOk (releaseNow scope e s) :=
  .releaseBy h

theorem MemOk.acquireNow {core scope : Nat} {e : Extent} {s : State} (h : MemOk s) :
    MemOk (acquireNow core scope e s) :=
  .ite h h

/-! ## Fetching and issuing clauses -/

theorem MemOk.putICache {line : ILine} {s : State} (h : MemOk s) : MemOk (putICache line s) := h

theorem MemOk.fetchCached {va : Nat} {leaf : Leaf} {s : State} (h : MemOk s) :
    MemOk (fetchCached va leaf s).2 := by
  unfold Machine.fetchCached
  dsimp only
  split
  · exact .fillTlb h
  · split
    · exact .findEcc (.recallLine (.fillTlb h))
    · exact .putICache (.ite (.touchLine (.recallLine (.fillTlb h))) (.recallLine (.fillTlb h)))

theorem MemOk.fetchWord {va : Nat} {s : State} (h : MemOk s) :
    MemOk (fetchWord va s).2 := by
  unfold Machine.fetchWord
  dsimp only
  split
  · exact h
  · split
    · exact h
    · split
      · exact h
      · exact h
      · exact h
      · split
        · exact .fetchCached h
        · exact .fetchCached h

theorem MemOk.fetchWords {n va : Nat} {s : State} (h : MemOk s) : MemOk (fetchWords n va s).2.2 := by
  induction n generalizing va s with
  | zero => exact h
  | succ n ih =>
    unfold Machine.fetchWords
    dsimp only
    split
    · exact ih (.fetchWord h)
    · exact .fetchWord h

theorem MemOk.holdFault {again : Option Instr} {va kind level : Nat} {s : State} (h : MemOk s) :
    MemOk (holdFault again va kind level s) :=
  .ite (.walkFor h) (.postFault (.walkFor h))

theorem MemOk.headerTrap {cause : Cause} {lanes : Lanes} {pc : DWord} {ins addr : Nat} {s : State} (h : MemOk s) :
    MemOk (headerTrap cause lanes pc ins addr s) :=
  .takeTrap h

theorem MemOk.fetchFailed {r : Fetched} {lanes : Lanes} {pc : DWord} {ins : Nat} {s : State} (h : MemOk s) :
    MemOk (fetchFailed r lanes pc ins s) := by
  unfold Machine.fetchFailed
  split
  · exact .headerTrap h
  · exact .holdFault h
  · exact h

theorem MemOk.takeLate {s : State} (h : MemOk s) : MemOk (takeLate s) := by
  unfold Machine.takeLate
  split
  · exact h
  · exact .ite (.lateUntaken h) (.takeTrap (freeCloaks_wf _ _ _ h))

theorem MemOk.noteIssue {k : Slot} {s : State} (h : MemOk s) : MemOk (noteIssue k s) := h

theorem MemOk.beginClause {pc : DWord} {h : Nat} {words : List Nat} {issue : Lanes} {s : State} (hs : MemOk s) :
    MemOk (beginClause pc h words issue s) :=
  .noteIssue hs

theorem MemOk.issueHeader {h : Nat} {s : State} (hs : MemOk s) :
    MemOk (issueHeader h s) := by
  unfold Machine.issueHeader
  dsimp only
  split
  · exact hs
  · split
    · exact .killFocused hs
    · split
      · exact .takeLate hs
      · split
        · exact hs
        · split
          · exact .headerTrap hs
          · split
            · exact .fetchFailed (.fetchWords hs)
            · exact .ite (.beginClause (.fetchWords hs)) (.fetchWords hs)

theorem MemOk.refetch {c : Clause} {s : State} (h : MemOk s) :
    MemOk (refetch c s) := by
  unfold Machine.refetch
  dsimp only
  split
  · exact .fetchFailed (.fetchWords h)
  · exact .fetchWords h

theorem MemOk.afterWord {s : State} (h : MemOk s) :
    MemOk (afterWord s) := by
  unfold Machine.afterWord
  dsimp only
  split
  · exact h
  · exact .ite h h

theorem MemOk.barrierTurn {b : Nat} {token : Word} {s : State} (h : MemOk s) :
    MemOk (barrierTurn b token s) := by
  unfold Machine.barrierTurn
  dsimp only
  split
  · exact .ite h (.afterWord (.acquireNow h))
  · exact h

theorem MemOk.cwaitEnd {d : Nat} {v : Word} {s : State} (h : MemOk s) : MemOk (cwaitEnd d v s) :=
  .acquireNow (.writeS h)

theorem MemOk.cwaitTurn {d : Nat} {res : Option Word} {s : State} (h : MemOk s) :
    MemOk (cwaitTurn d res s) := by
  unfold Machine.cwaitTurn
  dsimp only
  split
  · exact .afterWord (.cwaitEnd h)
  · exact h

/-! ## Accesses of the lanes -/

theorem MemOk.wakeScratch {a n : Nat} {s : State} (h : MemOk s) : MemOk (wakeScratch a n s) := .ite h h

theorem MemOk.storeScratch {a n v : Nat} {s : State} (h : MemOk s) : MemOk (storeScratch a n v s) := .wakeScratch h

theorem MemOk.setScratchFe {a : Nat} {full : Bool} {s : State} (h : MemOk s) : MemOk (setScratchFe a full s) :=
  .wakeScratch h

theorem MemOk.failChecks {c : Nat → Check} {va : Nat → Nat} {lanes : List Nat} {dst kind : Nat} {again : Instr}
    {l : Nat} {r : Check} {s : State} (h : MemOk s) : MemOk (failChecks c va lanes dst kind again l r s) := by
  unfold Machine.failChecks
  split
  · exact .raise h
  · exact .holdFault h
  · exact h

theorem MemOk.fillPages {va : Nat → Nat} {ps : List (Nat × Leaf)} {s : State} (h : MemOk s) :
    MemOk (fillPages va ps s) :=
  .foldl (fun _ _ h => .fillTlb h) h

theorem MemOk.checked {ask : Ask} {n : Nat} {va : Nat → Nat} {lanes : List Nat} {dst kind : Nat} {again : Instr}
    {go : List (Nat × Leaf) → State → State} {s : State} (hgo : ∀ a t, MemOk t → MemOk (go a t)) (h : MemOk s) :
    MemOk (checked ask n va lanes dst kind again go s) := by
  unfold Machine.checked
  dsimp only
  split
  · exact .failChecks h
  · exact hgo _ _ (.fillPages h)

theorem MemOk.checkedScratch {n : Nat} {off : Nat → Nat} {lanes : List Nat} {dst : Nat} {again : Instr}
    {go : List (Nat × Leaf) → State → State} {s : State} (hgo : ∀ a t, MemOk t → MemOk (go a t)) (h : MemOk s) :
    MemOk (checkedScratch n off lanes dst again go s) := by
  unfold Machine.checkedScratch
  dsimp only
  split
  · exact .failChecks h
  · exact hgo _ _ h

theorem MemOk.checkedSpans {ask : Ask} {kind dst : Nat} {again : Instr} {ps : Nat → List (Nat × Nat)}
    {lanes : List Nat} {go : SMap (List Span) → State → State} {s : State} (hgo : ∀ a t, MemOk t → MemOk (go a t))
    (h : MemOk s) : MemOk (checkedSpans ask kind dst again ps lanes go s) := by
  unfold Machine.checkedSpans
  dsimp only
  split
  · exact hgo _ _ (.foldl (fun _ _ h => .fillTlb h) h)
  · exact .holdFault h
  · split
    · exact .raise h
    · exact h

theorem MemOk.pushOp {i : Instr} {ctr : Nat} {lanes : List Nat} {src : Nat → List Nat} {pages : List (Nat × Leaf)}
    {s : State} (h : MemOk s) : MemOk (pushOp i ctr lanes src pages s) :=
  h

theorem MemOk.pushEngine {i : Instr} {lanes : List Nat} {src : Nat → List Nat} {aux : List Nat}
    {spans : SMap (List Span)} {s : State} (h : MemOk s) : MemOk (pushEngine i lanes src aux spans s) :=
  h

theorem MemOk.performScratch {o : Op} {l a : Nat} {s : State} (h : MemOk s) :
    MemOk (performScratch o l a s).2 := by
  unfold Machine.performScratch
  dsimp only
  split
  · exact h
  · exact .storeScratch h
  · exact .setScratchFe h
  · exact h
  · exact .storeScratch h
  · exact .ite (.storeScratch h) h

theorem MemOk.logLane {o : Op} {l : Nat} {s : State} (h : MemOk s) : MemOk (logLane o l s) := .logEntry h

theorem MemOk.wcBuffer {core block : Nat} {s : State} (h : MemOk s) :
    MemOk (wcBuffer core block s).2 := by
  unfold Machine.wcBuffer
  dsimp only
  split
  · exact h
  · split
    · exact h
    · exact .drain h

theorem MemOk.drainFull {core b : Nat} {s : State} (h : MemOk s) : MemOk (drainFull core b s) := .ite (.drain h) h

theorem MemOk.drainBuffers {core : Nat} {s : State} (h : MemOk s) : MemOk (drainBuffers core s) :=
  .ite (.foldl (fun _ _ h => .drainFull h) h) h

theorem MemOk.performStore {o : Op} {l : Nat} {leaf : Leaf} {feset : Bool} {s : State} (h : MemOk s) :
    MemOk (performStore o l leaf feset s).2 :=
  .iteSnd (.logLane h) (.acceptStore (.iteSnd (.wcBuffer h) h))

theorem MemOk.meetAtomics {pa n : Nat} {s : State} (h : MemOk s) : MemOk (meetAtomics pa n s) := h

theorem MemOk.performAtomic {o : Op} {l : Nat} {leaf : Leaf} {inL1 : Bool} {s : State} (h : MemOk s) :
    MemOk (performAtomic o l leaf inL1 s).2 :=
  .iteSnd (.ite (.acceptStore (.readL1 h)) (.readL1 h))
    (.ite (.patchL1 (.viewWrite (.meetAtomics (.readHome h)))) (.readHome h))

theorem MemOk.performReduction {o : Op} {l : Nat} {leaf : Leaf} {s : State} (h : MemOk s) :
    MemOk (performReduction o l leaf s).2 :=
  .iteSnd (.logLane h) (.iteSnd (.ite (.settle h) (.makeRoom (.settle h))) (.applyUpdate (.settle h)))

theorem MemOk.readPart {o : Op} {p : Span} {off n : Nat} {s : State} (h : MemOk s) :
    MemOk (readPart o p off n s).2 := by
  unfold Machine.readPart
  dsimp only
  split
  · exact .findEcc h
  · exact .readL1 h

theorem MemOk.readRest {o : Op} {p : Span} {n k off : Nat} {s : State} (h : MemOk s) :
    MemOk (readRest o p n k off s).2 := by
  induction k generalizing off s with
  | zero => exact h
  | succ k ih =>
    unfold Machine.readRest
    extract_lets read
    have hread : MemOk read.2 := by
      unfold read
      split
      · exact h
      · exact .readPart h
    clear_value read
    split
    · exact hread
    · next t =>
      have read' : MemOk t := hread
      split
      · next e => exact .ofEq e (ih read')
      · next e => exact .ofEq e (ih read')

theorem MemOk.readSpan {o : Op} {p : Span} {s : State} (h : MemOk s) : MemOk (readSpan o p s).2 :=
  .iteSnd (.readPart h) (.readRest h)

theorem MemOk.readSpans {o : Op} {ps : List Span} {s : State} (h : MemOk s) : MemOk (readSpans o ps s).2 := by
  induction ps generalizing s with
  | nil => exact h
  | cons p ps ih =>
    unfold Machine.readSpans
    split
    · next e => exact .ofEq e (.readSpan h)
    · next e =>
      split
      · next e' => exact .ofEq e' (ih (.ofEq e (.readSpan h)))
      · next e' => exact .ofEq e' (ih (.ofEq e (.readSpan h)))

theorem MemOk.performGlobal {o : Op} {l : Nat} {leaf : Leaf} {inL1 : Bool} {s : State} (h : MemOk s) :
    MemOk (performGlobal o l leaf inL1 s).2 := by
  unfold Machine.performGlobal
  dsimp only
  split
  · split
    · exact .findEcc h
    · exact .readL1 h
  · split
    · exact .findEcc h
    · exact .readL1 h
  · split
    · exact .findEcc h
    · exact .readHome h
  · exact .performStore h
  · exact .performStore h
  · exact .performReduction h
  · exact .performReduction h
  · exact .performReduction h
  · split
    · exact h
    · split
      · exact .findEcc h
      · exact .performAtomic h

theorem MemOk.performLane {o : Op} {inL1 : Bool} {l : Nat} {s : State} (h : MemOk s) :
    MemOk (performLane o inL1 l s).2 := by
  unfold Machine.performLane
  split
  · exact h
  · exact .iteSnd (.performScratch h) (.performGlobal h)

theorem MemOk.performLanes {one : Nat → State → Done × State} {ls : List Nat} {s : State}
    (hone : ∀ l t, MemOk t → MemOk (one l t).2) (h : MemOk s) : MemOk (performLanes one ls s).2.2.2 := by
  induction ls generalizing s with
  | nil => exact h
  | cons l ls ih => exact ih (hone _ _ h)

theorem MemOk.orderLanes {act : Extent → State → State} {o : Op} {ls : List Nat} {s : State}
    (hact : ∀ e t, MemOk t → MemOk (act e t)) (h : MemOk s) : MemOk (orderLanes act o ls s) := by
  induction ls generalizing s with
  | nil => exact h
  | cons l ls ih => exact ih (hact _ _ h)

theorem MemOk.performOp {one : Nat → State → Done × State} {o : Op} {lanes : List Nat} {s : State}
    (hone : ∀ a t, MemOk t → MemOk (one a t).2) (h : MemOk s) : MemOk (performOp one o lanes s).2.2 := by
  unfold Machine.performOp
  split
  next order scope _ =>
    extract_lets +onlyGivenNames released
    have hreleased : MemOk released := .ite (.orderLanes (fun _ _ h => .releaseNow h) h) h
    clear_value released
    split
    next e =>
      have performed := MemOk.performLanes (ls := if o.ctr == 3 then lanes else byPlace o 64 lanes) hone hreleased
      rw [e] at performed
      exact .ite (.orderLanes (fun _ _ h => .acquireNow h) (.drainBuffers performed)) (.drainBuffers performed)

theorem MemOk.readAhead {ctr k lane va off : Nat} {s : State} (h : MemOk s) :
    MemOk (readAhead ctr k lane va off s) := by
  unfold Machine.readAhead
  dsimp only
  split
  · exact h
  · split
    · exact h
    · split
      · exact h
      · split
        · exact h
        · split
          · exact h
          · next e =>
            have read := MemOk.ofEq e (.readPart h)
            exact read

/-! ## Power islands -/

theorem MemOk.killIsland {cluster : Nat} {s : State} (h : MemOk s) : MemOk (killIsland cluster s) :=
  .foldl (fun _ _ h => .discardCohort h) h

theorem MemOk.forceGate {cluster : Nat} {s : State} (h : MemOk s) : MemOk (forceGate cluster s) := by
  unfold Machine.forceGate
  extract_lets killed dropped down
  have hkilled : MemOk killed := .killIsland h
  have hdropped : MemOk dropped := .forFifos (fun _ _ h => .dropEntries h) hkilled
  have hdown : MemOk down := .forFifos (fun _ _ h => .updFifo h) hdropped
  exact .updIsland hdown

theorem MemOk.raiseFifos {cluster : Nat} {s : State} (h : MemOk s) : MemOk (raiseFifos cluster s) :=
  .forFifos (fun _ _ h => .ite (.updFifo (.dropEntries h)) h) h

theorem MemOk.beginGate {cluster : Nat} {s : State} (h : MemOk s) : MemOk (beginGate cluster s) :=
  .drainIsland (.updIsland h)

theorem MemOk.requestLevel {cluster r : Nat} {s : State} (h : MemOk s) : MemOk (requestLevel cluster r s).2 :=
  .iteSnd (.iteSnd (.updIsland h) h) (.updIsland h)

theorem MemOk.islandRequest {cluster r : Nat} {foreign : Bool} {s : State} (h : MemOk s) :
    MemOk (islandRequest cluster r foreign s).2 := by
  unfold Machine.islandRequest
  dsimp only
  split
  · exact h
  · exact .iteSnd h
      (.iteSnd (.updIsland h) (.iteSnd (.iteSnd h (.forceGate h)) (.iteSnd (.updIsland h) (.beginGate h))))
  · refine .iteSnd (.updIsland h) (.iteSnd (.updIsland h) (.iteSnd ?_ h))
    dsimp only
    exact .raiseFifos (.updIsland h)
  · exact .requestLevel h

theorem MemOk.powerRequest {island r : Nat} {foreign : Nat → Bool} {s : State} (h : MemOk s) :
    MemOk (powerRequest island r foreign s).2 :=
  .iteSnd h (.iteSnd h (.islandRequest h))

/-! ## Control transfers, waits and barriers -/

theorem MemOk.transfer {taken : Nat → Bool} {tgt : Nat → DWord} {ret : Option Nat} {spin : Bool} {s : State}
    (h : MemOk s) : MemOk (transfer taken tgt ret spin s) := by
  unfold Machine.transfer
  dsimp only
  split
  · exact .raise h
  · exact h

theorem MemOk.writeM {m : Nat} {x : Lanes} {s : State} (h : MemOk s) : MemOk (writeM m x s) := h

theorem OutOk.execEvYieldEnd {s : State} (h : MemOk s) :
    OutOk (execEvYieldEnd s) := by
  unfold Machine.execEvYieldEnd
  dsimp only
  split
  · exact .ite (.afterWord h) h
  · exact h

theorem OutOk.execEvSleepEnd {s : State} (h : MemOk s) :
    OutOk (execEvSleepEnd s) := by
  unfold Machine.execEvSleepEnd
  dsimp only
  split
  · exact .ite (.afterWord h) h
  · exact h

theorem MemOk.setBarrier {cohort b : Nat} {x : Barrier} {s : State} (h : MemOk s) : MemOk (setBarrier cohort b x s) :=
  .updCohort h

theorem MemOk.arrival {i : Instr} {b : Nat} {done : Word → State → State} {s : State}
    (hdone : ∀ a t, MemOk t → MemOk (done a t)) (h : MemOk s) : MemOk (arrival i b done s) := by
  unfold Machine.arrival
  dsimp only
  split
  · exact h
  · exact .ite h (.ite (.raise h) (.ite (.holdAgain h) (hdone _ _ (.setBarrier (.releaseNow h)))))

theorem OutOk.execBars {f : SF} {s : State} (h : MemOk s) :
    OutOk (execBars f s) := by
  unfold Machine.execBars
  dsimp only
  refine .arrival (fun _ _ h => ?_) h
  split
  · exact .ite h (.acquireNow h)
  · exact h

theorem OutOk.execBarw {f : SF} {s : State} (h : MemOk s) :
    OutOk (execBarw f s) := by
  unfold Machine.execBarw
  split
  · exact .ite (.holdAgain h) (.acquireNow h)
  · exact h

theorem OutOk.execBarm {f : SF} {s : State} (h : MemOk s) :
    OutOk (execBarm f s) := by
  unfold Machine.execBarm
  split
  · exact h
  · split
    · split
      · exact .setBarrier h
      · exact .raise h
    · exact h

theorem MemOk.growResult {f : SF} {ok : Bool} {old : Nat} {s : State} (h : MemOk s) : MemOk (growResult f ok old s) :=
  .ite (.writeS (.writeP h)) (.writeP h)

theorem OutOk.execGrow {f : SF} {s : State} (h : MemOk s) :
    OutOk (execGrow f s) := by
  unfold Machine.execGrow
  dsimp only
  split
  · exact h
  · exact .ite h
      (.ite (.raise h) (.ite (.growResult h) (.ite (.holdAgain h) (.growResult (.updLaunch (.releaseNow h))))))

theorem MemOk.postEventAt {t kind ctx version core wave code payload : Nat} {s : State} (h : MemOk s) :
    MemOk (postEventAt t kind ctx version core wave code payload s) :=
  .postEvent h

theorem OutOk.execPgreq {f : SF} {s : State} (h : MemOk s) : OutOk (execPgreq f s) :=
  MemOk.ite h (.ite (.raise h) (.ite (.raise h) (.ite (.powerRequest h) (.powerRequest h))))

/-! ## Copy commands -/

theorem MemOk.readRecord {who core ctx tag va n : Nat} {s t : State} {bs : List Nat}
    (e : readRecord s who core ctx tag va n = .ok (bs, t)) (h : MemOk s) : MemOk t := by
  unfold Machine.readRecord at e
  split at e
  · cases e
  · split at e
    · cases e
    · split at e
      · cases e
      · cases e
        exact .fillTlb (.readHome h)

theorem MemOk.countDrop {core : Nat} {s : State} (h : MemOk s) : MemOk (countDrop core s) := h

theorem MemOk.setCpdiag {x : SMap Nat} {s : State} (h : MemOk s) : MemOk { s with cpdiag := x } := h

theorem MemOk.setLastErr {core code : Nat} {s : State} (h : MemOk s) : MemOk (setLastErr core code s) :=
  .setCpdiag h

theorem MemOk.moveRead {c : Cmd} {m : Move} {s : State} (h : MemOk s) :
    MemOk (moveRead c m s).2.2 := by
  unfold Machine.moveRead
  dsimp only
  split
  · exact h
  · exact h
  · split
    · exact h
    · exact .readHome (.fillTlb h)

theorem MemOk.moveWrite {c : Cmd} {m : Move} {v : Nat} {fe : Option Bool} {s : State} (h : MemOk s) :
    MemOk (moveWrite c m v fe s) := by
  unfold Machine.moveWrite
  dsimp only
  split
  · exact h
  · split
    · exact h
    · split
      · exact .setScratchFe (.storeScratch h)
      · exact .storeScratch h
  · split
    · exact h
    · split
      · exact .viewSetFe (.viewWrite (.recallLine (.fillTlb h)))
      · exact .viewWrite (.recallLine (.fillTlb h))

theorem MemOk.doMove {c : Cmd} {m : Move} {s : State} (h : MemOk s) : MemOk (doMove c m s) := .moveWrite (.moveRead h)

theorem MemOk.fillWord {c : Cmd} {p : Place} {s : State} (h : MemOk s) :
    MemOk (fillWord c p s) := by
  unfold Machine.fillWord
  split
  · exact h
  · exact .ite (.setScratchFe h) h
  · split
    · exact .viewSetFe h
    · exact h

theorem MemOk.fillWords {c : Cmd} {ms later : List Move} {s : State} (h : MemOk s) : MemOk (fillWords c ms later s) :=
  .ite h (.foldl (fun _ _ h => .fillWord h) h)

theorem MemOk.doMoves {c : Cmd} {ms later : List Move} {s : State} (h : MemOk s) : MemOk (doMoves c ms later s) :=
  .fillWords (.foldl (fun _ _ h => .doMove h) h)

theorem MemOk.clearPoison {ks : List Nat} {s : State} (h : MemOk s) : MemOk (clearPoison ks s) := h

theorem MemOk.testWaits {a : Nat} {s : State} (h : MemOk s) : MemOk (testWaits a s) := .mapWaves h

theorem MemOk.setSlot {a slot : Nat} {s : State} (h : MemOk s) : MemOk (setSlot a slot s) :=
  .testWaits (.storeScratch (.storeScratch h))

theorem MemOk.landSlot {c : Cmd} {k : Nat} {s : State} (h : MemOk s) :
    MemOk (landSlot c k s) := by
  unfold Machine.landSlot
  split
  · exact h
  · split
    · exact .setSlot h
    · exact .countDrop h

theorem MemOk.poisonBarrier {c : Cmd} {code : Nat} {s : State} (h : MemOk s) :
    MemOk (poisonBarrier c code s) := by
  unfold Machine.poisonBarrier
  dsimp only
  split
  · exact .ite (.setLastErr h) h
  · split
    · exact .countDrop (.ite (.setLastErr h) h)
    · exact .testWaits (.storeScratch (.ite (.setLastErr h) h))

theorem MemOk.finishCmd {c : Cmd} {err : Nat} {s : State} (h : MemOk s) :
    MemOk (finishCmd c err s) := by
  unfold Machine.finishCmd
  dsimp only
  split
  · exact .complete h
  · exact .mapWaves h

theorem MemOk.leaveWcp {id : Nat} {s : State} (h : MemOk s) : MemOk (leaveWcp id s) := .retire (.mapWaves h)

theorem MemOk.recordBad {c : Cmd} {b : Bad} {s : State} (h : MemOk s) :
    MemOk (recordBad c b s) := by
  unfold Machine.recordBad
  split
  · exact h
  · exact .postFault h

theorem MemOk.poisonCmd {c : Cmd} {b : Bad} {after : State → State} {s : State}
    (hafter : ∀ t, MemOk t → MemOk (after t)) (h : MemOk s) : MemOk (poisonCmd c b after s) := by
  unfold Machine.poisonCmd
  dsimp only
  split
  · exact h
  · refine .finishCmd ?_
    refine hafter _ ?_
    refine .poisonBarrier ?_
    refine .recordBad ?_
    split
    · exact .findEcc h
    · exact h

theorem MemOk.reserve {c : Cmd} {a n base : Nat} {s t : State} (e : reserve c a n s = .ok (base, t)) (h : MemOk s) :
    MemOk t := by
  unfold Machine.reserve at e
  dsimp only at e
  split at e
  · cases e
  · split at e
    · cases e
    · split at e
      · cases e
      · cases e
        exact .testWaits (.storeScratch h)

theorem MemOk.emptyWords {a n : Nat} {s : State} (h : MemOk s) : MemOk (emptyWords a n s) :=
  .ite h (.foldl (fun _ _ h => .setScratchFe h) h)

theorem MemOk.reserveCmd {c : Cmd} {n : Nat} {prep : State → State} {s : State}
    (hprep : ∀ t, MemOk t → MemOk (prep t)) (h : MemOk s) : MemOk (reserveCmd c n prep s) := by
  have dropped : MemOk (Machine.countDrop c.core s) := .countDrop h
  unfold Machine.reserveCmd
  dsimp only
  split
  · exact .leaveWcp (hprep _ h)
  · split
    · exact .leaveWcp (hprep _ dropped)
    · split
      · exact .leaveWcp (.poisonCmd (fun _ h => h) h)
      · next e =>
        have reserved := MemOk.reserve e h
        exact .leaveWcp (hprep _ reserved)

theorem MemOk.readRecords {c : Cmd} {s t : State} {bs : List Nat} (e : readRecords c s = .ok (bs, t)) (h : MemOk s) :
    MemOk t := by
  unfold Machine.readRecords at e
  dsimp only at e
  split at e
  · split at e
    · cases e
    · split at e
      · cases e
      · next e1 =>
        split at e
        · cases e
        · next e2 =>
          cases e
          exact .readRecord e2 (.readRecord e1 h)
  · split at e
    · cases e
    · exact .readRecord e h

theorem MemOk.noteAccept {c : Cmd} {s : State} (h : MemOk s) : MemOk (noteAccept c s) := .ite h h

theorem MemOk.acceptCmd {c : Cmd} {s : State} (h : MemOk s) : MemOk (acceptCmd c s) := by
  have noted : MemOk (Machine.noteAccept c s) := .noteAccept h
  unfold Machine.acceptCmd
  dsimp only
  split
  · exact .reserveCmd (fun _ h => h) noted
  · split
    · exact .ite (.leaveWcp (.poisonCmd (fun _ h => h) noted)) noted
    · next e =>
      have read := MemOk.readRecords e noted
      split
      · split
        · exact .leaveWcp (.poisonCmd (fun _ h => h) read)
        · exact .reserveCmd (fun _ h => h) read
      · split
        · exact .leaveWcp (.poisonCmd (fun _ h => h) read)
        · refine .reserveCmd (fun _ h => ?_) read
          split
          · exact .emptyWords h
          · exact h

theorem MemOk.partialChunks {c : Cmd} {part bad : Nat} {ks : List Nat} {s : State} (h : MemOk s) :
    MemOk (partialChunks c part bad ks s) := by
  induction ks generalizing s with
  | nil => exact h
  | cons k ks ih =>
    unfold Machine.partialChunks
    extract_lets ms covered go whole rest moved t
    have hmoved : MemOk moved := .ite (.doMoves h) (.foldl (fun _ _ h => .doMove h) h)
    have ht : MemOk t := .clearPoison hmoved
    exact ih (.ite ht (.ite (.countDrop ht) (.landSlot ht)))

theorem MemOk.landChunk {c : Cmd} {k : Nat} {ms : List Move} {covered : List Nat} {s : State} (h : MemOk s) :
    MemOk (landChunk c k ms covered s) := by
  unfold Machine.landChunk
  extract_lets rest moved landed
  have hmoved : MemOk moved := .clearPoison (.doMoves h)
  have hlanded : MemOk landed := .ite (.countDrop hmoved) (.landSlot hmoved)
  exact .ite (.finishCmd hlanded) hlanded

theorem MemOk.abandonChunk {c : Cmd} {k : Nat} {s : State} (h : MemOk s) : MemOk (abandonChunk c k s) :=
  .ite (.finishCmd h) h

theorem MemOk.abandonWaits {ctx : Nat} {s : State} (h : MemOk s) :
    MemOk (abandonWaits ctx s) := by
  unfold Machine.abandonWaits
  refine .foldl (fun _ _ h => ?_) h
  refine .foldl (fun _ _ h => ?_) h
  split
  · exact .abandonChunk h
  · exact h

theorem MemOk.completeChunk {c : Cmd} {k part : Nat} {s : State} (h : MemOk s) :
    MemOk (completeChunk c k part s) := by
  unfold Machine.completeChunk
  dsimp only
  split
  · exact .poisonCmd (fun _ h => .partialChunks h) h
  · exact .ite (.landChunk h) (.ite (.abandonChunk h) h)

theorem OutOk.execEvCopyAccept {id : Nat} {s : State} (h : MemOk s) :
    OutOk (execEvCopyAccept id s) := by
  unfold Machine.execEvCopyAccept
  split
  · exact .ite (.acceptCmd h) h
  · exact h

theorem OutOk.execEvChunkComplete {id chunk part : Nat} {s : State} (h : MemOk s) :
    OutOk (execEvChunkComplete id chunk part s) := by
  unfold Machine.execEvChunkComplete
  split
  · exact .ite (.completeChunk h) h
  · exact h

theorem MemOk.issueCmd {i : Instr} {f : CF} {kind : Nat} {nums : Nat → List Nat} {room : Bool} {s : State}
    (h : MemOk s) : MemOk (issueCmd i f kind nums room s) := by
  unfold Machine.issueCmd
  dsimp only
  split
  · exact h
  · split
    · exact .raise h
    · exact h
    · exact .ite (.holdAgain h) h

theorem OutOk.execCwait {f : V3} {s : State} (h : MemOk s) :
    OutOk (execCwait f s) := by
  unfold Machine.execCwait
  dsimp only
  split
  · exact h
  · split
    · exact .raise h
    · exact h
    · exact .ite (.cwaitEnd h) h

/-! ## Full/empty accesses and parked lanes -/

theorem MemOk.attemptGlobal {i : Instr} {va data : Nat} {leaf : Leaf} {tag : Nat} {s : State} (h : MemOk s) :
    MemOk (attemptGlobal i va data leaf tag s).2 := by
  unfold Machine.attemptGlobal
  dsimp only
  split
  · exact .findEcc h
  · split
    · exact .readHome h
    · split
      · exact .acquireNow (.readHome h)
      · exact .acquireNow (.viewSetFe (.readHome h))
      · exact .viewSetFe (.patchL1 (.viewWrite (.releaseNow (.readHome h))))
      · exact .readHome h

theorem MemOk.attemptScratch {i : Instr} {cell data : Nat} {s : State} (h : MemOk s) :
    MemOk (attemptScratch i cell data s).2 := by
  unfold Machine.attemptScratch
  dsimp only
  split
  · exact h
  · split
    · exact .acquireNow h
    · exact .acquireNow (.setScratchFe h)
    · exact .setScratchFe (.storeScratch (.releaseNow h))

theorem MemOk.noteWaiter {p : Park} {s : State} (h : MemOk s) : MemOk (noteWaiter p s) :=
  .ite h (.ite (.holdLine (.setWaiters h)) (.setWaiters h))

theorem MemOk.parkGroup {slots : List Park} {s : State} (h : MemOk s) : MemOk (parkGroup slots s) := by
  unfold Machine.parkGroup
  split
  · exact h
  · dsimp only
    split
    · exact .noteWaiter h
    · dsimp only [MemOk]
      split
      · exact MemOk.noteWaiter h
      · exact writeMem_wf _ _ _ _ (MemOk.noteWaiter h)

theorem MemOk.parkLanes {n : Nat} {ps : List Park} {s : State} (h : MemOk s) : MemOk (parkLanes n ps s) := by
  induction n generalizing ps s with
  | zero => exact h
  | succ n ih =>
    cases ps with
    | nil => exact h
    | cons p ps => exact ih (.parkGroup h)

theorem MemOk.tryLanes {i : Instr} {scratch : Bool} {va data : Nat → Nat} {page : Nat → Option Leaf} {ls : List Nat}
    {s : State} (h : MemOk s) : MemOk (tryLanes i scratch va data page ls s).2 := by
  induction ls generalizing s with
  | nil => exact h
  | cons l ls ih =>
    unfold Machine.tryLanes
    split
    · exact ih h
    · dsimp only
      split
      · exact ih (.iteSnd (.attemptScratch h) (.attemptGlobal h))
      · exact ih (.iteSnd (.attemptScratch h) (.attemptGlobal h))
      · exact ih (.iteSnd (.attemptScratch h) (.attemptGlobal h))

theorem MemOk.pushDone {i : Instr} {ctr : Nat} {lanes : List Nat} {res : List Land} {s : State} (h : MemOk s) :
    MemOk (pushDone i ctr lanes res s) :=
  .retire h

theorem MemOk.errsLate {i : Instr} {va : Nat → Nat} {errs : List (Nat × Cause)} {s : State} (h : MemOk s) :
    MemOk (errsLate i va errs s) :=
  h

theorem MemOk.attemptAll {i : Instr} {scratch : Bool} {va data : Nat → Nat} {lanes : List Nat}
    {pages : List (Nat × Leaf)} {s : State} (h : MemOk s) : MemOk (attemptAll i scratch va data lanes pages s) := by
  unfold Machine.attemptAll
  dsimp only
  refine .errsLate ?_
  refine .parkLanes ?_
  split
  · exact .tryLanes h
  · exact .pushDone (.tryLanes h)

theorem MemOk.awaitFirst {i : Instr} {scratch : Bool} {va data : Nat → Nat} {lanes : List Nat}
    {pages : List (Nat × Leaf)} {s : State} (h : MemOk s) : MemOk (awaitFirst i scratch va data lanes pages s) :=
  h

theorem MemOk.attemptOrWait {i : Instr} {scratch : Bool} {va data : Nat → Nat} {lanes : List Nat}
    {pages : List (Nat × Leaf)} {s : State} (h : MemOk s) : MemOk (attemptOrWait i scratch va data lanes pages s) :=
  .ite (.ite (.holdAgain h) (.awaitFirst h)) (.attemptAll h)

theorem MemOk.waitGlobal {i : Instr} {va data : Nat → Nat} {s : State} (h : MemOk s) :
    MemOk (waitGlobal i va data s) :=
  .ite h (.checked (fun _ _ h => .attemptOrWait h) h)

theorem MemOk.waitScratch {i : Instr} {off data : Nat → Nat} {s : State} (h : MemOk s) :
    MemOk (waitScratch i off data s) :=
  .ite h (.checkedScratch (fun _ _ h => .attemptOrWait h) h)

theorem MemOk.unpark {p : Park} {v : Nat} {s : State} (h : MemOk s) : MemOk (unpark p v s) := h

theorem MemOk.parkTrap {p : Park} {c : Cause} {s : State} (h : MemOk s) : MemOk (parkTrap p c s) := h

theorem MemOk.parkAgain {p : Park} {s : State} (h : MemOk s) : MemOk (parkAgain p s) :=
  .ite (.parkTrap h) (.parkGroup h)

theorem MemOk.retry {p : Park} {s : State} (h : MemOk s) :
    MemOk (retry p s).2 := by
  unfold Machine.retry
  dsimp only
  split
  · split
    · next e =>
      have ht := MemOk.ofEq e (.attemptScratch h)
      exact ht
    · next e =>
      have ht := MemOk.ofEq e (.attemptScratch h)
      exact ht
    · next e =>
      have ht := MemOk.ofEq e (.attemptScratch h)
      exact ht
  · split
    · exact h
    · exact h
    · split
      · next e =>
        have ht := MemOk.ofEq e (.attemptGlobal h)
        exact ht
      · next e =>
        have ht := MemOk.ofEq e (.attemptGlobal h)
        exact ht
      · next e =>
        have ht := MemOk.ofEq e (.attemptGlobal h)
        exact ht

theorem MemOk.retryFault {p : Park} {level : Nat} {s : State} (h : MemOk s) : MemOk (retryFault p level s) :=
  .ite (.holdFault h) h

theorem MemOk.reevaluate {p : Park} {s : State} (h : MemOk s) :
    MemOk (reevaluate p s) := by
  unfold Machine.reevaluate
  split
  · next e =>
    have ht := MemOk.ofEq e (.retry h)
    exact .unpark ht
  · next e =>
    have ht := MemOk.ofEq e (.retry h)
    exact .parkAgain ht
  · next e =>
    have ht := MemOk.ofEq e (.retry h)
    exact .parkTrap ht
  · next e =>
    have ht := MemOk.ofEq e (.retry h)
    exact .retryFault ht

theorem MemOk.placeFailed {failed : List Park} {s : State} (h : MemOk s) : MemOk (placeFailed failed s) :=
  .parkLanes h

theorem MemOk.firstAttempts {ps failed : List Park} {s : State} (h : MemOk s) : MemOk
    (firstAttempts ps failed s) := by
  induction ps generalizing failed s with
  | nil => exact .placeFailed h
  | cons p ps ih =>
    unfold Machine.firstAttempts
    split
    · next e => exact ih (.unpark (.ofEq e (.retry h)))
    · next e => exact ih (.ofEq e (.retry h))
    · next e => exact ih (.parkTrap (.ofEq e (.retry h)))
    · next e => exact .placeFailed (.retryFault (.ofEq e (.retry h)))

theorem OutOk.execEvReevaluation {lane : Nat} {s : State} (h : MemOk s) :
    OutOk (execEvReevaluation lane s) := by
  unfold Machine.execEvReevaluation
  dsimp only
  split
  · exact .ite (.reevaluate h) (.ite h (.firstAttempts h))
  · exact h

/-! ## Commitment of a version -/

theorem MemOk.mergeCommitted {x : Sector} {s : State} (h : MemOk s) : MemOk (mergeCommitted x s) :=
  .homeWrite (writeMem_wf _ _ _ _ h)

theorem MemOk.retag {ctx t u : Nat} {merged : List Nat} {s : State} (h : MemOk s) : MemOk (retag ctx t u merged s) :=
  h

theorem MemOk.commitPoint {ctx v : Nat} {s : State} (h : MemOk s) : MemOk (commitPoint ctx v s) := by
  unfold Machine.commitPoint
  extract_lets p gv squashed recalled mine rest nums kept merged lifted retagged log others logged joined
  have hsquashed : MemOk squashed := .foldl (fun _ _ h => .squashTree h) h
  have hrecalled : MemOk recalled := .foldl (fun _ _ h => .recallLine h) hsquashed
  have hmerged : MemOk merged :=
    .ite (.foldl (fun _ _ h => .mergeCommitted h) hrecalled) (.foldl (fun _ _ h => .wake h) hrecalled)
  have hlifted : MemOk lifted := .foldl (fun _ _ h => .updTag h) hmerged
  have hretagged : MemOk retagged := .retag hlifted
  have hlogged : MemOk logged := .ite hretagged hretagged
  have hjoined : MemOk joined := .ite hlogged (.updTag hlogged)
  exact .updTag hjoined

/-! ## PUT and layout commands -/

theorem MemOk.send {kind dest : Nat} {data : List Nat} {s : State} (h : MemOk s) : MemOk (send kind dest data s) := h

theorem MemOk.holdMessage {kind id : Nat} {s : State} (h : MemOk s) : MemOk (holdMessage kind id s) := h

theorem MemOk.putRead {c : Cmd} {n va : Nat} {s t : State} {bs : List Nat} (e : putRead c n va s = .ok (bs, t))
    (h : MemOk s) : MemOk t := by
  induction n generalizing va s t bs with
  | zero =>
    cases e
    exact h
  | succ n ih =>
    unfold Machine.putRead at e
    split at e
    · cases e
    · split at e
      · cases e
      · dsimp only at e
        split at e
        · next e' =>
          cases e
          exact ih e' (.readHome h)
        · cases e

theorem MemOk.sendPut {c : Cmd} {s : State} (h : MemOk s) : MemOk (sendPut c s) := .ite (.send h) (.holdMessage h)

theorem MemOk.logPut {c : Cmd} {s : State} (h : MemOk s) : MemOk (logPut c s) := .finishCmd (.landSlot (.logEntry h))

theorem MemOk.startPut {c : Cmd} {s : State} (h : MemOk s) :
    MemOk (startPut c s) := by
  unfold Machine.startPut
  dsimp only
  split
  · exact .poisonCmd (fun _ h => h) h
  · split
    · exact .poisonCmd (fun _ h => h) h
    · next e =>
      have ht := MemOk.putRead e h
      exact .ite (.sendPut ht) (.logPut ht)

theorem OutOk.execEvLayoutStart {cluster : Nat} {s : State} (h : MemOk s) :
    OutOk (execEvLayoutStart cluster s) := by
  unfold Machine.execEvLayoutStart
  dsimp only
  split
  · exact h
  · exact .ite h (.ite (.startPut h) h)

theorem MemOk.putWrite {a : Nat} {bs : List Nat} {s : State} (h : MemOk s) : MemOk (putWrite a bs s) := by
  induction a, bs, s using Machine.putWrite.induct with
  | case1 a b0 b1 b2 b3 bs s ih => exact ih (.homeWrite (.recallLine h))
  | case2 a bs s rest =>
    rw [Machine.putWrite]
    · exact h
    · exact rest

theorem MemOk.putPiecesWrite {ps : List (Nat × Nat)} {bs : List Nat} {s : State} (h : MemOk s) :
    MemOk (putPiecesWrite ps bs s) := by
  induction ps generalizing bs s with
  | nil => exact h
  | cons p ps ih => exact ih (.putWrite h)

theorem OutOk.execEvPutack {id err : Nat} {s : State} (h : MemOk s) :
    OutOk (execEvPutack id err s) := by
  unfold Machine.execEvPutack
  split
  · exact h
  · exact .ite h (.ite (.finishCmd (.landSlot h)) (.poisonCmd (fun _ h => h) h))

theorem MemOk.replayPut {e : LogEntry} {s : State} (h : MemOk s) :
    MemOk (replayPut e s).2 := by
  unfold Machine.replayPut
  dsimp only
  split
  · exact h
  · exact .sendPut h

/-! ## Textures -/

theorem MemOk.issueTex {i : Instr} {f : V3} {s : State} (h : MemOk s) : MemOk (issueTex i f s) :=
  .ite (.raiseCheck h) (.ite (.raiseCheck h) (.ite h (.checkedSpans (fun _ _ h => .pushEngine h) h)))

theorem MemOk.performTex {o : Op} {f : V3} {l : Nat} {s : State} (h : MemOk s) :
    MemOk (performTex o f l s).2 := by
  unfold Machine.performTex
  dsimp only
  split
  · next e =>
    have ht := MemOk.ofEq e (.readSpans h)
    exact ht
  · next e =>
    have ht := MemOk.ofEq e (.readSpans h)
    exact ht

/-! ## Rasterisation -/

theorem MemOk.allocSlot {num : Nat} {xy : List ℤ} {z tile : List Nat} {s : State} (h : MemOk s) :
    MemOk (allocSlot num xy z tile s).2 :=
  h

theorem OutOk.execTriset {f : SF} {s : State} (h : MemOk s) : OutOk (execTriset f s) := by
  unfold Machine.execTriset
  refine MemOk.ite h ?_
  split
  · exact .raise h
  · exact .raise h
  · exact .raise h
  · refine .ite (.holdAgain h) ?_
    extract_lets t reg vs ok xy
    have ht : MemOk t := .ite (.withWave (.storeScratch h)) h
    clear_value t
    split
    · exact .writeS ht
    · split
      · exact .holdAgain ht
      · exact .writeS (.allocSlot ht)

theorem MemOk.pushPerformed {i : Instr} {lanes aux : List Nat} {res : List Land} {s : State} (h : MemOk s) :
    MemOk (pushPerformed i lanes aux res s) :=
  h

theorem OutOk.execRast {f : V3} {s : State} (h : MemOk s) :
    OutOk (execRast f s) := by
  unfold Machine.execRast
  dsimp only
  split
  · exact h
  · split
    · exact .pushPerformed h
    · split
      · exact .raise h
      · exact .ite (.raise h) (.pushPerformed h)

theorem MemOk.freeSlot {aux : List Nat} {s : State} (h : MemOk s) :
    MemOk (freeSlot aux s) := by
  unfold Machine.freeSlot
  split
  · exact .ite h h
  · exact h

theorem MemOk.readLanes {o : Op} {ls : SMap (List Span)} {s : State} (h : MemOk s) : MemOk
    (readLanes o ls s).2.2 := by
  induction ls generalizing s with
  | nil => exact h
  | cons l ls ih =>
    unfold Machine.readLanes
    dsimp only
    split
    · exact ih (.readSpans h)
    · exact ih (.readSpans h)

theorem MemOk.attrRound {f : V3} {start : State} {ps : Nat → List (Nat × Nat)} {lanes : List Nat}
    {go : List (Nat × List (Nat × Nat)) → List (Nat × Cause × Nat) → State → State} {s : State} (hstart : MemOk start)
    (hgo : ∀ vs es t, MemOk t → MemOk (go vs es t)) (h : MemOk s) : MemOk (attrRound f start ps lanes go s) :=
  .checkedSpans (fun _ _ h => .ite (.holdAgain hstart) (hgo _ _ _ (.readLanes h))) h

theorem OutOk.execAttr {f : V3} {s : State} (h : MemOk s) : OutOk (execAttr f s) :=
  MemOk.ite h (.ite (.holdAgain h)
    (.attrRound h (fun _ _ _ => .attrRound h fun _ _ _ => .attrRound h fun _ _ _ h => .pushPerformed h) h))

theorem MemOk.appendFrame {ctx d : Nat} {s t : State} (e : appendFrame ctx d s = some t) (h : MemOk s) : MemOk t := by
  unfold Machine.appendFrame at e
  split at e
  · cases e
  · dsimp only at e
    split at e
    · cases e
    · cases e
      exact .updContext (.homeWrite (.recallLine h))

theorem OutOk.execFlip {f : SF} {s : State} (h : MemOk s) :
    OutOk (execFlip f s) := by
  unfold Machine.execFlip
  dsimp only
  split
  · exact h
  · split
    · exact .writeS h
    · split
      · exact .ite (.holdAgain h) (.writeS (.logEntry h))
      · split
        · exact .holdAgain h
        · split
          · exact .writeS (.releaseNow h)
          · next e =>
            have ht := MemOk.appendFrame e (.releaseNow h)
            exact .writeS ht

theorem MemOk.readRow {ctx size n va : Nat} {s t : State} {bs : List Nat} (e : readRow ctx size n va s = .ok (bs, t))
    (h : MemOk s) : MemOk t := by
  induction n generalizing va s t bs with
  | zero =>
    cases e
    exact h
  | succ n ih =>
    unfold Machine.readRow at e
    split at e
    · cases e
    · split at e
      · cases e
      · cases e
      · cases e
      · dsimp only at e
        split at e
        · cases e
        · split at e
          · cases e
          · next e' =>
            cases e
            exact ih e' (.ite (.touchLine (.recallLine (.fillTlb h))) (.recallLine (.fillTlb h)))

theorem MemOk.readRows {ctx size width pitch n va : Nat} {s t : State} {bs : List Nat}
    (e : readRows ctx size width pitch n va s = .ok (bs, t)) (h : MemOk s) : MemOk t := by
  induction n generalizing va s t bs with
  | zero =>
    cases e
    exact h
  | succ n ih =>
    unfold Machine.readRows at e
    split at e
    · cases e
    · next e1 =>
      split at e
      · cases e
      · next e2 =>
        cases e
        exact ih e2 (.readRow e1 h)

theorem MemOk.readSurface {ctx : Nat} {record bs : List Nat} {s t : State}
    (e : readSurface ctx record s = .ok (bs, t)) (h : MemOk s) : MemOk t :=
  .readRows e h

theorem MemOk.setFrameState {ctx index st err : Nat} {s : State} (h : MemOk s) :
    MemOk (setFrameState ctx index st err s) := by
  unfold Machine.setFrameState
  dsimp only
  split
  · exact h
  · exact .homeWrite (.recallLine h)

theorem MemOk.sendFrame {x : Frame} {s : State} (h : MemOk s) : MemOk (sendFrame x s) :=
  .ite (.send h) (.holdMessage h)

theorem MemOk.startFrame {c : Machine.Context} {s : State} (h : MemOk s) :
    MemOk (startFrame c s) := by
  unfold Machine.startFrame
  dsimp only
  split
  · exact h
  · split
    · exact .setFrameState (.setFrameState h)
    · split
      · exact .setFrameState (.updContext (.setFrameState h))
      · next e =>
        have ht := MemOk.readSurface e (.updContext (.setFrameState h))
        exact .sendFrame ht

theorem OutOk.execEvFrameSend {ctx : Nat} {s : State} (h : MemOk s) :
    OutOk (execEvFrameSend ctx s) := by
  unfold Machine.execEvFrameSend
  split
  · exact .startFrame h
  · exact h

theorem MemOk.repeatFrame {ctx : Nat} {s : State} (h : MemOk s) :
    MemOk (repeatFrame ctx s) := by
  unfold Machine.repeatFrame
  split
  · exact h
  · split
    · exact h
    · split
      · exact h
      · next e =>
        have ht := MemOk.readSurface e h
        exact .sendFrame ht

theorem MemOk.endFrame {id err : Nat} {s : State} (h : MemOk s) :
    MemOk (endFrame id err s) := by
  unfold Machine.endFrame
  dsimp only
  split
  · exact h
  · exact .ite h (.ite (.updContext (.setFrameState h)) (.setFrameState h))

theorem MemOk.failHeld {h : Held} {s : State} (hs : MemOk s) :
    MemOk (failHeld h s) := by
  unfold Machine.failHeld
  dsimp only
  split
  · exact .endFrame hs
  · split
    · exact .poisonCmd (fun _ h => h) hs
    · exact hs

theorem OutOk.execEvNoRoute {idx : Nat} {s : State} (h : MemOk s) :
    OutOk (execEvNoRoute idx s) := by
  unfold Machine.execEvNoRoute
  split
  · exact .ite (.failHeld h) h
  · exact h

theorem MemOk.sendHeld {h : Held} {s : State} (hs : MemOk s) :
    MemOk (sendHeld h s) := by
  unfold Machine.sendHeld
  dsimp only
  split
  · exact .failHeld hs
  · split
    · split
      · exact .ite (.send hs) hs
      · exact hs
    · split
      · exact .ite (.sendPut hs) hs
      · exact hs

/-! ## Forks, commits and squashes -/

theorem MemOk.forkTag {ctx cur t : Nat} {s : State} (h : MemOk s) : MemOk (forkTag ctx cur t s) := .updTag h

theorem OutOk.execVfork {f : SF} {s : State} (h : MemOk s) : OutOk (execVfork f s) :=
  .ite h (.ite (.raise h)
    (.ite (.writeP (.writeS h))
      (.ite (.holdAgain h) (.writeP (.writeS (.foldl (fun _ _ h => .forkTag h) (.releaseNow h)))))))

theorem OutOk.execVcommit {f : SF} {s : State} (h : MemOk s) : OutOk (execVcommit f s) :=
  .ite h (.ite (.writeS h) (.ite (.writeS h) (.ite (.holdAgain h) (.writeS (.commitPoint (.releaseNow h))))))

theorem MemOk.expire {ctx t : Nat} {s : State} (h : MemOk s) : MemOk (expire ctx t s) :=
  .repeatFrame (.postEvent (.foldl (fun _ _ h => .updTag h) (.updTag h)))

/-! ## Hash grids and reads of operations -/

theorem OutOk.execHgfetch {f : V3} {s : State} (h : MemOk s) : OutOk (execHgfetch f s) :=
  .ite (.raiseCheck h) (.ite (.raiseCheck h) (.ite h (.checkedSpans (fun _ _ h => .pushEngine h) h)))

theorem MemOk.performFetch {o : Op} {f : V3} {l : Nat} {s : State} (h : MemOk s) :
    MemOk (performFetch o f l s).2 := by
  unfold Machine.performFetch
  dsimp only
  split
  · next e =>
    have ht := MemOk.ofEq e (.readSpans h)
    exact ht
  · next e =>
    have ht := MemOk.ofEq e (.readSpans h)
    exact ht

theorem MemOk.homeRead {x : Access} {va n : Nat} {s : State} (h : MemOk s) :
    MemOk (homeRead x va n s).2 := by
  unfold Machine.homeRead
  dsimp only
  split
  · exact h
  · split
    · exact .findEcc h
    · exact .readHome h

theorem MemOk.homePut {x : Access} {va n v : Nat} {s : State} (h : MemOk s) :
    MemOk (homePut x va n v s) := by
  unfold Machine.homePut
  dsimp only
  split
  · exact h
  · exact .viewWrite h

theorem MemOk.readScale {x : Access} {d : Nat} {s : State} (h : MemOk s) :
    MemOk (readScale x d s).2 := by
  unfold Machine.readScale
  split
  · next e =>
    have ht := MemOk.ofEq e (.homeRead h)
    exact ht
  · next e =>
    have ht := MemOk.ofEq e (.homeRead h)
    exact ht

theorem MemOk.setSat {x : Access} {d : Nat} {s : State} (h : MemOk s) :
    MemOk (setSat x d s) := by
  unfold Machine.setSat
  split
  · next e =>
    have ht := MemOk.ofEq e (.homeRead h)
    exact .homePut ht
  · next e =>
    have ht := MemOk.ofEq e (.homeRead h)
    exact ht

theorem MemOk.addOne {x : Access} {d flat f g num k : Nat} {s : State} (h : MemOk s) :
    MemOk (addOne x d flat f g num k s).2 := by
  unfold Machine.addOne
  dsimp only
  split
  · next e =>
    have ht := MemOk.ofEq e (.readScale h)
    exact ht
  · next e =>
    have ht := MemOk.ofEq e (.readScale h)
    split
    · next e =>
      have hu := MemOk.ofEq e (.homeRead ht)
      exact hu
    · next e =>
      have hu := MemOk.ofEq e (.homeRead ht)
      exact .ite (.setSat (.homePut hu)) (.homePut hu)

theorem MemOk.makeAdds {x : Access} {d : Nat} {as : List (Nat × Nat × Nat × Nat × Nat)} {s : State} (h : MemOk s) :
    MemOk (makeAdds x d as s).2 := by
  induction as generalizing s with
  | nil => exact h
  | cons a as ih => exact ih (.addOne h)

theorem OutOk.execHgscat {f : V3} {s : State} (h : MemOk s) : OutOk (execHgscat f s) :=
  .ite (.raiseCheck h) (.ite (.raiseCheck h) (.ite h (.checkedSpans (fun _ _ h => .pushEngine h) h)))

theorem MemOk.performScat {o : Op} {l : Nat} {s : State} (h : MemOk s) : MemOk (performScat o l s).2 :=
  .iteSnd (.logEntry h) (.iteSnd h (.makeAdds h))

theorem MemOk.settleOne {x : Access} {d : Nat} {add : Bool} {flat f : Nat} {s : State} (h : MemOk s) :
    MemOk (settleOne x d add flat f s).2 := by
  unfold Machine.settleOne
  dsimp only
  split
  · next e =>
    have ht := MemOk.ofEq e (.readScale h)
    exact ht
  · next e =>
    have ht := MemOk.ofEq e (.readScale h)
    split
    · next e =>
      have hu := MemOk.ofEq e (.homeRead ht)
      exact hu
    · next e =>
      have hu := MemOk.ofEq e (.homeRead ht)
      split
      · next e =>
        have hv := MemOk.ofEq e (.homeRead hu)
        exact hv
      · next e =>
        have hv := MemOk.ofEq e (.homeRead hu)
        exact .homePut (.homePut hv)

theorem MemOk.settleAll {x : Access} {d : Nat} {add : Bool} {as : List (Nat × Nat)} {s : State} (h : MemOk s) :
    MemOk (settleAll x d add as s).2 := by
  induction as generalizing s with
  | nil => exact h
  | cons a as ih => exact ih (.settleOne h)

theorem MemOk.dropRange {x : Access} {va len : Nat} {s : State} (h : MemOk s) : MemOk (dropRange x va len s) := h

theorem OutOk.execHgsettle {f : V3} {s : State} (h : MemOk s) : OutOk (execHgsettle f s) := by
  unfold Machine.execHgsettle
  refine MemOk.ite (.raiseCheck h) (.ite (.raiseCheck h) (.ite h (.ite (.raise h) ?_)))
  extract_lets +onlyGivenNames bad first
  clear_value first
  split
  · exact .raise h
  · exact .holdFault h
  · exact .ite (.holdAgain h) (.setWave (.dropRange (.dropRange (.settleAll (.setWave h)))))

/-! ## Integer division -/

theorem MemOk.divide {f : V3} {op : Nat → Word → Word → Word} {s : State} (h : MemOk s) : MemOk (divide f op s) :=
  .ite (.writeV h) (.raise (.writeV h))

/-! ## Command processors -/

theorem MemOk.readCp {stack ctx tag : Nat} {need : Need} {ps : List (Nat × Nat)} {s : State} (h : MemOk s) :
    MemOk (readCp stack ctx tag need ps s).2 := by
  induction ps generalizing s with
  | nil => exact h
  | cons p ps ih =>
    unfold Machine.readCp
    split
    · exact h
    · exact ih (.ite (.touchLine (.recallLine (.fillTlb h))) (.recallLine (.fillTlb h)))

theorem MemOk.writeCp {stack ctx : Nat} {need : Need} {ps : List (Nat × Nat)} {bs : List Nat} {s : State}
    (h : MemOk s) : MemOk (writeCp stack ctx need ps bs s) := by
  induction ps generalizing bs s with
  | nil => exact h
  | cons p ps ih =>
    unfold Machine.writeCp
    split
    · exact h
    · exact ih (.homeWrite (.recallLine (.fillTlb h)))

theorem MemOk.cpRead {stack ctx tag va n : Nat} {s t : State} {bs : List Nat}
    (e : cpRead stack ctx tag va n s = .ok (bs, t)) (h : MemOk s) : MemOk t := by
  unfold Machine.cpRead at e
  split at e
  · cases e
  · exact .ofEq (Except.ok.inj e) (.readCp h)

theorem MemOk.cpWrite {stack ctx va : Nat} {bs : List Nat} {s t : State} (e : cpWrite stack ctx va bs s = .ok t)
    (h : MemOk s) : MemOk t := by
  unfold Machine.cpWrite at e
  split at e
  · cases e
  · cases e
    exact .writeCp h

theorem MemOk.noteBad {b : Bad} {s : State} (h : MemOk s) :
    MemOk (noteBad b s) := by
  unfold Machine.noteBad
  split
  · exact .findEcc h
  · exact h

theorem MemOk.recordCp {stack ctx kind : Nat} {b : Bad} {s : State} (h : MemOk s) :
    MemOk (recordCp stack ctx kind b s) := by
  unfold Machine.recordCp
  split
  · exact h
  · exact .postFault h

theorem MemOk.updQueue {ctx num : Nat} {f : Queue → Queue} {s : State} (h : MemOk s) : MemOk (updQueue ctx num f s) :=
  .ite h h

theorem MemOk.queueEvent {ctx num code : Nat} {s : State} (h : MemOk s) : MemOk (queueEvent ctx num code s) :=
  .postEvent h

theorem MemOk.noteTurn {slot key weight : Nat} {s : State} (h : MemOk s) : MemOk (noteTurn slot key weight s) := h

theorem MemOk.endTurn {slot key : Nat} {s : State} (h : MemOk s) : MemOk (endTurn slot key s) := .ite h h

theorem MemOk.faultQueue {code : Nat} {s : State} (h : MemOk s) : MemOk (faultQueue code s) :=
  .queueEvent (.endTurn h)

theorem MemOk.faultWindow {kind : Nat} {b : Bad} {s : State} (h : MemOk s) : MemOk (faultWindow kind b s) :=
  .faultQueue (.ite (.recordCp (.noteBad h)) (.noteBad h))

theorem MemOk.faultOwn {kind : Nat} {b : Bad} {s : State} (h : MemOk s) : MemOk (faultOwn kind b s) :=
  .faultQueue (.recordCp (.noteBad h))

theorem MemOk.pushArmed {a : ArmedSlot} {s : State} (h : MemOk s) : MemOk (pushArmed a s) := .ite h h

theorem MemOk.pushDue {stack cls n : Nat} {s : State} (h : MemOk s) : MemOk (pushDue stack cls n s) := by
  induction n generalizing s with
  | zero => exact h
  | succ n ih =>
    unfold Machine.pushDue
    split
    · exact .ite (ih (.pushArmed h)) h
    · exact h

theorem MemOk.leaveReady {p : Packet} {s : State} (h : MemOk s) : MemOk (leaveReady p s) := .pushDue h

theorem MemOk.armSlot {stack slot : Nat} {p : Packet} {s : State} (h : MemOk s) : MemOk (armSlot stack slot p s).2 :=
  h

theorem MemOk.stepPair {stack ctx va count handle : Nat} {s : State} (h : MemOk s) :
    MemOk (stepPair stack ctx va count handle s) := by
  unfold Machine.stepPair
  dsimp only
  split
  · exact .pushArmed (.writeCp h)
  · exact .writeCp h

theorem MemOk.counterStep {stack ctx num va delta : Nat} {s t : State}
    (e : counterStep stack ctx num va delta s = .ok t) (h : MemOk s) : MemOk t := by
  unfold Machine.counterStep at e
  split at e
  · cases e
  · dsimp only at e
    split at e
    · cases e
      exact .queueEvent (.stepPair (.readCp h))
    · cases e
      exact .stepPair (.readCp h)

/-! ## Queue programs -/

theorem MemOk.restIn {state : QState} {s : State} (h : MemOk s) : MemOk (restIn state s) := .ite h (.endTurn h)

theorem MemOk.lookQueue {s : State} (h : MemOk s) :
    MemOk (lookQueue s) := by
  unfold Machine.lookQueue
  dsimp only
  split
  · exact h
  · split
    · exact .faultOwn h
    · next e =>
      have ht := MemOk.cpRead e h
      exact .ite (.faultQueue ht) (.ite ht (.restIn ht))

theorem MemOk.startRun {s : State} (h : MemOk s) :
    MemOk (startRun s) := by
  unfold Machine.startRun
  dsimp only
  split
  · exact .faultOwn (.noteTurn h)
  · next e =>
    have ht := MemOk.cpRead e (.noteTurn h)
    exact ht

theorem OutOk.execEvRun {ctx q : Nat} {s : State} (h : MemOk s) : OutOk (execEvRun ctx q s) :=
  .ite (.focusQueue h) (.ite (.startRun (.lookQueue (.focusQueue h))) (.lookQueue (.focusQueue h)))

theorem OutOk.execEvBudget {s : State} (h : MemOk s) :
    OutOk (execEvBudget s) := by
  unfold Machine.execEvBudget
  split
  · exact .ite (.faultQueue h) h
  · exact h

theorem MemOk.onRun {f : Run → State → State} {s : State} (hf : ∀ a t, MemOk t → MemOk (f a t)) (h : MemOk s) :
    MemOk (onRun f s) := by
  unfold Machine.onRun
  split
  · exact .ite (hf _ _ h) h
  · exact h

theorem MemOk.goTo {r : Run} {pc : Nat} {s : State} (h : MemOk s) : MemOk (goTo r pc s) := h

theorem MemOk.goOn {r : Run} {n : Nat} {s : State} (h : MemOk s) : MemOk (goOn r n s) := .goTo h

theorem MemOk.setC {k : Nat} {v : DWord} {s : State} (h : MemOk s) : MemOk (setC k v s) := h

theorem OutOk.putC {n d : Nat} {f : Queue → DWord} {s : State} (h : MemOk s) : OutOk (putC n d f s) :=
  .onRun (fun _ _ h => .goOn (.setC h)) h

theorem OutOk.aluC {d a b : Nat} {f : DWord → DWord → DWord} {s : State} (h : MemOk s) : OutOk (aluC d a b f s) :=
  .putC h

theorem OutOk.execQpld {d off w : Nat} {s : State} (h : MemOk s) : OutOk (execQpld d off w s) := .putC h

theorem OutOk.execQshl {d a b : Nat} {s : State} (h : MemOk s) : OutOk (execQshl d a b s) := .aluC h

theorem OutOk.execQshr {d a b : Nat} {s : State} (h : MemOk s) : OutOk (execQshr d a b s) := .aluC h

theorem OutOk.execQaddi {d a imm : Nat} {s : State} (h : MemOk s) : OutOk (execQaddi d a imm s) := .putC h

theorem OutOk.execQli {d imm : Nat} {s : State} (h : MemOk s) : OutOk (execQli d imm s) := .putC h

theorem OutOk.execQlih {d imm : Nat} {s : State} (h : MemOk s) : OutOk (execQlih d imm s) := .putC h

theorem OutOk.execQcmp {d a b c : Nat} {s : State} (h : MemOk s) : OutOk (execQcmp d a b c s) := .aluC h

theorem MemOk.branchTo {r : Run} {imm : Nat} {s : State} (h : MemOk s) : MemOk (branchTo r imm s) := .goTo h

theorem OutOk.execQendl {s : State} (h : MemOk s) :
    OutOk (execQendl s) := by
  unfold Machine.execQendl
  refine .onRun (fun _ _ h => ?_) h
  split
  · exact .ite (.goTo h) (.goOn h)
  · exact .goOn h

theorem OutOk.execQwld {d a off w n : Nat} {s : State} (h : MemOk s) :
    OutOk (execQwld d a off w n s) := by
  unfold Machine.execQwld
  dsimp only
  refine .onRun (fun _ _ h => ?_) h
  split
  · exact .faultWindow h
  · next e =>
    have ht := MemOk.cpRead e h
    exact .goOn (.setC ht)

theorem OutOk.execQwst {a b off w n : Nat} {s : State} (h : MemOk s) :
    OutOk (execQwst a b off w n s) := by
  unfold Machine.execQwst
  dsimp only
  refine .onRun (fun _ _ h => ?_) h
  split
  · exact .faultWindow h
  · next e =>
    have ht := MemOk.cpWrite e h
    exact .goOn ht

theorem OutOk.execQwadd {d a b off n : Nat} {s : State} (h : MemOk s) :
    OutOk (execQwadd d a b off n s) := by
  unfold Machine.execQwadd
  dsimp only
  refine .onRun (fun _ _ h => ?_) h
  split
  · exact .faultWindow h
  · exact .goOn (.setC (.writeCp (.readCp h)))

theorem OutOk.execQlaunch {s : State} (h : MemOk s) : OutOk (execQlaunch s) :=
  MemOk.onRun (fun _ _ ht => .ite (.goOn ht) h) h

theorem MemOk.armPair {r : Run} {va count slot : Nat} {stale : Bool} {s : State} (h : MemOk s) :
    MemOk (armPair r va count slot stale s) :=
  .goOn (.ite (.queueEvent (.stepPair (.armSlot h))) (.stepPair (.armSlot h)))

theorem OutOk.execQdepset {a b off n : Nat} {s : State} (h : MemOk s) : OutOk (execQdepset a b off n s) := by
  refine MemOk.onRun (fun _ _ ht => ?_) h
  dsimp only
  split
  · exact .faultWindow ht
  · split
    · exact .faultQueue (.readCp ht)
    · split
      · exact h
      · exact .armPair (.readCp ht)

theorem OutOk.execQdepdec {a off n : Nat} {s : State} (h : MemOk s) :
    OutOk (execQdepdec a off n s) := by
  unfold Machine.execQdepdec
  dsimp only
  refine .onRun (fun _ _ h => ?_) h
  split
  · exact .faultWindow h
  · next e =>
    have ht := MemOk.counterStep e h
    exact .goOn ht

theorem OutOk.execQdone {s : State} (h : MemOk s) :
    OutOk (execQdone s) := by
  unfold Machine.execQdone
  dsimp only
  refine .onRun (fun _ _ h => ?_) h
  split
  · exact .faultOwn h
  · next e =>
    have ht := MemOk.cpWrite e h
    exact .ite (.lookQueue ht) (.restIn (.lookQueue ht))

/-! ## Placement and completion -/

theorem MemOk.placeCohort {l : Launch} {x : Waiting} {relaunch : Bool} {cluster : Nat} {cores : List Nat} {s : State}
    (h : MemOk s) : MemOk (placeCohort l x relaunch cluster cores s) :=
  h

theorem MemOk.preempt {c : Cohort} {s : State} (h : MemOk s) : MemOk (preempt c s) :=
  .cancelWatch (.updLaunch (.dropCohort h))

theorem MemOk.drainLaunch {l : Launch} {s : State} (h : MemOk s) : MemOk (drainLaunch l s) :=
  .ite (.updLaunch h) (.cancelWatch h)

theorem MemOk.preemptFor {onStacks : Nat} {s t : State} (e : preemptFor onStacks s = some t) (h : MemOk s) :
    MemOk t := by
  unfold Machine.preemptFor at e
  split at e
  · cases e
    exact .preempt h
  · split at e
    · cases e
    · cases e
      exact .foldl (fun _ _ h => .drainLaunch h) h

theorem OutOk.execEvWatchdog {idx : Nat} {s : State} (h : MemOk s) :
    OutOk (execEvWatchdog idx s) := by
  unfold Machine.execEvWatchdog
  dsimp only
  split
  · exact h
  · exact .ite h (.foldl (fun _ _ h => .discardCohort h) h)

theorem MemOk.countPlacement {stack : Nat} {p : Packet} {s : State} (h : MemOk s) :
    MemOk (countPlacement stack p s) :=
  .noteTurn h

theorem MemOk.squashLaunch {l : Launch} {s : State} (h : MemOk s) : MemOk (squashLaunch l s) :=
  .finishLaunch (.updLaunch h)

theorem MemOk.resumeDrained {s : State} (h : MemOk s) : MemOk (resumeDrained s) := .ite h h

theorem MemOk.placeOne {l : Launch} {x : Waiting} {relaunch : Bool} {s t : State}
    (e : placeOne l x relaunch s = some t) (h : MemOk s) : MemOk t := by
  unfold Machine.placeOne at e
  split at e
  · cases e
    exact .squashLaunch h
  · obtain ⟨p, -, rfl⟩ := Option.map_eq_some_iff.mp e
    exact .updLaunch (.placeCohort h)

theorem MemOk.placeRest {id n : Nat} {s : State} (h : MemOk s) : MemOk (placeRest id n s) := by
  induction n generalizing s with
  | zero => exact h
  | succ n ih =>
    unfold Machine.placeRest
    split
    · split
      · exact h
      · split
        · next e => exact ih (.placeOne e h)
        · exact h
    · exact h

theorem OutOk.execEvPlacement {stack : Nat} {s : State} (h : MemOk s) : OutOk (execEvPlacement stack s) := by
  unfold Machine.execEvPlacement
  dsimp only
  have ready := MemOk.resumeDrained h
  split
  · next e =>
    obtain ⟨m, -, e⟩ := Option.bind_eq_some_iff.mp e
    exact MemOk.preemptFor e ready
  · split
    · split
      · next e => exact MemOk.placeRest (.countPlacement (.placeOne e ready))
      · exact ready
    · exact ready

theorem OutOk.execEvRelaunch {stack : Nat} {s : State} (h : MemOk s) :
    OutOk (execEvRelaunch stack s) := by
  unfold Machine.execEvRelaunch
  split
  · split
    · next e =>
      have ht := MemOk.placeOne e h
      exact .countPlacement ht
    · exact h
  · exact h

theorem MemOk.settleCohorts {cohorts : List Nat} {s : State} (h : MemOk s) : MemOk (settleCohorts cohorts s) :=
  .ite h (.flushUpdates (.drain h))

theorem MemOk.writeStatus {c : Completion} {s : State} (h : MemOk s) :
    MemOk (writeStatus c s) := by
  unfold Machine.writeStatus
  dsimp only
  split
  · exact h
  · split
    · next e =>
      have ht := MemOk.cpWrite e h
      exact ht
    · exact .recordCp (.noteBad h)

theorem MemOk.decrementDone {p : Packet} {s : State} (h : MemOk s) :
    MemOk (decrementDone p s) := by
  unfold Machine.decrementDone
  split
  · exact h
  · split
    · next e =>
      have ht := MemOk.counterStep e h
      exact ht
    · exact .recordCp (.noteBad h)

theorem MemOk.logCompletion {c : Completion} {s : State} (h : MemOk s) : MemOk (logCompletion c s) :=
  .ite (.ite h (.logEntry h)) (.logEntry (.ite h (.logEntry h)))

theorem MemOk.remapWaiters {ctx base len : Nat} {s : State} (h : MemOk s) : MemOk (remapWaiters ctx base len s) :=
  freeCloaks_wf _ _ _ h

theorem MemOk.stepCompletion {c : Completion} {s : State} (h : MemOk s) : MemOk (stepCompletion c s).2 :=
  have settled : MemOk (Machine.settleCohorts c.cohorts s) := .settleCohorts h
  .iteSnd (.ite (.remapWaiters h) h)
    (.iteSnd (.logCompletion settled) (.iteSnd (.writeStatus settled) (.decrementDone settled)))

theorem OutOk.execEvPacketCompletion {idx : Nat} {s : State} (h : MemOk s) :
    OutOk (execEvPacketCompletion idx s) := by
  unfold Machine.execEvPacketCompletion
  dsimp only
  split
  · exact h
  · split
    · exact h
    · split
      · exact .stepCompletion h
      · exact .stepCompletion h

/-! ## The matrix sequencer and its engines -/

theorem MemOk.updStream {cid : Nat} {f : Machine.Stream → Machine.Stream} {s : State} (h : MemOk s) :
    MemOk (updStream cid f s) :=
  h

theorem MemOk.streamFault {cid run : Nat} {cause : Cause} {pc word addr : Nat} {s : State} (h : MemOk s) :
    MemOk (streamFault cid run cause pc word addr s) := by
  unfold Machine.streamFault
  dsimp only
  split
  · exact h
  · refine .ite (.endCohort h) (.ite (.discardCohort (.updStream h)) ?_)
    exact .endCohort (.eachWave (fun _ h => .afterWord h) (.mapWaves (.updStream h)))

theorem MemOk.faultHere {cause : Cause} {s : State} (h : MemOk s) : MemOk (faultHere cause s) := .streamFault h

theorem MemOk.streamRecord {x : Machine.Stream} {cluster ctx va kind level : Nat} {s : State} (h : MemOk s) :
    MemOk (streamRecord x cluster ctx va kind level s).2 :=
  .postFault (.walkFor h)

theorem MemOk.streamRead {cluster ctx va : Nat} {leaf : Leaf} {s : State} (h : MemOk s) :
    MemOk (streamRead cluster ctx va leaf s).2 := by
  unfold Machine.streamRead
  dsimp only
  split
  · exact .fillTlb h
  · split
    · exact .findEcc (.recallLine (.fillTlb h))
    · exact .putICache (.ite (.touchLine (.recallLine (.fillTlb h))) (.recallLine (.fillTlb h)))

theorem MemOk.streamFetch {idx : Nat} {s : State} (h : MemOk s) : MemOk (streamFetch idx s).2 := by
  unfold Machine.streamFetch
  dsimp only
  split
  · split
    · exact h
    · split
      · exact h
      · split
        · exact h
        · split
          · exact h
          · exact h
          · exact h
          · split
            · next e =>
              have read := MemOk.ofEq e (.streamRead h)
              exact read
            · exact .streamRead h
  · exact h

theorem MemOk.streamFetchFailed {idx : Nat} {r : Fetched} {s : State} (h : MemOk s) :
    MemOk (streamFetchFailed idx r s) := by
  unfold Machine.streamFetchFailed
  dsimp only
  split
  · exact .streamFault h
  · split
    · exact h
    · exact .streamRecord h
  · exact h

theorem MemOk.streamWord {act : State → State} {s : State} (hact : ∀ t, MemOk t → MemOk (act t)) (h : MemOk s) :
    MemOk (Machine.streamWord act s) :=
  .ite (hact _ h) h

theorem MemOk.stepStream {f : Machine.Stream → Machine.Stream} {s : State} (h : MemOk s) : MemOk (stepStream f s) := h

theorem MemOk.sendWord {i : Instr} {e xa xs : Nat} {s : State} (h : MemOk s) : MemOk (sendWord i e xa xs s) :=
  .ite (.faultHere h) (.ite h (.stepStream h))

theorem OutOk.execMhalt {s : State} (h : MemOk s) : OutOk (execMhalt s) := by
  refine MemOk.streamWord (fun t ht => ?_) h
  split
  · exact ht
  · have halted : MemOk { t with st := { t.st with state := 2, status := 0 } } := ht
    exact .endCohort halted

theorem MemOk.findMend {fuel idx depth : Nat} {s : State} (h : MemOk s) : MemOk (findMend fuel idx depth s).2.2 := by
  induction fuel generalizing idx depth s with
  | zero => exact h
  | succ fuel ih =>
    unfold Machine.findMend
    split
    · next e =>
      have fetched := MemOk.ofEq e (.streamFetch h)
      exact .iteSndSnd (.iteSndSnd fetched (ih fetched)) (ih fetched)
    · next e => exact .ofEq e (.streamFetch h)

theorem OutOk.execMloop {reg xc cnt : Nat} {s : State} (h : MemOk s) : OutOk (execMloop reg xc cnt s) := by
  refine MemOk.streamWord (fun t ht => ?_) h
  refine MemOk.ite (.faultHere ht) (.ite (.stepStream ht) ?_)
  extract_lets
  split
  · next e =>
    have found := MemOk.ofEqSnd e (.findMend ht)
    exact found
  · next e => exact .faultHere (MemOk.ofEqSnd e (.findMend ht))
  · next e => exact .streamFetchFailed (MemOk.ofEqSnd e (.findMend ht))

theorem OutOk.execMend {s : State} (h : MemOk s) :
    OutOk (execMend s) := by
  unfold Machine.execMend
  dsimp only
  refine .streamWord (fun _ h => ?_) h
  split
  · exact .faultHere h
  · exact .ite h (.stepStream h)

theorem MemOk.clearClaim {c : Nat × Nat × Nat} {s : State} (h : MemOk s) : MemOk (clearClaim c s) := .ite h h

theorem OutOk.execMclaim {e kind mask : Nat} {s : State} (h : MemOk s) : OutOk (execMclaim e kind mask s) :=
  .streamWord (fun _ h => .ite (.faultHere h) (.ite h (.stepStream (.foldl (fun _ _ h => .clearClaim h) h)))) h

theorem OutOk.execMrel {e kind mask : Nat} {s : State} (h : MemOk s) : OutOk (execMrel e kind mask s) :=
  .streamWord (fun _ h => .ite (.faultHere h) (.ite h (.stepStream h))) h

theorem OutOk.execMbara {b x : Nat} {s : State} (h : MemOk s) :
    OutOk (execMbara b x s) := by
  unfold Machine.execMbara
  dsimp only
  refine .streamWord (fun _ h => ?_) h
  split
  · exact h
  · split
    · exact h
    · exact .ite (.faultHere h) (.stepStream (.updCohort h))

theorem OutOk.execMbarw {b x : Nat} {s : State} (h : MemOk s) :
    OutOk (execMbarw b x s) := by
  unfold Machine.execMbarw
  refine .streamWord (fun _ h => ?_) h
  split
  · exact h
  · exact .ite h (.stepStream h)

theorem MemOk.readPiece {w : EngineWord} {p : Piece} {s : State} (h : MemOk s) :
    MemOk (readPiece w p s).2 := by
  unfold Machine.readPiece
  split
  · exact h
  · exact .readHome (.fillTlb h)

theorem MemOk.readPieces {w : EngineWord} {ps : List Piece} {s : State} (h : MemOk s) : MemOk
    (readPieces w ps s).2 := by
  induction ps generalizing s with
  | nil => exact h
  | cons p ps ih => exact ih (.readPiece h)

theorem MemOk.writePiece {w : EngineWord} {p : Piece} {v : Nat} {s : State} (h : MemOk s) :
    MemOk (writePiece w p v s) := by
  unfold Machine.writePiece
  dsimp only
  split
  · exact .storeScratch h
  · exact .viewWrite (.recallLine h)

theorem MemOk.dropWord {w : EngineWord} {s : State} (h : MemOk s) : MemOk (dropWord w s) := h

theorem MemOk.updWord {w : EngineWord} {f : EngineWord → EngineWord} {s : State} (h : MemOk s) :
    MemOk (updWord w f s) :=
  h

theorem MemOk.engineFault {w : EngineWord} {cause : Cause} {addr : Nat} {s : State} (h : MemOk s) :
    MemOk (engineFault w cause addr s) :=
  .streamFault h

theorem MemOk.parkWord {w : EngineWord} {x : Machine.Stream} {va kind level : Nat} {s : State} (h : MemOk s) :
    MemOk (parkWord w x va kind level s) :=
  .updWord (.streamRecord h)

theorem MemOk.rowsFailed {w : EngineWord} {x : Machine.Stream} {kind : Nat} {r : Nat × Check} {s : State}
    (h : MemOk s) : MemOk (rowsFailed w x kind r s) := by
  unfold Machine.rowsFailed
  split
  · exact .engineFault h
  · exact .parkWord h
  · exact h

theorem MemOk.setSlotBytes {core q tag : Nat} {bs : List Nat} {s : State} (h : MemOk s) :
    MemOk (setSlotBytes core q tag bs s) :=
  h

theorem MemOk.partialLoad {w : EngineWord} {x : Machine.Stream} {q part k : Nat} {ps : List Piece} {s : State}
    (h : MemOk s) : MemOk (partialLoad w x q part k ps s) := by
  induction ps generalizing k s with
  | nil => exact h
  | cons p ps ih => exact ih (.ite (MemOk.readPiece (w := w) (p := p) h) h)

theorem MemOk.doLoad {w : EngineWord} {x : Machine.Stream} {e q fmt sp part : Nat} {s : State} (h : MemOk s) :
    MemOk (doLoad w x e q fmt sp part s) := by
  unfold Machine.doLoad
  dsimp only
  split
  · exact .engineFault h
  · split
    · exact .rowsFailed h
    · split
      · exact .engineFault (.findEcc (.partialLoad h))
      · exact .dropWord (.setSlotBytes (.readPieces h))

theorem MemOk.writeRow {w : EngineWord} {x : Machine.Stream} {mask k : Nat} {ps : List Piece} {bs : List Nat}
    {s : State} (h : MemOk s) : MemOk (writeRow w x mask k ps bs s) := by
  induction ps generalizing k bs s with
  | nil => exact h
  | cons p ps ih => exact ih (.ite (.writePiece h) h)

theorem MemOk.writeRows {w : EngineWord} {x : Machine.Stream} {row : Nat → List Nat} {per n r : Nat}
    {ps : List Piece} {s : State} (h : MemOk s) : MemOk (writeRows w x row per n r ps s) := by
  induction n generalizing r ps s with
  | zero => exact h
  | succ n ih => exact ih (.writeRow h)

theorem MemOk.doStore {w : EngineWord} {x : Machine.Stream} {e ac fmt sp : Nat} {sat : Bool} {part : Nat} {s : State}
    (h : MemOk s) : MemOk (doStore w x e ac fmt sp sat part s) := by
  unfold Machine.doStore
  dsimp only
  split
  · exact .engineFault h
  · split
    · exact .rowsFailed h
    · split
      · exact .engineFault (.findEcc h)
      · refine .ite (.dropWord (.writeRows h)) ?_
        exact .ite (.ite (.dropWord (.writeRow h)) (.updWord (.writeRow h))) (.updWord (.writeRow h))

theorem MemOk.doStoreSlot {w : EngineWord} {x : Machine.Stream} {ac fmt q : Nat} {s : State} (h : MemOk s) :
    MemOk (doStoreSlot w x ac fmt q s) :=
  .ite (.engineFault h) (.dropWord (.setSlotBytes h))

theorem MemOk.setAcc {core n : Nat} {f : Nat → Nat → Nat} {s : State} (h : MemOk s) : MemOk (setAcc core n f s) := h

theorem MemOk.doMap {w : EngineWord} {x : Machine.Stream} {ac : Nat} {f : Nat → Nat} {s : State} (h : MemOk s) :
    MemOk (doMap w x ac f s) :=
  .ite (.engineFault h) (.dropWord (.setAcc h))

theorem MemOk.doMma {w : EngineWord} {x : Machine.Stream} {ac qa qb : Nat} {qs : Option Nat} {s : State}
    (h : MemOk s) : MemOk (doMma w x ac qa qb qs s) := by
  unfold Machine.doMma
  dsimp only
  split
  · exact .ite (.engineFault h) (.ite (.dropWord (.setAcc h)) (.dropWord h))
  · exact .engineFault h

theorem MemOk.doEngine {w : EngineWord} {x : Machine.Stream} {part : Nat} {s : State} (h : MemOk s) :
    MemOk (doEngine w x part s) := by
  unfold Machine.doEngine
  split
  · exact .doLoad h
  · exact .ite (.doStoreSlot h) (.doStore h)
  · exact .ite (.engineFault h) (.dropWord (.foldl (fun _ _ h => .clearClaim h) h))
  · exact .doMma h
  · exact .doMma h
  · exact .doMap h
  · exact .doMap h
  · exact .dropWord h

theorem MemOk.afterEngine {cid : Nat} {s : State} (h : MemOk s) : MemOk (afterEngine cid s) := .ite h (.endCohort h)

theorem MemOk.countRows {core n : Nat} {s : State} (h : MemOk s) : MemOk (countRows core n s) := by
  induction n generalizing s with
  | zero => exact h
  | succ n ih => exact ih (.countDrop h)

theorem OutOk.execEvEngineWordTakesEffect {core idx part : Nat} {s : State} (h : MemOk s) :
    OutOk (execEvEngineWordTakesEffect core idx part s) := by
  unfold Machine.execEvEngineWordTakesEffect
  dsimp only
  split
  · exact h
  · split
    · exact .countRows (.dropWord h)
    · split
      · exact h
      · split
        · exact h
        · exact .afterEngine (.doEngine h)

theorem MemOk.forkStream {f : SF} {s : State} (h : MemOk s) : MemOk (forkStream f s) := .updStream h

theorem OutOk.execMfork {f : SF} {s : State} (h : MemOk s) :
    OutOk (execMfork f s) := by
  unfold Machine.execMfork
  dsimp only
  split
  · exact h
  · split
    · exact h
    · exact .ite (.raise h)
        (.ite (.raise h) (.ite (.writeP h) (.ite (.holdAgain h) (.writeP (.forkStream (.releaseNow h))))))

theorem OutOk.execMjoin {f : SF} {s : State} (h : MemOk s) :
    OutOk (execMjoin f s) := by
  unfold Machine.execMjoin
  dsimp only
  split
  · exact h
  · split
    · exact .raise h
    · split
      · exact h
      · exact .ite (.holdAgain h) (.acquireNow (.writeS h))

/-! ## Memory instructions -/

theorem MemOk.storing {s : State} (h : MemOk s) : MemOk (storing s) := h

theorem MemOk.issueGlobal {i : Instr} {ctr kind : Nat} {ask : Ask} {lanes : List Nat} {va data : Nat → Nat}
    {stores : Bool} {s : State} (h : MemOk s) : MemOk (issueGlobal i ctr kind ask lanes va data stores s) :=
  .ite h (.checked (fun _ _ h => .pushOp (.ite (.storing h) h)) h)

theorem MemOk.issueScratch {i : Instr} {ctr : Nat} {lanes : List Nat} {off data : Nat → Nat} {stores : Bool}
    {s : State} (h : MemOk s) : MemOk (issueScratch i ctr lanes off data stores s) :=
  .ite h (.checkedScratch (fun _ _ h => .pushOp (.ite (.storing h) h)) h)

theorem OutOk.execFence {f : MF} {s : State} (h : MemOk s) : OutOk (execFence f s) := by
  unfold Machine.execFence
  refine MemOk.ite h (.ite (.holdAgain h) ?_)
  extract_lets core released
  have hreleased : MemOk released := .ite (.releaseNow h) (.drain h)
  exact .ite (.acquireNow hreleased) hreleased

theorem MemOk.cacheRange {i : Instr} {f : MF} {need : Need} {dst : Nat}
    {act : List Nat → List (Nat × Leaf) → State → State} {s : State} (hact : ∀ a b t, MemOk t → MemOk (act a b t))
    (h : MemOk s) : MemOk (cacheRange i f need dst act s) := by
  unfold Machine.cacheRange
  dsimp only
  split
  · exact h
  · split
    · exact .raise h
    · exact .holdFault h
    · exact hact _ _ _ h

theorem MemOk.pinLines {ctx : Nat} {ns : List Nat} {s t : State} (e : pinLines ctx ns s = some t) (h : MemOk s) :
    MemOk t := by
  induction ns generalizing s with
  | nil =>
    cases e
    exact h
  | cons n ns ih =>
    unfold Machine.pinLines at e
    dsimp only at e
    split at e
    · split at e
      · exact ih e h
      · cases e
    · cases e

theorem OutOk.execCpin {f : MF} {s : State} (h : MemOk s) : OutOk (execCpin f s) := by
  refine MemOk.cacheRange (fun lines ps t h => ?_) h
  dsimp only
  split
  · next e =>
    split at e
    · exact .ite (.writeP (.pinLines e h)) (.writeP h)
    · cases e
  · exact .writeP h

theorem MemOk.writeBack {nums : List Nat} {s : State} (h : MemOk s) : MemOk (writeBack nums s) := h

theorem OutOk.execCwb {f : MF} {s : State} (h : MemOk s) : OutOk (execCwb f s) :=
  .cacheRange (fun _ _ _ h => .ite (.holdAgain h) (.writeBack (.flushUpdates (.drain h)))) h

theorem MemOk.prefetch {f : MF} {l : Nat} {s : State} (h : MemOk s) :
    MemOk (prefetch f l s) := by
  unfold Machine.prefetch
  dsimp only
  split
  · exact .ite h (.ite (.ite (.touchLine h) h) (.readL1 h))
  · exact h

/-! ## Cross-lane votes -/

theorem OutOk.execVote {f : V3} {s : State} (h : MemOk s) :
    OutOk (execVote f s) := by
  unfold Machine.execVote
  dsimp only
  refine .crossLane (fun _ h => ?_) h
  split
  · exact .writeP h
  · exact .writeP h
  · exact .writeVPair h
  · exact .writeP h

theorem OutOk.execRedux {f : V3} {s : State} (h : MemOk s) : OutOk (execRedux f s) := by
  refine MemOk.crossLane (fun t ht => ?_) h
  extract_lets r written
  have hwritten : MemOk written := .ite (.writeS ht) (.writeV ht)
  exact .ite hwritten (.completeFp hwritten)

/-! ## Resolution of faults -/

theorem MemOk.refuseFetch {va : Nat} {s : State} (h : MemOk s) :
    MemOk (refuseFetch va s) := by
  unfold Machine.refuseFetch
  dsimp only
  split
  · exact .headerTrap h
  · exact .headerTrap h

theorem MemOk.refuseLane {lane : Nat} {s : State} (h : MemOk s) :
    MemOk (refuseLane lane s) := by
  unfold Machine.refuseLane
  dsimp only
  split
  · exact .parkTrap h
  · exact h

theorem MemOk.resolveWave {refuse : Bool} {s : State} (h : MemOk s) :
    MemOk (resolveWave refuse s) := by
  unfold Machine.resolveWave
  dsimp only
  split
  · split
    · exact h
    · split
      · exact .refuseFetch h
      · exact .refuseLane h
      · exact h
  · exact h

theorem MemOk.resolveStream {x : Machine.Stream} {addr : Nat} {refuse : Bool} {s : State} (h : MemOk s) :
    MemOk (resolveStream x addr refuse s) :=
  .ite (.streamFault h) (.updStream h)

theorem MemOk.resolveEngine {w : EngineWord} {addr : Nat} {refuse : Bool} {s : State} (h : MemOk s) :
    MemOk (resolveEngine w addr refuse s) :=
  .ite (.engineFault h) (.updWord h)

theorem MemOk.resolveHolder {token addr : Nat} {refuse : Bool} {s : State} (h : MemOk s) :
    MemOk (resolveHolder token addr refuse s) := by
  unfold Machine.resolveHolder
  split
  · exact .eachWave (fun _ h => .resolveWave h) h
  · split
    · exact .resolveStream h
    · split
      · exact .resolveEngine h
      · exact h

theorem MemOk.resolve {mine : FaultRec → Bool} {token : Nat} {refuse : Bool} {s : State} (h : MemOk s) :
    MemOk (resolve mine token refuse s).2 := by
  unfold Machine.resolve
  dsimp only
  split
  · exact h
  · exact .resolveHolder h

/-! ## Packets -/

theorem MemOk.takePacket {stack : Nat} {type : Nat → Bool} {act : Packet → State → State} {s : State}
    (hact : ∀ a t, MemOk t → MemOk (act a t)) (h : MemOk s) : MemOk (takePacket stack type act s) := by
  unfold Machine.takePacket
  split
  · exact .ite (hact _ _ (.leaveReady h)) h
  · exact h

theorem MemOk.takeWhole {stack : Nat} {type : Nat → Bool} {act : Packet → State → State} {s : State}
    (hact : ∀ a t, MemOk t → MemOk (act a t)) (h : MemOk s) : MemOk (takeWhole stack type act s) :=
  .takePacket (fun _ _ h => hact _ _ (.countPlacement h)) h

theorem MemOk.completeAt {p : Packet} {stage : Nat} {s : State} (h : MemOk s) : MemOk (completeAt p stage s) := h

theorem MemOk.readPool {p : Packet} {poola : Nat} {s t : State} {d : List Nat} (e : readPool p poola s = some (d, t))
    (h : MemOk s) : MemOk t := by
  unfold Machine.readPool at e
  split at e
  · cases e
  · split at e
    · cases e
    · next e' =>
      split at e
      · cases e
      · cases e
        exact .cpRead e' h

theorem MemOk.emitBin {id b : Nat} {s : State} (h : MemOk s) :
    MemOk (emitBin id b s) := by
  unfold Machine.emitBin
  dsimp only
  split
  · exact h
  · split
    · exact h
    · split
      · next e =>
        have ht := MemOk.cpWrite e (.updLaunch h)
        exact ht
      · exact .noteBad (.updLaunch h)

theorem MemOk.emitAll {id : Nat} {s : State} (h : MemOk s) : MemOk (emitAll id s) :=
  .foldl (fun _ _ h => .emitBin h) h

theorem MemOk.placeInBin {id nbins : Nat} {r : Nat × List Nat} {s : State} (h : MemOk s) :
    MemOk (placeInBin id nbins r s) := by
  unfold Machine.placeInBin
  split
  · exact h
  · dsimp only
    split
    · exact .ite (.emitBin (.updLaunch h)) (.updLaunch h)
    · exact .ite (.emitBin (.updLaunch h)) (.updLaunch h)
    · exact .ite (.emitBin (.updLaunch (.emitBin h))) (.updLaunch (.emitBin h))

theorem MemOk.consumeRecord {l : Launch} {d : List Nat} {s : State} (h : MemOk s) :
    MemOk (consumeRecord l d s) := by
  unfold Machine.consumeRecord
  dsimp only
  split
  · exact h
  · split
    · exact h
    · split
      · exact .noteBad (.viewSetFe (.readCp h))
      · next e =>
        have ht := MemOk.cpWrite e (.viewSetFe (.readCp h))
        exact .placeInBin ht

theorem OutOk.execEvPoolRecord {launch : Nat} {s : State} (h : MemOk s) :
    OutOk (execEvPoolRecord launch s) := by
  unfold Machine.execEvPoolRecord
  split
  · exact h
  · split
    · exact h
    · split
      · exact h
      · exact .consumeRecord h

theorem OutOk.execEvPoolFlush {launch : Nat} {s : State} (h : MemOk s) :
    OutOk (execEvPoolFlush launch s) := by
  unfold Machine.execEvPoolFlush
  split
  · exact h
  · exact .ite (.emitAll (.updLaunch h)) h

theorem OutOk.execEvPoolQuiescence {launch : Nat} {s : State} (h : MemOk s) :
    OutOk (execEvPoolQuiescence launch s) := by
  unfold Machine.execEvPoolQuiescence
  split
  · exact h
  · split
    · exact h
    · split
      · exact .ite h (.endLaunch h)
      · split
        · exact h
        · exact .ite h (.ite (.endLaunch h) (.emitAll h))

theorem MemOk.acceptLaunch {p : Packet} {k : Kernel} {v : Nat} {s : State} (h : MemOk s) :
    MemOk (acceptLaunch p k v s) := by
  unfold Machine.acceptLaunch
  dsimp only
  split
  · exact h
  · split
    · exact .complete h
    · next e =>
      have ht := MemOk.readPool e h
      exact ht

theorem MemOk.takeLaunch {p : Packet} {s : State} (h : MemOk s) :
    MemOk (takeLaunch p s) := by
  unfold Machine.takeLaunch
  dsimp only
  split
  · exact .complete h
  · split
    · exact .complete h
    · split
      · exact .complete (.noteBad h)
      · next e =>
        have ht := MemOk.cpRead e h
        exact .ite (.acceptLaunch ht) (.complete (.postFault ht))

theorem MemOk.takeCopy {core : Nat} {p : Packet} {s : State} (h : MemOk s) :
    MemOk (takeCopy core p s) := by
  unfold Machine.takeCopy
  dsimp only
  split
  · exact .complete h
  · exact .complete h
  · exact h

theorem OutOk.execEvCopyPacket {stack core : Nat} {s : State} (h : MemOk s) :
    OutOk (execEvCopyPacket stack core s) := by
  unfold Machine.execEvCopyPacket
  split
  · exact .ite (.takeWhole (fun _ _ h => .takeCopy h) h) h
  · exact h

theorem MemOk.takeCommit {p : Packet} {s : State} (h : MemOk s) : MemOk (takeCommit p s) :=
  .ite (.complete h) (.ite (.complete (.squashTree h)) (.completeAt (.commitPoint h)))

theorem MemOk.dropTlb {ctx base len : Nat} {s : State} (h : MemOk s) : MemOk (dropTlb ctx base len s) := h

theorem MemOk.takeInvalidation {p : Packet} {s : State} (h : MemOk s) : MemOk (takeInvalidation p s) :=
  .ite (.complete h) (.completeAt (.dropTlb h))

theorem MemOk.takeResolution {p : Packet} {s : State} (h : MemOk s) : MemOk (takeResolution p s) :=
  .ite (.complete h) (.complete (.resolve h))

/-! ## The log and its replay -/

theorem MemOk.dropEvent {e : LogEntry} {s : State} (h : MemOk s) : MemOk (dropEvent e s) := .postEvent h

theorem MemOk.dropEntry {e : LogEntry} {b : Bad} {s : State} (h : MemOk s) :
    MemOk (dropEntry e b s) := by
  unfold Machine.dropEntry
  dsimp only
  refine .dropEvent ?_
  split
  · exact .noteBad h
  · exact .postFault (.noteBad h)

theorem MemOk.replayLane {e : LogEntry} {s : State} (h : MemOk s) :
    MemOk (replayLane e s) := by
  unfold Machine.replayLane
  dsimp only
  split
  · exact .dropEntry h
  · exact h
  · split
    · exact .homeWrite (.patchL1 (.recallLine (.settle (.fillTlb h))))
    · exact .homeSetFe (.recallLine (.settle (.fillTlb h)))
    · exact .homeWrite (.patchL1 (.recallLine (.settle (.fillTlb h))))

theorem MemOk.replayScat {e : LogEntry} {s : State} (h : MemOk s) :
    MemOk (replayScat e s) := by
  unfold Machine.replayScat
  dsimp only
  split
  · exact .dropEntry h
  · exact .makeAdds h

theorem MemOk.replayFlip {e : LogEntry} {s : State} (h : MemOk s) :
    MemOk (replayFlip e s) := by
  unfold Machine.replayFlip
  split
  · exact .dropEvent h
  · split
    · next e =>
      have ht := MemOk.appendFrame e h
      exact ht
    · exact .dropEvent h

theorem MemOk.replayEvent {e : LogEntry} {s : State} (h : MemOk s) : MemOk (replayEvent e s) := .postEventAt h

theorem MemOk.replayPutEntry {e : LogEntry} {s : State} (h : MemOk s) :
    MemOk (replayPutEntry e s) := by
  unfold Machine.replayPutEntry
  dsimp only
  split
  · exact .dropEntry (.replayPut h)
  · exact .replayPut h

theorem MemOk.replayStatus {e : LogEntry} {s : State} (h : MemOk s) :
    MemOk (replayStatus e s) := by
  unfold Machine.replayStatus
  dsimp only
  split
  · next e =>
    have ht := MemOk.cpWrite e h
    exact ht
  · exact .dropEvent (.recordCp (.noteBad h))

theorem MemOk.replayDecrement {e : LogEntry} {s : State} (h : MemOk s) :
    MemOk (replayDecrement e s) := by
  unfold Machine.replayDecrement
  dsimp only
  split
  · next e =>
    have ht := MemOk.counterStep e h
    exact ht
  · exact .dropEvent (.recordCp (.noteBad h))

theorem MemOk.performEntry {e : LogEntry} {s : State} (h : MemOk s) :
    MemOk (performEntry e s) := by
  unfold Machine.performEntry
  split
  · exact .replayFlip h
  · exact .replayEvent h
  · exact .replayPutEntry h
  · exact .replayScat h
  · exact .replayStatus h
  · exact .replayDecrement h
  · exact .replayLane h

theorem MemOk.replayEntry {e : LogEntry} {s : State} (h : MemOk s) :
    MemOk (replayEntry e s) := by
  unfold Machine.replayEntry
  refine .performEntry ?_
  split
  · exact .releaseBy h
  · exact h

theorem OutOk.execEvLogReplay {s : State} (h : MemOk s) :
    OutOk (execEvLogReplay s) := by
  unfold Machine.execEvLogReplay
  split
  · exact h
  · exact .ite h (.replayEntry h)

/-! ## FIFO instructions -/

theorem MemOk.fifoPred {f : V3} {ok : Bool} {s : State} (h : MemOk s) :
    MemOk (fifoPred f ok s) := by
  unfold Machine.fifoPred
  split
  · exact .writeP h
  · exact h

theorem MemOk.appendEntry {k : Nat} {e : FifoEntry} {s : State} (h : MemOk s) : MemOk (appendEntry k e s) :=
  .ite (.countDrops h) (.updFifo h)

theorem OutOk.execVpush {f : V3} {s : State} (h : MemOk s) : OutOk (execVpush f s) :=
  .ite h (.ite (.ite (.fifoPred h) (.holdAgain h)) (.ite (.holdAgain h) (.fifoPred (.appendEntry (.releaseNow h)))))

theorem OutOk.execVpop {f : V3} {s : State} (h : MemOk s) :
    OutOk (execVpop f s) := by
  unfold Machine.execVpop
  dsimp only
  split
  · exact h
  · split
    · exact .ite (.fifoPred h) (.holdAgain h)
    · exact .ite (.holdAgain h) (.fifoPred (.acquireNow (.writeV (.updFifo h))))

theorem MemOk.powerEvent {cluster state : Nat} {s : State} (h : MemOk s) : MemOk (powerEvent cluster state s) :=
  .postEvent h

theorem OutOk.execEvIslandGated {cluster : Nat} {s : State} (h : MemOk s) : OutOk (execEvIslandGated cluster s) := by
  unfold Machine.execEvIslandGated
  extract_lets +onlyGivenNames i mine
  refine MemOk.ite h ?_
  extract_lets flushed downed gated
  have hflushed : MemOk flushed := .flushUpdates (.drain h)
  have hgated : MemOk gated := .updIsland (.forFifos (fun _ _ h => .updFifo h) hflushed)
  exact .ite (.powerEvent hgated) hgated

theorem MemOk.applyLevel {cluster : Nat} {s : State} (h : MemOk s) : MemOk (applyLevel cluster s) := .updIsland h

theorem OutOk.execEvIslandOn {cluster : Nat} {s : State} (h : MemOk s) : OutOk (execEvIslandOn cluster s) := by
  unfold Machine.execEvIslandOn
  extract_lets +onlyGivenNames i
  refine MemOk.ite h ?_
  extract_lets on raised
  have hon : MemOk on := .applyLevel (.updIsland h)
  have hraised : MemOk raised := .powerEvent (.raiseFifos hon)
  exact .ite (.beginGate hraised) (.ite (.updIsland (.forceGate hraised)) hraised)

/-! ## The platform -/

theorem MemOk.mapIslands {f : Nat → Island → Island} {s : State} (h : MemOk s) : MemOk (mapIslands f s) :=
  .foldl (fun _ _ h => .updIsland h) h

theorem MemOk.cappingEvent {on : Bool} {s : State} (h : MemOk s) : MemOk (cappingEvent on s) := .postEvent h

theorem OutOk.execEvPowerMeasurement {watts : Nat} {s : State} (h : MemOk s) :
    OutOk (execEvPowerMeasurement watts s) :=
  MemOk.ite (.ite (.mapIslands h) (.cappingEvent (.mapIslands h)))
    (.ite (.ite (.cappingEvent (.mapIslands h)) (.mapIslands h)) h)

theorem MemOk.thermalEvent {sensor trip : Nat} {s : State} (h : MemOk s) : MemOk (thermalEvent sensor trip s) :=
  .postEvent h

theorem MemOk.setTrip {sensor trip : Nat} {on : Bool} {s : State} (h : MemOk s) : MemOk (setTrip sensor trip on s) :=
  h

theorem MemOk.poisonWaiters {bad : List Nat} {s : State} (h : MemOk s) : MemOk (poisonWaiters bad s) :=
  .foldl (fun _ _ h => .parkTrap (freeCloaks_wf _ _ _ h)) h

theorem MemOk.loseCacheDie {die : Nat} {s : State} (h : MemOk s) : MemOk (loseCacheDie die s) :=
  .eachWave (fun _ h => .poisonWaiters h) (.foldl (fun _ _ h => .squashAll h) h)

theorem MemOk.stackFifosDown {stack : Nat} {s : State} (h : MemOk s) : MemOk (stackFifosDown stack s) :=
  .forFifos (fun _ _ h => .updFifo h) h

theorem MemOk.killCohorts {p : Cohort → Bool} {s : State} (h : MemOk s) : MemOk (killCohorts p s) :=
  .foldl (fun _ _ h => .discardCohort h) h

theorem MemOk.losePower {stack die : Nat} {s : State} (h : MemOk s) :
    MemOk (losePower stack die s) := by
  unfold Machine.losePower
  dsimp only
  split
  · exact h
  · exact .stackFifosDown (.killCohorts h)
  · exact .stackFifosDown (.killCohorts h)
  · exact .killCohorts h
  · exact .loseCacheDie h

theorem OutOk.execEvShutDown {sensor : Nat} {s : State} (h : MemOk s) : OutOk (execEvShutDown sensor s) :=
  .ite (.thermalEvent (.setTrip (.foldl (fun _ _ h => .losePower h) h))) h

theorem OutOk.execEvRptrAdvance {stack rptr : Nat} {s : State} (h : MemOk s) :
    OutOk (execEvRptrAdvance stack rptr s) := by
  unfold Machine.execEvRptrAdvance
  dsimp only
  split
  · exact h
  · exact .ite h (.flushFaults (.homeWrite h))

theorem MemOk.moduleReset {s : State} (h : MemOk s) : MemOk (moduleReset s) := by
  unfold Machine.moduleReset
  dsimp only [MemOk]
  split
  · exact h
  · exact SMap.wf_filter _ _ _ h

/-! ## Ray instructions -/

theorem MemOk.laneChecks {fails : List (Nat × Cause × Nat)} {dst : Nat} {go : State → State} {s : State}
    (hgo : ∀ t, MemOk t → MemOk (go t)) (h : MemOk s) : MemOk (laneChecks fails dst go s) := by
  unfold Machine.laneChecks
  split
  · exact hgo _ h
  · exact .raise h

theorem MemOk.issueRay {i : Instr} {f : V3} {type : Nat} {extra : Nat → Nat} {check : Nat → Option Cause} {s : State}
    (h : MemOk s) : MemOk (issueRay i f type extra check s) :=
  .ite h (.laneChecks (fun _ h => .checkedSpans (fun _ _ h => .pushEngine h) h) h)

theorem MemOk.performRbox {o : Op} {f : V3} {l : Nat} {s : State} (h : MemOk s) :
    MemOk (performRbox o f l s).2 := by
  unfold Machine.performRbox
  dsimp only
  split
  · exact h
  · split
    · next e =>
      have ht := MemOk.ofEq e (.readSpans h)
      exact ht
    · next e =>
      have ht := MemOk.ofEq e (.readSpans h)
      exact .iteSnd ht ht

theorem MemOk.leafLoop {o : Op} {any : Bool} {src : List Nat} {spans : List Span} {a n : Nat} {hit : LeafHit}
    {s : State} (h : MemOk s) : MemOk (leafLoop o any src spans a n hit s).2 := by
  induction n generalizing spans a hit s with
  | zero => exact h
  | succ n ih =>
    unfold Machine.leafLoop
    split
    · next e => exact .ofEq e (.readSpans h)
    · next e =>
      have read := MemOk.ofEq e (.readSpans h)
      exact .iteSnd read (.iteSnd read (ih read))

theorem MemOk.performRtri {o : Op} {f : V3} {l : Nat} {s : State} (h : MemOk s) :
    MemOk (performRtri o f l s).2 := by
  unfold Machine.performRtri
  dsimp only
  split
  · next e =>
    have ht := MemOk.ofEq e (.leafLoop h)
    exact ht
  · next e =>
    have ht := MemOk.ofEq e (.leafLoop h)
    exact ht

theorem MemOk.performRxfm {o : Op} {f : V3} {l : Nat} {s : State} (h : MemOk s) :
    MemOk (performRxfm o f l s).2 := by
  unfold Machine.performRxfm
  dsimp only
  split
  · exact h
  · split
    · next e =>
      have ht := MemOk.ofEq e (.readSpans h)
      exact ht
    · next e =>
      have ht := MemOk.ofEq e (.readSpans h)
      exact .iteSnd ht ht

theorem MemOk.storeStack {f : V3} {s : State} {x : Nat × Stack} (h : MemOk s) :
    MemOk (storeStack f s x) := by
  unfold Machine.storeStack
  dsimp only
  refine .foldl (fun _ _ h => ?_) h
  split
  · exact .storeScratch h
  · exact h

theorem OutOk.execRstkp {f : V3} {s : State} (h : MemOk s) : OutOk (execRstkp f s) :=
  .laneChecks (fun _ h => .ite (.holdAgain h) (.foldl (fun _ _ h => .storeStack h) h)) h

theorem MemOk.storePop {f : V3} {s : State} {x : Nat × Popped} (h : MemOk s) : MemOk (storePop f s x) :=
  .setWave h

theorem OutOk.execRstko {f : V3} {s : State} (h : MemOk s) : OutOk (execRstko f s) :=
  .laneChecks (fun _ h => .ite (.holdAgain h) (.foldl (fun _ _ h => .storePop h) h)) h

theorem MemOk.performRtrail {o : Op} {f : V3} {l : Nat} {s : State} (h : MemOk s) : MemOk (performRtrail o f l s).2 :=
  .iteSnd h h

/-! ## Results of counted operations -/

theorem MemOk.performOne {o : Op} {inL1 : Bool} {l : Nat} {s : State} (h : MemOk s) :
    MemOk (performOne o inL1 l s).2 := by
  unfold Machine.performOne
  split
  · exact .performTex h
  · exact .performTex h
  · exact .performTex h
  · exact .performTex h
  · exact .performTex h
  · exact .performFetch h
  · exact .performScat h
  · exact .performRbox h
  · exact .performRtri h
  · exact .performRxfm h
  · exact .performRtrail h
  · exact .performLane h

theorem MemOk.holdLate {ts : List LateTrap} {s : State} (h : MemOk s) : MemOk (holdLate ts s) :=
  .ite (.lateUntaken h) h

theorem MemOk.landResults {o : Op} {lanes regs : Nat} {s : State} (h : MemOk s) :
    MemOk (landResults o lanes regs s).2 :=
  .ite (.freeSlot h) h

theorem OutOk.execEvCountedResult {ctr k lanes regs : Nat} {inL1 : Bool} {s : State} (h : MemOk s) :
    OutOk (execEvCountedResult ctr k lanes regs inL1 s) := by
  unfold Machine.execEvCountedResult
  split
  · exact h
  · extract_lets id ls
    split
    next e =>
      have performed := MemOk.ofEqSnd e (.iteSndSnd h (.performOp (fun _ _ h => .performOne h) h))
      exact .ite performed (.retire (.holdLate (.landResults performed)))

/-! ## Requests of the host -/

theorem MemOk.closeRoll {open_ : Nat} {s : State} (h : MemOk s) :
    MemOk (closeRoll open_ s) := by
  unfold Machine.closeRoll
  dsimp only
  split
  · exact h
  · exact .foldl (fun _ _ h => h) h

theorem MemOk.settleRoll {s : State} (h : MemOk s) :
    MemOk (settleRoll s) := by
  unfold Machine.settleRoll
  split
  · exact .ite (.closeRoll h) h
  · exact h

theorem MemOk.settleOwner {s : State} (h : MemOk s) : MemOk (settleOwner s) := .ite h h

theorem MemOk.answer {h : ZcpHdr} {status : Nat} {extra : List Nat} {s : State} (hs : MemOk s) :
    MemOk (answer h status extra s) :=
  .send hs

theorem MemOk.keepOwner {h : ZcpHdr} {s : State} (hs : MemOk s) : MemOk (keepOwner h s) := .ite hs hs

theorem OutOk.requestThen {who : State → Bool} {h : ZcpHdr} {f : State → (Nat × List Nat) × State}
    {after : Nat → State → State} {s : State} (hf : ∀ t, MemOk t → MemOk (f t).2)
    (hafter : ∀ a t, MemOk t → MemOk (after a t)) (hs : MemOk s) : OutOk (requestThen who h f after s) := by
  have kept : MemOk (Machine.keepOwner h (Machine.settleOwner (Machine.settleRoll s))) :=
    .keepOwner (.settleOwner (.settleRoll hs))
  unfold Machine.requestThen
  dsimp only
  split
  · exact hs
  · split
    · exact .send kept
    · exact .ite (hafter _ _ (.answer (hf _ kept))) (.answer kept)

theorem OutOk.served {s : State} {act : Host.Outcome State Fault Refusal} (h : MemOk s) (hact : OutOk act) :
    OutOk (served s act) := by
  unfold Machine.served
  split
  · exact h
  · exact hact

theorem OutOk.requestWith {who : State → Bool} {h : ZcpHdr} {f : State → (Nat × List Nat) × State} {s : State}
    (hf : ∀ t, MemOk t → MemOk (f t).2) (hs : MemOk s) : OutOk (requestWith who h f s) :=
  .served hs (.requestThen hf (fun _ _ ht => ht) hs)

theorem OutOk.request {who : State → Bool} {h : ZcpHdr} {f : State → Nat × State} {s : State}
    (hf : ∀ t, MemOk t → MemOk (f t).2) (hs : MemOk s) : OutOk (request who h f s) :=
  .requestWith (fun _ h => hf _ h) hs

theorem OutOk.execEvAccept {h : ZcpHdr} {s : State} (hs : MemOk s) :
    OutOk (execEvAccept h s) := by
  unfold Machine.execEvAccept
  dsimp only
  refine .request (fun _ h => ?_) hs
  split
  · exact .iteSnd h h
  · exact h

theorem MemOk.startContext {addr : Nat} {s : State} (h : MemOk s) : MemOk (startContext addr s).2 :=
  .iteSnd h (.iteSnd (.findEcc h) (.iteSnd (.findEcc h) (.iteSnd (.recallLine (.recallLine h)) h)))

theorem MemOk.squashContext {ctx : Nat} {s : State} (h : MemOk s) : MemOk (squashContext ctx s) := .squashAll h

theorem MemOk.dropWork {ctx : Nat} {s : State} (h : MemOk s) : MemOk (dropWork ctx s) :=
  .foldl (fun _ _ h => .pushDue h) h

theorem MemOk.dropHeldData {ctx : Nat} {s : State} (h : MemOk s) : MemOk (dropHeldData ctx s) := .dropContextEntries h

theorem MemOk.moveIssued {ctx z : Nat} {s : State} (h : MemOk s) : MemOk (moveIssued ctx z s) := h

theorem MemOk.endContext {ctx : Nat} {s : State} (h : MemOk s) : MemOk (endContext ctx s).2 := by
  unfold Machine.endContext
  split
  · exact h
  · have hdropped : MemOk ((s.cohorts.filter (·.ctx == ctx)).foldl (fun s c => Machine.dropCohort c s) s) :=
      .foldl (fun _ _ h => .dropCohort h) h
    exact .moveIssued (.dropHeldData (.dropWork (.squashContext (.abandonWaits hdropped))))

theorem MemOk.readProg {stack ctx n va : Nat} {s t : State} {ws : List Nat}
    (e : readProg stack ctx n va s = some (ws, t)) (h : MemOk s) : MemOk t := by
  induction n generalizing va s t ws with
  | zero =>
    cases e
    exact h
  | succ n ih =>
    unfold Machine.readProg at e
    split at e
    · cases e
    · next e1 =>
      obtain ⟨r, e2, e3⟩ := Option.map_eq_some_iff.mp e
      cases e3
      exact ih e2 (.cpRead e1 h)

theorem MemOk.createQueue {ctx addr : Nat} {s : State} (h : MemOk s) :
    MemOk (createQueue ctx addr s).2 := by
  unfold Machine.createQueue
  dsimp only
  split
  · exact h
  · split
    · exact .noteBad h
    · next e =>
      have ht := MemOk.cpRead e h
      split
      · exact h
      · split
        · exact h
        · next e =>
          have hu := MemOk.readProg e ht
          exact .iteSnd hu h

theorem MemOk.mapQueues {p : Queue → Bool} {f : Queue → Queue} {s : State} (h : MemOk s) : MemOk (mapQueues p f s) :=
  h

theorem MemOk.suspend {ctx q : Nat} {s : State} (h : MemOk s) : MemOk (suspend ctx q s) := by
  unfold Machine.suspend
  extract_lets hit ended stopped grids mine preempted
  have hended : MemOk ended := .foldl (fun _ _ h => .endTurn h) h
  have hstopped : MemOk stopped := .mapQueues hended
  have hpreempted : MemOk preempted := .foldl (fun _ _ h => .preempt h) hstopped
  exact .foldl (fun _ _ h => .drainLaunch h) hpreempted

theorem OutOk.execEvResolve {h : ZcpHdr} {stack token : Nat} {refuse : Bool} {s : State} (hs : MemOk s) :
    OutOk (execEvResolve h stack token refuse s) := by
  unfold Machine.execEvResolve
  refine .request (fun _ h => ?_) hs
  split
  · next e =>
    have ht := MemOk.ofEq e (.resolve h)
    exact ht
  · exact h

theorem MemOk.refuseInput {q : Queue} {code : Nat} {s : State} (h : MemOk s) : MemOk (refuseInput q code s).2 :=
  .queueEvent h

theorem MemOk.finishInput {q : Queue} {widx : Nat} {s : State} (h : MemOk s) :
    MemOk (finishInput q widx s).2 := by
  unfold Machine.finishInput
  split
  · exact .refuseInput (.noteBad h)
  · next e =>
    have ht := MemOk.cpWrite e h
    exact .updQueue ht

theorem MemOk.putInput {q : Queue} {data : List Nat} {s : State} (h : MemOk s) :
    MemOk (putInput q data s).2 := by
  unfold Machine.putInput
  dsimp only
  split
  · exact .refuseInput (.noteBad h)
  · next e =>
    have ht := MemOk.cpRead e h
    split
    · exact .refuseInput ht
    · split
      · exact .refuseInput (.noteBad ht)
      · next e =>
        have hu := MemOk.cpWrite e ht
        exact .finishInput hu

theorem OutOk.execEvInput {h : ZcpHdr} {ctx q : Nat} {data : List Nat} {s : State} (hs : MemOk s) :
    OutOk (execEvInput h ctx q data s) := by
  unfold Machine.execEvInput
  refine .request (fun _ h => ?_) hs
  split
  · exact h
  · exact .iteSnd h (.putInput h)

theorem MemOk.bootAgain {open_ : State → Bool} {status : Nat} {s : State} (h : MemOk s) :
    MemOk (bootAgain open_ status s) :=
  .ite (.moduleReset h) h

theorem OutOk.execEvImage {h : ZcpHdr} {off total : Nat} {data : List Nat} {good : Bool} {s : State} (hs : MemOk s) :
    OutOk (execEvImage h off total data good s) := by
  unfold Machine.execEvImage
  dsimp only
  refine .requestThen (fun _ h => ?_) (fun _ _ h => .bootAgain h) hs
  split
  · exact h
  · split
    · exact h
    · exact .iteSnd h (.iteSnd h h)

theorem OutOk.execEvConfig {h : ZcpHdr} {off total : Nat} {data : List Nat} {good : Bool} {s : State} (hs : MemOk s) :
    OutOk (execEvConfig h off total data good s) := by
  unfold Machine.execEvConfig
  dsimp only
  refine .requestThen (fun _ h => ?_) (fun _ _ h => .bootAgain h) hs
  split
  · exact h
  · split
    · exact h
    · exact .iteSnd h (.iteSnd h h)

theorem OutOk.execEvReset {h : ZcpHdr} {s : State} (hs : MemOk s) : OutOk (execEvReset h s) :=
  .served hs (.requestThen (fun _ ht => ht) (fun _ _ ht => .moduleReset ht) hs)

/-! ## Turns and background agents -/

theorem MemOk.focusOn {wid : Option Nat} {s : State} (h : MemOk s) :
    MemOk (focusOn wid s) := by
  unfold Machine.focusOn
  split
  · exact .focusWave h
  · exact h

theorem MemOk.loseStore {id : Nat} {s : State} (h : MemOk s) :
    MemOk (loseStore id s) := by
  unfold Machine.loseStore
  dsimp only
  split
  · exact .ite (.retire h) h
  · exact h

theorem MemOk.backgroundStep {b : Background} {s : State} (h : MemOk s) :
    MemOk (backgroundStep b s) := by
  unfold Machine.backgroundStep
  dsimp only
  split
  · exact .mapWaves h
  · split
    · exact .ite h (.drain h)
    · exact h
  · exact h
  · exact h
  · exact h
  · exact .loseStore h
  · exact .ite h h
  · split
    · exact .applyUpdate h
    · exact h
  · exact h
  · exact h
  · exact h
  · split
    · split
      · next e =>
        have ht := MemOk.ofEq e (.fetchWord h)
        exact ht
      · exact h
    · exact h
  · exact .readAhead h
  · exact .ite h (.spillLine h)
  · exact .spillSector h
  · exact .ite h h
  · exact .ite h h

/-! ## Every instruction -/

theorem OutOk.exec {i : Instr} {s : State} (h : MemOk s) : OutOk (Machine.exec i s) := by
  cases i with
  | clauseHeader => exact MemOk.issueHeader h
  | fadd | fsub | fmul | ffma | fmin | fmax | fminp | fmaxp | frcp | frsq | fsqrt | fdiv | fexp2 | flog2 | fsin
  | fcos | frint | ffrac | fscale =>
    exact MemOk.fpV3 h
  | fdot2 | cvt => exact MemOk.fpResult h
  | fclass | bfi | sel | iaddi | logi => exact MemOk.writeV h
  | fcmp => exact MemOk.completeFp (.writeP h)
  | iadd | isub | imul | imulh | imad | imin | imax | iand | ior | ixor | shl | shr | rot | bfe | popc | clz
  | brev | ihash | pack | prmt =>
    exact MemOk.intV3 h
  | idiv | irem => exact MemOk.divide h
  | icmp | icmpi | scmp => exact MemOk.writeP h
  | iadd64 | imadw | lea => exact MemOk.writeVPair h
  | mov | movi => exact MemOk.ite (.writeVPair h) (.writeV h)
  | sreg => exact MemOk.ite h (.writeV h)
  | srset => exact MemOk.ite h (.ite (.ite h (.raise h)) (.ite h (.raise h)))
  | vxrd => exact MemOk.ite (.raise h) (.ite (.writeVPair h) (.writeV h))
  | vxwr => exact MemOk.ite (.raise h) (.ite h h)
  | vmovs | salu | vfree | vquery => exact MemOk.writeS h
  | smovv => exact MemOk.ite (.writeV h) (.ite h h)
  | shfl => exact MemOk.crossLane (fun _ h => .ite (.writeP (.writeV h)) (.writeV h)) h
  | vote => exact OutOk.execVote h
  | redux => exact OutOk.execRedux h
  | scanx => exact MemOk.crossLane (fun _ h => .ite (.writeV h) (.completeFp (.writeV h))) h
  | matchx => exact MemOk.crossLane (fun _ h => .writeVPair h) h
  | elect => exact MemOk.crossLane (fun _ h => .writeP h) h
  | smovi => exact MemOk.ite (.writeSPair h) (.writeS h)
  | ld | st | sld | atom | atomf | cas | red | redf => exact MemOk.issueGlobal h
  | lds | sts | atoms | cass => exact MemOk.issueScratch h
  | ldw | ldc | stf | waita => exact MemOk.waitGlobal h
  | ldsw | ldsc | stsf => exact MemOk.waitScratch h
  | feset | feget | vismin => exact MemOk.ite (.issueScratch h) (.issueGlobal h)
  | fence => exact OutOk.execFence h
  | bind => exact MemOk.ite h (.ite (.raise h) (.writeS (.ite (.updContext h) h)))
  | unbind => exact MemOk.ite h (.ite (.raise h) (.writeS (.updContext h)))
  | cpin => exact OutOk.execCpin h
  | cunpin | icinv => exact MemOk.cacheRange (fun _ _ _ h => h) h
  | cwb => exact OutOk.execCwb h
  | cinv => exact MemOk.cacheRange (fun _ _ _ h => .flushUpdates h) h
  | fetchbar | nop | evServiceFirmwareRestart | evMacsecFailure => exact h
  | pref => exact MemOk.foldl (fun _ _ h => .prefetch h) h
  | bra | brx | call | callx | ret => exact MemOk.transfer h
  | exit => exact MemOk.ite h (.exitLanes h)
  | join | leave | mset => exact MemOk.writeM h
  | waitm => exact MemOk.ite (.raise h) h
  | mtest => exact MemOk.ite (.writeSPair h) (.writeP h)
  | yield | cseal | sleep | evFibreDown | evSoftError | evThrottleFlushWriteBack | evHostPortTraining =>
    exact MemOk.ite h h
  | wait => exact MemOk.ite h (.holdAgain h)
  | trap | bkpt => exact MemOk.ite h (.raise h)
  | bara => exact MemOk.arrival (fun _ _ h => h) h
  | barw => exact OutOk.execBarw h
  | bars => exact OutOk.execBars h
  | barm => exact OutOk.execBarm h
  | copy | layout | put => exact MemOk.issueCmd h
  | cwait => exact OutOk.execCwait h
  | cbwait => exact MemOk.ite h (.ite (.holdAgain h) (.acquireNow (.writeS h)))
  | grow => exact OutOk.execGrow h
  | mfork => exact OutOk.execMfork h
  | mjoin => exact OutOk.execMjoin h
  | vpush => exact OutOk.execVpush h
  | vpop => exact OutOk.execVpop h
  | tex | texl | texg | tld | tquery => exact MemOk.issueTex h
  | hgfetch => exact OutOk.execHgfetch h
  | hgscat => exact OutOk.execHgscat h
  | hgsettle => exact OutOk.execHgsettle h
  | rast => exact OutOk.execRast h
  | attr => exact OutOk.execAttr h
  | flip => exact OutOk.execFlip h
  | triset => exact OutOk.execTriset h
  | rbox | rtri | rxfm => exact MemOk.issueRay h
  | rstkp => exact OutOk.execRstkp h
  | rstko => exact OutOk.execRstko h
  | rtrail => exact MemOk.ite h (.laneChecks (fun _ h => .pushEngine h) h)
  | vfork => exact OutOk.execVfork h
  | vcommit => exact OutOk.execVcommit h
  | vsquash => exact MemOk.ite h (.ite (.writeS h) (.ite (.writeS h) (.squashTree (.writeS h))))
  | vset => exact MemOk.ite h (.ite (.raise h) (.ite (.holdAgain h) (.releaseNow h)))
  | vdeadl => exact MemOk.ite h (.ite (.writeS h) (.writeS (.updTag h)))
  | tret => exact MemOk.ite h (.ite (.raise h) (.ite (.exitLanes h) h))
  | pgreq => exact OutOk.execPgreq h
  | rstlbl => exact MemOk.ite h (.updCohort h)
  | event => exact MemOk.ite h (.ite (.postEvent h) (.logEntry h))
  | mnop => exact MemOk.streamWord (fun _ h => .ite h (.stepStream h)) h
  | mclaim => exact OutOk.execMclaim h
  | mrel => exact OutOk.execMrel h
  | mload | mstore => exact MemOk.streamWord (fun _ h => .ite (.faultHere h) (.sendWord h)) h
  | mzero | mma | mmas | mact | mscale => exact MemOk.streamWord (fun _ h => .sendWord h) h
  | mbara => exact OutOk.execMbara h
  | mbarw => exact OutOk.execMbarw h
  | mloop => exact OutOk.execMloop h
  | mend => exact OutOk.execMend h
  | msetStream | maddImm | maddReg => exact MemOk.streamWord (fun _ h => .stepStream h) h
  | mhalt => exact OutOk.execMhalt h
  | qpld => exact OutOk.execQpld h
  | qpst => exact MemOk.onRun (fun _ _ h => .goOn h) h
  | qwld => exact OutOk.execQwld h
  | qwst => exact OutOk.execQwst h
  | qwadd => exact OutOk.execQwadd h
  | qadd | qsub | qand | qor | qxor => exact OutOk.aluC h
  | qshl => exact OutOk.execQshl h
  | qshr => exact OutOk.execQshr h
  | qaddi => exact OutOk.execQaddi h
  | qli => exact OutOk.execQli h
  | qlih => exact OutOk.execQlih h
  | qcmp => exact OutOk.execQcmp h
  | qbz | qbnz => exact MemOk.onRun (fun _ _ h => .ite (.branchTo h) (.goOn h)) h
  | qjmp => exact MemOk.onRun (fun _ _ h => .branchTo h) h
  | qloop => exact MemOk.onRun (fun _ _ h => .ite (.goTo h) (.goOn h)) h
  | qendl => exact OutOk.execQendl h
  | qlaunch => exact OutOk.execQlaunch h
  | qdepset a b off n => exact (OutOk.execQdepset h : OutOk (Machine.execQdepset a b off n s))
  | qdepdec => exact OutOk.execQdepdec h
  | qsignal => exact MemOk.onRun (fun _ _ h => .goOn (.updQueue h)) h
  | qdone => exact OutOk.execQdone h
  | qretry => exact MemOk.onRun (fun _ _ h => .restIn h) h
  | qfault => exact MemOk.onRun (fun _ _ h => .faultQueue h) h
  | evLateTrap => exact MemOk.ite (.takeLate h) h
  | evCountedResult => exact OutOk.execEvCountedResult h
  | evReevaluation => exact OutOk.execEvReevaluation h
  | evSleepEnd => exact OutOk.execEvSleepEnd h
  | evYieldEnd => exact OutOk.execEvYieldEnd h
  | evCombiningBufferDrain => exact MemOk.ite h (.drain h)
  | evPlacement stack => exact (OutOk.execEvPlacement h : OutOk (Machine.execEvPlacement stack s))
  | evRelaunch => exact OutOk.execEvRelaunch h
  | evWatchdog => exact OutOk.execEvWatchdog h
  | evCopyAccept => exact OutOk.execEvCopyAccept h
  | evLayoutStart => exact OutOk.execEvLayoutStart h
  | evChunkComplete => exact OutOk.execEvChunkComplete h
  | evPutMessage => exact MemOk.ite (.send (.homeWrite (.recallLine (.putPiecesWrite h)))) (.send h)
  | evPutack => exact OutOk.execEvPutack h
  | evFrameSend => exact OutOk.execEvFrameSend h
  | evFrameack => exact MemOk.ite h (.endFrame h)
  | evFrameMessage => exact MemOk.send h
  | evNoRoute => exact OutOk.execEvNoRoute h
  | evLogReplay => exact OutOk.execEvLogReplay h
  | evDeadlineExpiry => exact MemOk.ite (.expire h) h
  | evTagReclaim => exact MemOk.ite (.updTag h) h
  | evQueueTimer => exact MemOk.updQueue h
  | evRun => exact OutOk.execEvRun h
  | evBudget => exact OutOk.execEvBudget h
  | evNopPacket => exact MemOk.takeWhole (fun _ _ h => .complete h) h
  | evKernelLaunch => exact MemOk.takePacket (fun _ _ h => .takeLaunch h) h
  | evCopyPacket => exact OutOk.execEvCopyPacket h
  | evCommitPacket => exact MemOk.takeWhole (fun _ _ h => .takeCommit h) h
  | evInvalidation => exact MemOk.takeWhole (fun _ _ h => .takeInvalidation h) h
  | evFaultResolution => exact MemOk.takeWhole (fun _ _ h => .takeResolution h) h
  | evPacketCompletion => exact OutOk.execEvPacketCompletion h
  | evPoolRecord => exact OutOk.execEvPoolRecord h
  | evPoolFlush => exact OutOk.execEvPoolFlush h
  | evPoolQuiescence => exact OutOk.execEvPoolQuiescence h
  | evFifoEntryAvailable => exact MemOk.ite (.updFifo h) h
  | evIslandGated => exact OutOk.execEvIslandGated h
  | evIslandOn => exact OutOk.execEvIslandOn h
  | evLevelChange => exact MemOk.ite h (.applyLevel h)
  | evClaim | evHandover => exact OutOk.request (fun _ h => h) h
  | evRollCallClose => exact MemOk.settleRoll h
  | evOwnershipLapse => exact MemOk.settleOwner h
  | evAccept => exact OutOk.execEvAccept h
  | evCtxstart => exact OutOk.request (fun _ h => .startContext h) h
  | evCtxend => exact OutOk.request (fun _ h => .endContext h) h
  | evQcreate => exact OutOk.request (fun _ h => .createQueue h) h
  | evDoorbell => exact OutOk.request (fun _ h => .iteSnd h (.updQueue h)) h
  | evSuspend => exact OutOk.request (fun _ h => .iteSnd (.suspend h) h) h
  | evResume => exact OutOk.request (fun _ h => .iteSnd (.mapQueues h) h) h
  | evResolve => exact OutOk.execEvResolve h
  | evSquashRequest => exact OutOk.request (fun _ h => .iteSnd (.squashTree h) h) h
  | evIsland => exact OutOk.requestWith (fun _ h => .powerRequest h) h
  | evCap | evEventring => exact OutOk.request (fun _ h => .iteSnd h h) h
  | evFaultring => exact OutOk.request (fun _ h => .iteSnd (.flushFaults (.homeWrite h)) h) h
  | evInput => exact OutOk.execEvInput h
  | evTelemetry => exact OutOk.requestWith (fun _ h => h) h
  | evImage => exact OutOk.execEvImage h
  | evConfig => exact OutOk.execEvConfig h
  | evReset => exact OutOk.execEvReset h
  | evPowerMeasurement => exact OutOk.execEvPowerMeasurement h
  | evAdvise => exact MemOk.ite (.thermalEvent (.setTrip h)) h
  | evThrottle => exact MemOk.ite (.thermalEvent (.setTrip (.mapIslands h))) h
  | evShutDown => exact OutOk.execEvShutDown h
  | evTripClear => exact MemOk.ite (.setTrip h) h
  | evTimeSync => exact MemOk.ite h (.postEvent h)
  | evModuleReset => exact MemOk.moduleReset h
  | evEngineWordTakesEffect => exact OutOk.execEvEngineWordTakesEffect h
  | evRptrAdvance => exact OutOk.execEvRptrAdvance h
  | evPortComesUp => exact MemOk.ite (.foldl (fun _ _ h => .sendHeld h) h) h

/-! ## Turns -/

/-- The state that a turn of a wave carries on has a memory of the canonical form. -/
def IssueOk : Issue → Prop
  | .done s => MemOk s
  | .run _ s => MemOk s

/-- The state that a turn carries on has a memory of the canonical form. -/
def ActOk : Act → Prop
  | .done s => MemOk s
  | .run _ s => MemOk s
  | .word _ s => MemOk s

theorem IssueOk.wordTurn {c : Clause} {s : State} (h : MemOk s) : IssueOk (wordTurn c s) := by
  unfold Machine.wordTurn
  extract_lets word next w go
  have hgo : MemOk go := .noteIssue h
  clear_value go
  split
  · exact MemOk.raiseCheck hgo
  · split
    · exact h
    · exact hgo

theorem IssueOk.boundaryTurn {s : State} (h : MemOk s) : IssueOk (boundaryTurn s) := by
  unfold Machine.boundaryTurn
  extract_lets w byCompare
  have compared (t : State) (ht : MemOk t) : IssueOk (byCompare t) := by
    dsimp only [byCompare]
    split
    · exact ht
    · next pc lanes _ =>
      have read : MemOk (Machine.fetchWord pc t).2 := .fetchWord ht
      split
      · exact read
      · exact MemOk.fetchFailed read
  clear_value byCompare
  split
  · exact h
  · split
    · have read : MemOk (Machine.fetchWord (w.pcOf (lowest w.prev)).toNat s).2 := .fetchWord h
      dsimp only
      split
      · split
        · exact compared _ read
        · exact read
      · exact MemOk.fetchFailed read
    · exact compared _ h

theorem IssueOk.issueTurn {s : State} (h : MemOk s) : IssueOk (issueTurn s) := by
  unfold Machine.issueTurn
  dsimp only
  split
  · exact h
  · split
    case h_1 => exact h
    case h_2 => exact MemOk.barrierTurn h
    case h_3 => exact MemOk.cwaitTurn h
    case h_4 => exact h
    case h_5 => exact h
    case h_6 => exact h
    case h_7 =>
      split
      · exact h
      · split
        · split
          · exact MemOk.refetch h
          · exact .wordTurn h
        · exact .boundaryTurn h

theorem ActOk.waveTurn {s : State} (h : MemOk s) : ActOk (waveTurn s) := by
  have turn := IssueOk.issueTurn h
  unfold Machine.waveTurn
  split
  · next e => rwa [e] at turn
  · next e => rwa [e] at turn

theorem ActOk.streamTurn {cohort : Nat} {s : State} (h : MemOk s) : ActOk (streamTurn cohort s) := by
  have focus : MemOk (Machine.focusStream cohort s) := .focusStream h
  unfold Machine.streamTurn
  dsimp only
  split
  · exact focus
  · split
    · next e =>
      have read := MemOk.ofEq e (.streamFetch focus)
      split
      · exact MemOk.faultHere read
      · split
        · exact read
        · exact MemOk.faultHere read
    · next e => exact MemOk.streamFetchFailed (MemOk.ofEq e (.streamFetch focus))

theorem ActOk.queueTurn {ctx q : Nat} {s : State} (h : MemOk s) : ActOk (queueTurn ctx q s) := by
  have focus : MemOk (Machine.focusQueue ctx q s) := .focusQueue h
  unfold Machine.queueTurn
  dsimp only
  split
  · exact focus
  · split
    · exact focus
    · split
      · exact focus
      · split
        · exact focus
        · split
          · exact focus
          · exact focus

theorem ActOk.turnAct {t : Turn} {s : State} (h : MemOk s) : ActOk (turnAct t s) := by
  cases t with
  | issue wid => exact .waveTurn (.focusOn h)
  | stream cohort => exact .streamTurn h
  | queue ctx q => exact .queueTurn h
  | event wid i =>
    unfold Machine.turnAct
    dsimp only
    split
    · exact MemOk.focusOn h
    · exact h
  | background wid b => exact MemOk.backgroundStep (.focusOn h)

theorem OutOk.endWord {o : Host.Outcome State Fault Refusal} (h : OutOk o) : OutOk (endWord o) := by
  cases o with
  | next t => exact MemOk.afterWord h
  | _ => trivial

theorem OutOk.takeTurn {t : Turn} {s : State} (h : MemOk s) : OutOk (takeTurn t s) := by
  have act := ActOk.turnAct (t := t) h
  unfold Machine.takeTurn
  split
  · next e => rwa [e] at act
  · next e =>
    rw [e] at act
    exact .exec act
  · next e =>
    rw [e] at act
    exact .endWord (.exec act)

theorem OutOk.finishTurn {o : Host.Outcome State Fault Refusal} (h : OutOk o) : OutOk (finishTurn o) := by
  cases o with
  | next t => exact MemOk.ite h (.spillEvicted h)
  | _ => trivial

/-! ## The agents inside the module -/

/-- An agent that keeps the canonical form of memory. -/
def Keeps (f : Agent) : Prop := ∀ s, MemOk s → OutOk (f s)

theorem Keeps.exec (i : Instr) : Keeps (Machine.exec i) := fun _ h => .exec h

theorem Keeps.takeTurn (t : Turn) : Keeps (Machine.takeTurn t) := fun _ h => .takeTurn h

theorem Keeps.onWave {f : Agent} (w : Wave) (hf : Keeps f) : Keeps (onWave w f) :=
  fun _ h => hf _ (.focusWave h)

theorem keeps_of_mem_waveAgents {s : State} {f : Agent} (hf : f ∈ waveAgents s) : Keeps f := by
  simp only [waveAgents, List.mem_flatMap, List.mem_append, List.mem_cons, List.mem_map] at hf
  obtain ⟨w, -, (rfl | ⟨c, -, rfl⟩) | ⟨p, -, rfl⟩⟩ := hf
  · exact .takeTurn _
  · exact .onWave w (.exec (.evCountedResult ..))
  · exact .onWave w (.exec (.evReevaluation ..))

theorem keeps_of_mem_engineAgents {s : State} {f : Agent} (hf : f ∈ engineAgents s) : Keeps f := by
  simp only [engineAgents, List.mem_flatMap, List.mem_append, List.mem_cons, List.mem_map] at hf
  obtain ((⟨x, -, rfl⟩ | ⟨c, -, rfl⟩) | ⟨c, -, rfl | rfl | ⟨k, -, rfl⟩⟩) | ⟨c, -, rfl⟩ := hf
  · exact .takeTurn _
  · exact .exec (.evEngineWordTakesEffect ..)
  · exact .exec (.evCopyAccept ..)
  · exact .exec (.evLayoutStart ..)
  · exact .exec (.evChunkComplete ..)
  · exact .exec (.evFrameSend ..)

theorem keeps_of_mem_packetAgents {s : State} {f : Agent} (hf : f ∈ packetAgents s) : Keeps f := by
  simp only [packetAgents, List.mem_flatMap, List.mem_append, List.mem_cons, List.mem_map, List.not_mem_nil,
    or_false] at hf
  obtain (((⟨q, -, hq⟩ | ⟨k, -, hk | ⟨c, -, rfl⟩⟩) | ⟨l, -, hl⟩) | ⟨k, -, rfl⟩) | ⟨k, -, rfl⟩ := hf
  · obtain rfl | rfl | rfl := hq
    · exact .exec (.evQueueTimer ..)
    · exact .exec (.evRun ..)
    · exact .takeTurn _
  · obtain rfl | rfl | rfl | rfl | rfl | rfl | rfl := hk
    · exact .exec (.evPlacement ..)
    · exact .exec (.evRelaunch ..)
    · exact .exec (.evNopPacket ..)
    · exact .exec (.evKernelLaunch ..)
    · exact .exec (.evCommitPacket ..)
    · exact .exec (.evInvalidation ..)
    · exact .exec (.evFaultResolution ..)
  · exact .exec (.evCopyPacket ..)
  · obtain rfl | rfl | rfl := hl
    · exact .exec (.evPoolRecord ..)
    · exact .exec (.evPoolFlush ..)
    · exact .exec (.evPoolQuiescence ..)
  · exact .exec (.evPacketCompletion ..)
  · exact .exec (.evWatchdog ..)

theorem keeps_of_mem_otherAgents {s : State} {f : Agent} (hf : f ∈ otherAgents s) : Keeps f := by
  simp only [otherAgents, List.mem_flatMap, List.mem_append, List.mem_cons, List.mem_map, List.mem_ite_nil_left,
    List.not_mem_nil, or_false] at hf
  obtain ((((((((⟨p, -, rfl⟩ | ⟨p, -, rfl⟩) | ⟨-, rfl⟩) | ⟨-, rfl⟩) | ⟨c, -, e, -, rfl | rfl⟩) | ⟨e, -, rfl⟩)
    | ⟨e, -, rfl | rfl | rfl⟩) | ⟨k, -, rfl⟩) | (rfl | rfl | rfl)) := hf
  · exact .takeTurn _
  · exact .exec (.evCombiningBufferDrain ..)
  · exact .takeTurn _
  · exact .exec .evLogReplay
  · exact .exec (.evDeadlineExpiry ..)
  · exact .exec (.evTagReclaim ..)
  · exact .exec (.evFifoEntryAvailable ..)
  · exact .exec (.evIslandGated ..)
  · exact .exec (.evIslandOn ..)
  · exact .exec (.evLevelChange ..)
  · exact .exec (.evNoRoute ..)
  · exact .exec .evRollCallClose
  · exact .exec .evOwnershipLapse
  · exact .takeTurn _

theorem keeps_of_mem_allAgents {s : State} {f : Agent} (hf : f ∈ allAgents s) : Keeps f := by
  simp only [allAgents, List.mem_append] at hf
  obtain ((hf | hf) | hf) | hf := hf
  · exact keeps_of_mem_waveAgents hf
  · exact keeps_of_mem_engineAgents hf
  · exact keeps_of_mem_packetAgents hf
  · exact keeps_of_mem_otherAgents hf

theorem mem_of_mem_rotate {α : Type} {n : Nat} {l : List α} {a : α} (ha : a ∈ rotate n l) : a ∈ l := by
  rw [rotate, List.mem_append] at ha
  exact ha.elim List.mem_of_mem_drop List.mem_of_mem_take

/-! ## A step -/

theorem OutOk.firstChange {fs : List Agent} {s : State} (hfs : ∀ f ∈ fs, Keeps f) (h : MemOk s) :
    OutOk (firstChange s fs) := by
  induction fs with
  | nil => exact h
  | cons f fs ih =>
    have out := hfs f List.mem_cons_self s h
    unfold Machine.firstChange
    split
    · next e =>
      rw [e] at out
      split
      · exact ih fun g hg => hfs g (List.mem_cons_of_mem f hg)
      · exact out
    · exact out

theorem OutOk.defaultStep {s : State} (h : MemOk s) : OutOk (defaultStep s) :=
  .firstChange (s := { s with rota := s.rota + 1 }) (fun _ hf => keeps_of_mem_allAgents (mem_of_mem_rotate hf)) h

theorem OutOk.step {s : State} (h : MemOk s) : OutOk (step s) := by
  unfold Machine.step
  refine .finishTurn ?_
  split
  · exact .defaultStep h
  · exact .takeTurn h

/-- Settles O58: what carries every step is that each state operation, each instruction and each agent keeps the
form. -/
theorem memoryFormKept : Obligations.MemoryFormKept := by
  intro s t h e
  have out := OutOk.step h
  rwa [e] at out

end Sys2Proof.Safety

namespace Sys2Proof.Codec

/-! ## The fields of a word (R39) -/

theorem bits_lt {w lo n m : Nat} (h : 2 ^ n = m) : bits w lo n < m := h ▸ Nat.mod_lt _ (Nat.two_pow_pos n)

theorem bits_one_le {w lo : Nat} : bits w lo 1 ≤ 1 := Nat.le_of_lt_succ (bits_lt rfl)

theorem readXW_fit (e : Nat) : (readXW e).fit = true := by
  simp [XW.fit, readXW, bits_lt]

theorem readMX_fit (e : Nat) : (readMX e).fit = true := by
  simp [MX.fit, readMX, bits_lt]

theorem readAX_fit (e : Nat) : (readAX e).fit = true := by
  simp [AX.fit, readAX, bits_lt]

theorem readForm_fit (w e : Nat) (fmt : Fmt) : (readForm w e fmt).fit = true := by
  cases fmt with
  | v3 => cases hx : flag w 31 <;> simp [readForm, Form.fit, bits_lt, readXW_fit, hx]
  | m => cases hx : flag w 31 <;> simp [readForm, Form.fit, bits_lt, readMX_fit, hx]
  | am => simp [readForm, Form.fit, bits_lt, readAX_fit]
  | ri | rl | b | s | k | c | wf | z => simp [readForm, Form.fit, bits_lt, bits_one_le]

/-! ## The instruction of an opcode (R44) -/

/-- The instruction of the SIMT stream with this opcode and these fields; the limits on the words of the other streams
do not bind it. -/
def IsSimt (op : Nat) (form : Form) (i : Instr) : Prop := i.simt? = some (op, form) ∧ i.wordFit = true

section

variable {op : Nat} {i : Instr}

theorem isSimt_of_buildV3 {f : V3} (h : buildV3 op f = some i) : IsSimt op (.v3 f) i := by
  unfold buildV3 at h
  split at h <;> cases h <;> exact ⟨rfl, rfl⟩

theorem isSimt_of_buildRi {f : RI} (h : buildRi op f = some i) : IsSimt op (.ri f) i := by
  unfold buildRi at h
  split at h <;> cases h <;> exact ⟨rfl, rfl⟩

theorem isSimt_of_buildRl {f : RL} (h : buildRl op f = some i) : IsSimt op (.rl f) i := by
  unfold buildRl at h
  split at h <;> cases h <;> exact ⟨rfl, rfl⟩

theorem isSimt_of_buildM {f : MF} (h : buildM op f = some i) : IsSimt op (.m f) i := by
  unfold buildM at h
  split at h <;> cases h <;> exact ⟨rfl, rfl⟩

theorem isSimt_of_buildAm {f : AM} (h : buildAm op f = some i) : IsSimt op (.am f) i := by
  unfold buildAm at h
  split at h <;> cases h <;> exact ⟨rfl, rfl⟩

theorem isSimt_of_buildB {f : BF} (h : buildB op f = some i) : IsSimt op (.b f) i := by
  unfold buildB at h
  split at h <;> cases h <;> exact ⟨rfl, rfl⟩

theorem isSimt_of_buildS {f : SF} (h : buildS op f = some i) : IsSimt op (.s f) i := by
  unfold buildS at h
  split at h <;> cases h <;> exact ⟨rfl, rfl⟩

theorem isSimt_of_buildK {f : KF} (h : buildK op f = some i) : IsSimt op (.k f) i := by
  unfold buildK at h
  split at h <;> cases h <;> exact ⟨rfl, rfl⟩

theorem isSimt_of_buildC {f : CF} (h : buildC op f = some i) : IsSimt op (.c f) i := by
  unfold buildC at h
  split at h <;> cases h <;> exact ⟨rfl, rfl⟩

theorem isSimt_of_buildWf {f : WF} (h : buildWf op f = some i) : IsSimt op (.wf f) i := by
  unfold buildWf at h
  split at h <;> cases h
  exact ⟨rfl, rfl⟩

theorem isSimt_of_buildZ (h : buildZ op = some i) : IsSimt op .z i := by
  unfold buildZ at h
  split at h <;> cases h <;> exact ⟨rfl, rfl⟩

theorem isSimt_of_build {form : Form} (h : build op form = some i) : IsSimt op form i := by
  cases form with
  | v3 f => exact isSimt_of_buildV3 h
  | ri f => exact isSimt_of_buildRi h
  | rl f => exact isSimt_of_buildRl h
  | m f => exact isSimt_of_buildM h
  | am f => exact isSimt_of_buildAm h
  | b f => exact isSimt_of_buildB h
  | s f => exact isSimt_of_buildS h
  | k f => exact isSimt_of_buildK h
  | c f => exact isSimt_of_buildC h
  | wf f => exact isSimt_of_buildWf h
  | z => exact isSimt_of_buildZ h

end

/-! ## Words of the SIMT stream -/

/-- R41: the opcodes that require an extension word are of the formats V3 and M. -/
theorem fmtOf_of_needsExt {op : Nat} (h : needsExt op = true) : fmtOf op = some .v3 ∨ fmtOf op = some .m := by
  simp only [needsExt, Bool.or_eq_true, beq_iff_eq] at h
  obtain (((rfl | rfl) | rfl) | rfl) | rfl := h
  · exact .inl rfl
  · exact .inl rfl
  · exact .inl rfl
  · exact .inr rfl
  · exact .inl rfl

theorem readForm_hasExt {w : Nat} (e : Nat) {fmt : Fmt} (hfmt : fmtOf (w % 256) = some fmt)
    (hop : opIllegal w = false) (hneed : needsExt (w % 256) = true) : (readForm w e fmt).hasExt = true := by
  have hflag : flag w 31 = true := by simpa [opIllegal, hfmt, hneed] using hop
  have hv3m : fmt = .v3 ∨ fmt = .m := by simpa [hfmt] using fmtOf_of_needsExt hneed
  obtain rfl | rfl := hv3m
  · simp [readForm, Form.hasExt, hflag]
  · simp [readForm, Form.hasExt, hflag]

theorem fieldFault_eq_none {i : Instr} :
    fieldFault i = none ↔ i.fieldsOk = true ∧ i.mregs.all (· < 12) = true ∧ i.sregs.all (· < 64) = true := by
  cases hf : i.fieldsOk <;> cases hm : i.mregs.all (· < 12) <;> cases hs : i.sregs.all (· < 64) <;>
    simp [fieldFault, hf, hm, hs]

theorem extFollows_iff {w : Nat} {fmt : Fmt} (hfmt : fmtOf (w % 256) = some fmt) :
    simtSize w = 2 ↔ extFollows w fmt = true := by
  cases hx : extFollows w fmt <;> simp [simtSize, hfmt, hx]

/-- What the decoder has checked of a word of the SIMT stream that it reads. -/
theorem decodeSimt_eq_ok {w : Nat} {ext : Option Nat} {i : Instr} (h : decodeSimt w ext = .ok i) :
    ∃ fmt, fmtOf (w % 256) = some fmt ∧ opIllegal w = false
      ∧ build (w % 256) (readForm w (ext.getD 0) fmt) = some i
      ∧ (readForm w (ext.getD 0) fmt).words (w % 256) = w :: (if extFollows w fmt then ext.toList else [])
      ∧ fieldFault i = none := by
  unfold decodeSimt at h
  split at h
  · cases h
  · next fmt hfmt =>
    split at h
    · cases h
    · next hop =>
      split at h
      · cases h
      · dsimp only at h
        generalize hrest : (if extFollows w fmt then ext.toList else []) = rest at h
        split at h
        · cases h
        · next hbuild =>
          split at h
          · cases h
          · next hwords =>
            split at h
            · cases h
            · next hfault =>
              cases h
              subst hrest
              exact ⟨fmt, hfmt, by simpa using hop, hbuild, by simpa using hwords, hfault⟩

theorem wellFormed_of_isSimt {op : Nat} {form : Form} {i : Instr} (hi : IsSimt op form i)
    (hfault : fieldFault i = none) (hfit : form.fit = true) (hext : needsExt op = true → form.hasExt = true) :
    WellFormed i := by
  obtain ⟨hsimt, hword⟩ := hi
  obtain ⟨hfields, hm, hs⟩ := fieldFault_eq_none.mp hfault
  have hneed : (!needsExt op || form.hasExt) = true := by cases hn : needsExt op <;> simp [hn, hext]
  unfold WellFormed Instr.wellFormed
  simp only [hsimt, hword, hfields, hm, hs, hfit, hneed, Bool.and_self]

theorem decodeSimt_exact {w : Nat} {ext : Option Nat} {i : Instr} (h : decodeSimt w ext = .ok i)
    (hext : simtSize w = 2 ∨ ext = none) : encode i = w :: ext.toList ∧ WellFormed i := by
  obtain ⟨fmt, hfmt, hop, hbuild, hwords, hfault⟩ := decodeSimt_eq_ok h
  have hi := isSimt_of_build hbuild
  refine ⟨?_, wellFormed_of_isSimt hi hfault (readForm_fit ..) (readForm_hasExt _ hfmt hop)⟩
  have hrest : (if extFollows w fmt then ext.toList else []) = ext.toList := by
    rw [extFollows_iff hfmt] at hext
    obtain hx | rfl := hext
    · exact if_pos hx
    · exact ite_self _
  simp only [encode, hi.1, hwords, hrest]

/-! ## Words of the sequencer's stream and of a queue program -/

/-- An instruction of a stream other than the SIMT stream, its fields within the bits of its word. -/
def IsWord (i : Instr) : Prop := i.simt? = none ∧ i.wordFit = true ∧ i.mregs = [] ∧ i.sregs = []

theorem IsWord.wellFormed {i : Instr} (hi : IsWord i) (hfields : i.fieldsOk = true) : WellFormed i := by
  obtain ⟨hsimt, hword, hm, hs⟩ := hi
  unfold WellFormed Instr.wellFormed
  simp only [hsimt, hword, hm, hs, hfields, List.all_nil, Bool.and_self]

theorem isWord_of_readStream {w : Nat} {i : Instr} (h : readStream w = some i) : IsWord i := by
  unfold readStream at h
  split at h
  case h_14 =>
    split at h <;> cases h <;> exact ⟨rfl, by simp [Instr.wordFit, bits_lt], rfl, rfl⟩
  all_goals
    cases h <;> exact ⟨rfl, by simp [Instr.wordFit, bits_lt, bits_one_le], rfl, rfl⟩

theorem decodeStream_exact {w : Nat} {i : Instr} (h : decodeStream w = .ok i) : encode i = [w] ∧ WellFormed i := by
  unfold decodeStream at h
  split at h
  · cases h
  · next hread =>
    split at h
    · cases h
    · next hcheck =>
      cases h
      have hi := isWord_of_readStream hread
      obtain ⟨hword, hfields⟩ : streamWord i = some w ∧ i.fieldsOk = true := by simpa using hcheck
      exact ⟨by simp only [encode, hi.1, hword], hi.wellFormed hfields⟩

theorem isWord_of_readQueue {w e : Nat} {i : Instr} (h : readQueue w e = some i) :
    IsWord i ∧ streamWord i = none := by
  unfold readQueue at h
  split at h <;> cases h <;>
    exact ⟨⟨rfl, by simp [Instr.wordFit, bits_lt, bits_one_le], rfl, rfl⟩, rfl⟩

theorem decodeQueue_exact {w : Nat} {ext : Option Nat} {i : Instr} (h : decodeQueue w ext = .ok i)
    (hext : queueSize w = 2 ∨ ext = none) : encode i = w :: ext.toList ∧ WellFormed i := by
  unfold decodeQueue at h
  split at h
  · cases h
  · split at h
    · cases h
    · next hread =>
      generalize hrest : (if queueSize w == 2 then ext.toList else []) = rest at h
      split at h
      · cases h
      · next hcheck =>
        cases h
        obtain ⟨hi, hstream⟩ := isWord_of_readQueue hread
        obtain ⟨hwords, hfields⟩ : queueWords i = some (w :: rest) ∧ i.fieldsOk = true := by simpa using hcheck
        have hall : rest = ext.toList := by
          obtain hx | rfl := hext
          · exact hrest.symm.trans (if_pos (beq_iff_eq.mpr hx))
          · exact hrest.symm.trans (ite_self _)
        exact ⟨by simp only [encode, hi.1, hstream, hwords, hall], hi.wellFormed hfields⟩

/-- Settles O57: each decoder compares the word with the encoding of what it read, and reads each field from no more
bits than the field has. -/
theorem decodingIsExact : Obligations.DecodingIsExact :=
  ⟨fun _ _ _ => decodeSimt_exact, fun _ _ => decodeStream_exact, fun _ _ _ => decodeQueue_exact⟩

end Sys2Proof.Codec

namespace Sys2Proof.Totality

open Sys2Proof.Machine Sys2Proof.Safety

/-!
# Every step answers a next state (O59)

Only the boot ROM's guard `served` stands before the outcome of an instruction; every other meaning is a next state as
it is written. So every agent and every turn answers one.
-/

/-- The machine goes on: the outcome is a next state. -/
def Answered (o : Host.Outcome State Fault Refusal) : Prop := ∃ t, o = .next t

theorem served_answered {s : State} {act : Host.Outcome State Fault Refusal} (h : Answered act) :
    Answered (served s act) := by
  unfold served
  split
  · exact ⟨_, rfl⟩
  · exact h

theorem requestWith_answered {who : State → Bool} {h : ZcpHdr} {f : State → (Nat × List Nat) × State} {s : State} :
    Answered (requestWith who h f s) :=
  served_answered ⟨_, rfl⟩

theorem request_answered {who : State → Bool} {h : ZcpHdr} {f : State → Nat × State} {s : State} :
    Answered (request who h f s) :=
  requestWith_answered

theorem exec_answered (i : Instr) (s : State) : Answered (exec i s) := by
  cases i
  case evClaim | evHandover | evAccept | evCtxstart | evCtxend | evQcreate | evDoorbell | evSuspend | evResume
    | evResolve | evSquashRequest | evCap | evEventring | evFaultring | evInput => exact request_answered
  case evIsland | evTelemetry => exact requestWith_answered
  case evReset => exact served_answered ⟨_, rfl⟩
  all_goals exact ⟨_, rfl⟩

theorem endWord_answered {o : Host.Outcome State Fault Refusal} (h : Answered o) : Answered (endWord o) := by
  obtain ⟨t, rfl⟩ := h
  exact ⟨_, rfl⟩

theorem finishTurn_answered {o : Host.Outcome State Fault Refusal} (h : Answered o) : Answered (finishTurn o) := by
  obtain ⟨t, rfl⟩ := h
  exact ⟨_, rfl⟩

theorem takeTurn_answered (t : Turn) (s : State) : Answered (takeTurn t s) := by
  unfold takeTurn
  split
  · exact ⟨_, rfl⟩
  · exact exec_answered _ _
  · exact endWord_answered (exec_answered _ _)

/-! ## The agents inside the module -/

/-- An agent that answers a next state from every state. -/
def GoesOn (f : Agent) : Prop := ∀ s, Answered (f s)

theorem GoesOn.exec (i : Instr) : GoesOn (Machine.exec i) := exec_answered i

theorem GoesOn.takeTurn (t : Turn) : GoesOn (Machine.takeTurn t) := takeTurn_answered t

theorem GoesOn.onWave {f : Agent} (w : Wave) (hf : GoesOn f) : GoesOn (onWave w f) := fun _ => hf _

theorem goesOn_of_mem_waveAgents {s : State} {f : Agent} (hf : f ∈ waveAgents s) : GoesOn f := by
  simp only [waveAgents, List.mem_flatMap, List.mem_append, List.mem_cons, List.mem_map] at hf
  obtain ⟨w, -, (rfl | ⟨c, -, rfl⟩) | ⟨p, -, rfl⟩⟩ := hf
  · exact .takeTurn _
  · exact .onWave w (.exec (.evCountedResult ..))
  · exact .onWave w (.exec (.evReevaluation ..))

theorem goesOn_of_mem_engineAgents {s : State} {f : Agent} (hf : f ∈ engineAgents s) : GoesOn f := by
  simp only [engineAgents, List.mem_flatMap, List.mem_append, List.mem_cons, List.mem_map] at hf
  obtain ((⟨x, -, rfl⟩ | ⟨c, -, rfl⟩) | ⟨c, -, rfl | rfl | ⟨k, -, rfl⟩⟩) | ⟨c, -, rfl⟩ := hf
  · exact .takeTurn _
  all_goals exact fun _ => ⟨_, rfl⟩

theorem goesOn_of_mem_packetAgents {s : State} {f : Agent} (hf : f ∈ packetAgents s) : GoesOn f := by
  simp only [packetAgents, List.mem_flatMap, List.mem_append, List.mem_cons, List.mem_map, List.not_mem_nil,
    or_false] at hf
  obtain (((⟨q, -, hq⟩ | ⟨k, -, hk | ⟨c, -, rfl⟩⟩) | ⟨l, -, hl⟩) | ⟨k, -, rfl⟩) | ⟨k, -, rfl⟩ := hf
  · obtain rfl | rfl | rfl := hq
    case inr.inr => exact .takeTurn _
    all_goals exact fun _ => ⟨_, rfl⟩
  · obtain rfl | rfl | rfl | rfl | rfl | rfl | rfl := hk <;> exact fun _ => ⟨_, rfl⟩
  · exact fun _ => ⟨_, rfl⟩
  · obtain rfl | rfl | rfl := hl <;> exact fun _ => ⟨_, rfl⟩
  all_goals exact fun _ => ⟨_, rfl⟩

theorem goesOn_of_mem_otherAgents {s : State} {f : Agent} (hf : f ∈ otherAgents s) : GoesOn f := by
  simp only [otherAgents, List.mem_append, List.mem_map, List.mem_flatMap, List.mem_cons, List.mem_ite_nil_left,
    List.not_mem_nil, or_false] at hf
  obtain ((((((((hf | hf) | hf) | hf) | hf) | hf) | hf) | hf) | hf) := hf
  · obtain ⟨p, -, rfl⟩ := hf
    exact .takeTurn _
  · obtain ⟨p, -, rfl⟩ := hf
    exact fun _ => ⟨_, rfl⟩
  · obtain ⟨-, rfl⟩ := hf
    exact .takeTurn _
  · obtain ⟨-, rfl⟩ := hf
    exact fun _ => ⟨_, rfl⟩
  · obtain ⟨c, -, e, -, rfl | rfl⟩ := hf <;> exact fun _ => ⟨_, rfl⟩
  · obtain ⟨e, -, rfl⟩ := hf
    exact fun _ => ⟨_, rfl⟩
  · obtain ⟨e, -, rfl | rfl | rfl⟩ := hf <;> exact fun _ => ⟨_, rfl⟩
  · obtain ⟨k, -, rfl⟩ := hf
    exact fun _ => ⟨_, rfl⟩
  · obtain rfl | rfl | rfl := hf
    case inr.inr => exact .takeTurn _
    all_goals exact fun _ => ⟨_, rfl⟩

theorem goesOn_of_mem_allAgents {s : State} {f : Agent} (hf : f ∈ allAgents s) : GoesOn f := by
  simp only [allAgents, List.mem_append] at hf
  obtain ((hf | hf) | hf) | hf := hf
  · exact goesOn_of_mem_waveAgents hf
  · exact goesOn_of_mem_engineAgents hf
  · exact goesOn_of_mem_packetAgents hf
  · exact goesOn_of_mem_otherAgents hf

/-! ## A step -/

theorem firstChange_answered {fs : List Agent} (s : State) (hfs : ∀ f ∈ fs, GoesOn f) :
    Answered (firstChange s fs) := by
  induction fs with
  | nil => exact ⟨_, rfl⟩
  | cons f fs ih =>
    obtain ⟨u, hu⟩ := hfs f List.mem_cons_self s
    simp only [firstChange, hu]
    split
    · exact ih fun g hg => hfs g (List.mem_cons_of_mem f hg)
    · exact ⟨_, rfl⟩

theorem defaultStep_answered (s : State) : Answered (defaultStep s) :=
  firstChange_answered _ fun _ hf => goesOn_of_mem_allAgents (mem_of_mem_rotate hf)

theorem step_answered (s : State) : Answered (step s) := by
  unfold step
  refine finishTurn_answered ?_
  split
  · exact defaultStep_answered s
  · exact takeTurn_answered _ _

/-- Settles O59: no instruction's meaning has another outcome than a next state, so no agent and no turn has. -/
theorem everyStepAnswers : Obligations.EveryStepAnswers := ⟨step_answered, exec_answered⟩

end Sys2Proof.Totality

namespace Sys2Proof.Waits

open Sys2Proof.Machine Sys2Proof.Safety

/-!
# Waits (O14)

The end of a sleep or of a yield is the end of its word, `afterWord`: within a clause it does nothing more, and after
the last word the clause ends and the lanes that executed WAITM park (R149).
-/

/-! ## Wait fields (R37) -/

theorem waitMet_iff {w : Wave} {ctr k : Nat} :
    w.waitMet ctr k = true ↔ k = 7 ∨ (w.ops.filter fun o => o.ctr == ctr).length ≤ k := by
  simp only [Wave.waitMet, Bool.or_eq_true, beq_iff_eq, decide_eq_true_eq]
  rfl

theorem waitsMet_iff {w : Wave} {ld st cp tx : Nat} :
    w.waitsMet ld st cp tx = true ↔
      w.waitMet 0 ld = true ∧ w.waitMet 1 st = true ∧ w.waitMet 2 cp = true ∧ w.waitMet 3 tx = true := by
  simp [Wave.waitsMet, and_assoc]

theorem exec_wait (f : WF) (s : State) :
    exec (.wait f) s = .next (if s.w.waitsMet f.wld f.wst f.wcp f.wtx then s else holdAgain (.wait f) s) := rfl

/-! ## SLEEP and YIELD -/

theorem idle_eq_false {w : Wave} (h : w.active ≠ 0) : w.idle = false := beq_eq_false_iff_ne.2 h

theorem idle_eq_true {w : Wave} (h : w.active = 0) : w.idle = true := beq_iff_eq.2 h

theorem exec_sleep (f : RI) (s : State) : exec (.sleep f) s = execSleep f s := rfl

theorem exec_yield (s : State) : exec .yield s = execYield s := rfl

theorem exec_sleep_of_active {s : State} (f : RI) (h : s.w.active ≠ 0) :
    exec (.sleep f) s = .next { s with w := { s.w with hold := .sleep (s.now + 32 * (f.imm + 1)) } } := by
  rw [exec_sleep, execSleep, idle_eq_false h]
  rfl

theorem exec_sleep_of_idle {s : State} (f : RI) (h : s.w.active = 0) : exec (.sleep f) s = .next s := by
  rw [exec_sleep, execSleep, idle_eq_true h]
  rfl

theorem exec_yield_of_active {s : State} (h : s.w.active ≠ 0) :
    exec .yield s = .next { s with w := { s.w with
      demoted := s.w.demoted ||| s.w.active, fast := false
      hold := .yield (((partners s).filter (waveReady s)).map Wave.id) 64000 } } := by
  rw [exec_yield, execYield, idle_eq_false h]
  rfl

theorem exec_yield_of_idle {s : State} (h : s.w.active = 0) : exec .yield s = .next s := by
  rw [exec_yield, execYield, idle_eq_true h]
  rfl

/-- R153, R79: the waves for which a yield waits. -/
theorem mem_readyPartners {s : State} {id : Nat} :
    id ∈ ((partners s).filter (waveReady s)).map Wave.id ↔
      ∃ w ∈ s.waves, w.core = s.w.core ∧ w.part = s.w.part ∧ waveReady s w = true ∧ w.id = id := by
  simp only [partners, List.mem_map, List.mem_filter, Bool.and_eq_true, beq_iff_eq]
  exact exists_congr fun w => by tauto

theorem passYield_of_yield {w : Wave} {ws : List Nat} {left : Nat} (ns mhz : Nat) (h : w.hold = .yield ws left) :
    w.passYield ns mhz = { w with hold := .yield ws (left - ns * mhz) } := by
  simp [Wave.passYield, h]

/-! ## The ends of SLEEP and YIELD -/

/-- The focused wave is held no longer. -/
def release (s : State) : State := { s with w := { s.w with hold := .none } }

theorem exec_evSleepEnd {s : State} {u : Nat} (h : s.w.hold = .sleep u) :
    exec .evSleepEnd s = .next (if u ≤ s.now then afterWord (release s) else s) := by
  have e : exec .evSleepEnd s = execEvSleepEnd s := rfl
  rw [e, execEvSleepEnd, h]
  rfl

theorem exec_evYieldEnd {s : State} {ws : List Nat} {u : Nat} (h : s.w.hold = .yield ws u) :
    exec .evYieldEnd s = .next (if ws = [] ∨ u = 0 then afterWord (release s) else s) := by
  have e : exec .evYieldEnd s = execEvYieldEnd s := rfl
  simp only [e, execEvYieldEnd, h, release, List.isEmpty_iff, Bool.or_eq_true, beq_iff_eq]

theorem evalMask_frame (w : Wave) (m : Nat) :
    w.evalMask m = { w with parked := (w.evalMask m).parked, waitOn := (w.evalMask m).waitOn
                            fast := (w.evalMask m).fast } := by
  unfold Wave.evalMask
  dsimp only
  split <;> rfl

theorem evalMasks_frame (ms : List Nat) (w : Wave) :
    Wave.evalMasks ms w = { w with parked := (Wave.evalMasks ms w).parked, waitOn := (Wave.evalMasks ms w).waitOn
                                   fast := (Wave.evalMasks ms w).fast } := by
  induction ms generalizing w with
  | nil => rfl
  | cons m ms ih =>
    rw [Wave.evalMasks, ih (w.evalMask m), evalMask_frame w m]

theorem restore_frame (w : Wave) (lanes : Lanes) :
    w.restore lanes = { w with demoted := (w.restore lanes).demoted, fast := (w.restore lanes).fast } := by
  unfold Wave.restore
  split <;> rfl

theorem restoreBy_frame (w : Wave) (lanes : Lanes) :
    w.restoreBy lanes = { w with demoted := (w.restoreBy lanes).demoted, fast := (w.restoreBy lanes).fast } := by
  unfold Wave.restoreBy
  split <;> exact restore_frame w _

/-- R149: what the parking of lanes at the end of a clause may change. -/
theorem parkNow_frame (w : Wave) :
    w.parkNow = { w with parkAtEnd := [], parked := w.parkNow.parked, waitOn := w.parkNow.waitOn
                         demoted := w.parkNow.demoted, fast := w.parkNow.fast } := by
  unfold Wave.parkNow
  dsimp only
  split
  · rfl
  · rw [evalMasks_frame, restoreBy_frame]

theorem parkNow_of_none {w : Wave} (h : w.parkAtEnd = []) : w.parkNow = w := by
  have empty : laneSet (fun _ => false) = 0 := by decide
  simp only [Wave.parkNow, h, List.filter_nil, List.any_nil, empty, beq_self_eq_true, if_true]
  rw [← h]

theorem parkNow_hold (w : Wave) : w.parkNow.hold = w.hold := by rw [parkNow_frame]

theorem parkNow_clause (w : Wave) : w.parkNow.clause = w.clause := by rw [parkNow_frame]

theorem parkNow_pc (w : Wave) : w.parkNow.pc = w.pc := by rw [parkNow_frame]

theorem parkNow_parkAtEnd (w : Wave) : w.parkNow.parkAtEnd = [] := by rw [parkNow_frame]

theorem afterWord_release_of_more {s : State} {c : Clause} (hc : s.w.clause = some c) (more : c.idx < c.words.length) :
    afterWord (release s) = release s := by
  simp [afterWord, release, hc, more]

/-- The wave that is held no longer and has left its clause. -/
def leaveClause (w : Wave) : Wave := { w with hold := .none, clause := none }

theorem afterWord_release_of_last {s : State} {c : Clause} (hc : s.w.clause = some c) (last : c.words.length ≤ c.idx) :
    afterWord (release s) = { s with w := (leaveClause s.w).parkNow } := by
  simp [afterWord, release, leaveClause, hc, Nat.not_lt.2 last]

/-- R149: a wave whose wait has ended after the last word of its clause has left the clause, and the lanes that
executed WAITM are parked. -/
def ClauseEnded (s t : State) : Prop :=
  t.w.hold = .none ∧ t.w.clause = none ∧ t.w.pc = s.w.pc ∧ t.w.parkAtEnd = [] ∧
  (s.w.parkAtEnd = [] → t = { s with w := { s.w with hold := .none, clause := none } })

theorem clauseEnded_of_last {s : State} {c : Clause} (hc : s.w.clause = some c) (last : c.words.length ≤ c.idx) :
    ClauseEnded s (afterWord (release s)) := by
  rw [afterWord_release_of_last hc last]
  refine ⟨parkNow_hold _, parkNow_clause _, parkNow_pc _, parkNow_parkAtEnd _, fun noneWait => ?_⟩
  rw [parkNow_of_none (w := leaveClause s.w) noneWait]
  rfl

/-- Settles O14: each clause is the equation of one instruction; the ends turn on what `afterWord` does. -/
theorem waitingInstructions : Obligations.WaitingInstructions := by
  unfold Obligations.WaitingInstructions
  refine ⟨fun _ => rfl, fun f s => ?_, fun f s h => exec_sleep_of_active f h,
    fun f s h => ⟨exec_sleep_of_idle f h, exec_yield_of_idle h⟩,
    fun s h => ⟨_, exec_yield_of_active h, _, rfl, fun id => mem_readyPartners⟩,
    fun w ws left ns mhz h => passYield_of_yield ns mhz h, fun s u c hold hc more => ?_,
    fun s ws u c hold hc more => ?_, fun s c hc last => ⟨fun u hold => ?_, fun ws u hold => ?_⟩⟩
  · simp only [← waitMet_iff, ← waitsMet_iff, exec_wait]
    exact ⟨fun met => by rw [if_pos met], fun met => by rw [if_neg met]; rfl⟩
  · rw [exec_evSleepEnd hold, afterWord_release_of_more hc more]
    exact ⟨fun due => by rw [if_pos due]; rfl, fun early => by rw [if_neg (Nat.not_le.2 early)]⟩
  · rw [exec_evYieldEnd hold, afterWord_release_of_more hc more]
    exact ⟨fun due => by rw [if_pos due]; rfl, fun hw hu => by rw [if_neg (not_or.2 ⟨hw, hu⟩)]⟩
  · rw [exec_evSleepEnd hold]
    exact ⟨fun due => ⟨_, by rw [if_pos due], clauseEnded_of_last hc last⟩,
      fun early => by rw [if_neg (Nat.not_le.2 early)]⟩
  · rw [exec_evYieldEnd hold]
    exact ⟨fun due => ⟨_, by rw [if_pos due], clauseEnded_of_last hc last⟩,
      fun hw hu => by rw [if_neg (not_or.2 ⟨hw, hu⟩)]⟩

end Sys2Proof.Waits

namespace Sys2Proof.Pools

open Sys2Proof.Machine Sys2Proof.Safety

/-!
# Continuation pools and the size of a page (O45)

The statement takes any entry of a TLB, and a state may hold one whose page has no offset bits, which no walk makes
(R169: 16, 21 or 30). On such a page FLUSH and FORMED of a pool descriptor (R399) have one address, so that the write of
FORMED that comes with an emitted bin (R400) is itself noticed as a write of FLUSH (R402).
-/

/-! ## A write of a command processor to a page that it holds -/

theorem sharedTlb_cpUnit (stack : Nat) : sharedTlb (cpUnit stack) = none := by
  have above (k : Nat) (hk : k ≤ 544) : ¬644 + stack < k := by omega
  simp [sharedTlb, cpUnit, above]

theorem tlbEntry_of_cpHeld {s : State} {stack ctx va n : Nat} {need : Need} {leaf : Leaf}
    (h : CpHeld s stack ctx va n need leaf) : tlbEntry s (cpUnit stack) ctx va = some leaf := by
  have hit := h.2
  simpa [tlbHit, sharedTlb_cpUnit] using hit

theorem fillTlb_of_cpHeld {s : State} {stack ctx va n : Nat} {need : Need} {leaf : Leaf}
    (h : CpHeld s stack ctx va n need leaf) : fillTlb (cpUnit stack) ctx va leaf s = s := by
  simp [fillTlb, h.2, putTlb, tlbEntry_of_cpHeld h, sharedTlb_cpUnit]

theorem recallLine_of_noUpdates {s : State} (pa : Nat) (h : s.updates = []) : recallLine pa s = s := by
  cases s
  simp only at h
  subst h
  rfl

theorem memError_of_sound {s : State} {pa n : Nat} (h : Sound s pa n) : memError s pa = none := by
  obtain ⟨hpoison, hecc, -⟩ := h
  unfold memError
  rw [hpoison, hecc]
  rfl

theorem cpPieces_of_cpHeld {s : State} {stack ctx va n : Nat} {need : Need} {leaf : Leaf}
    (h : CpHeld s stack ctx va n need leaf) : cpPieces va n = [(va, n)] := by
  obtain ⟨⟨-, sector, -⟩, -⟩ := h
  simp [cpPieces, sector]

theorem leafOf_of_cpHeld {s : State} {stack ctx va n : Nat} {need : Need} {leaf : Leaf}
    (h : CpHeld s stack ctx va n need leaf) : leafOf s (cpUnit stack) ctx va need = some leaf := by
  obtain ⟨⟨-, -, -, hx, -⟩, -⟩ := h
  simp [leafOf, hx]

theorem cpBad_of_cpHeld {s : State} {stack ctx va n : Nat} {need : Need} {leaf : Leaf}
    (h : CpHeld s stack ctx va n need leaf) : cpBad s stack ctx 0 need va n = none := by
  have leafAt := leafOf_of_cpHeld h
  have pieces := cpPieces_of_cpHeld h
  obtain ⟨⟨-, -, low, hx, sound, -⟩, -⟩ := h
  have noError : viewError s ctx 0 leaf.ver (leaf.addr va) = none := by
    simp [viewError, memError_of_sound sound]
  have access : accessBad s (cpUnit stack) ctx 0 { need := need } va = none := by
    rw [accessBad, if_neg (Nat.not_le.2 low), hx]
    rfl
  have read : readBad s ctx 0 leaf.ver va (leaf.addr va) = none := by
    rw [readBad, noError]
  have piece : pieceBad s stack ctx 0 need va = none := by
    rw [pieceBad, if_neg (Nat.not_le.2 low), access, leafAt]
    exact read
  simp [cpBad, pieces, firstSome, piece]

/-- R390, R443: a write to a page that it holds and that permits it is one write at the home. -/
theorem cpWrite_of_cpHeld {s : State} {stack ctx va : Nat} {leaf : Leaf} (bs : List Nat)
    (h : CpHeld s stack ctx va bs.length .store leaf) :
    cpWrite stack ctx va bs s = .ok (homeWrite leaf.cached (leaf.addr va) bs.length (ofBytes bs) s) := by
  obtain ⟨⟨-, -, -, -, -, noUpdates⟩, -⟩ := id h
  simp [cpWrite, cpBad_of_cpHeld h, cpPieces_of_cpHeld h, writeCp, leafOf_of_cpHeld h, fillTlb_of_cpHeld h,
    recallLine_of_noUpdates _ noUpdates]

/-! ## What a write at a home makes of the launches -/

theorem touchLine_launches (s : State) (num : Nat) (wr : BitVec 8) : (touchLine s num wr).launches = s.launches := rfl

theorem clearWaiters_launches (pa : Nat) (s : State) : (clearWaiters pa s).launches = s.launches := by
  unfold clearWaiters
  dsimp only
  split <;> rfl

theorem wake_launches (pa n : Nat) (s : State) : (wake pa n s).launches = s.launches := by
  unfold wake
  dsimp only
  split
  · rfl
  · split
    · rfl
    · exact clearWaiters_launches _ _

/-- R402: a launch as a write of n bytes leaves it: one whose FLUSH word the write meets is asked for a flush. -/
def noticed (pa n : Nat) (l : Launch) : Launch :=
  if l.flushPa ≠ 0 ∧ pa < l.flushPa - 1 + 4 ∧ l.flushPa - 1 < pa + n then { l with flush := true } else l

theorem homeWrite_launches (cached : Bool) (pa n v : Nat) (s : State) :
    (homeWrite cached pa n v s).launches = s.launches.map (noticed pa n) := by
  have written : ∀ t : State, t.launches = s.launches →
      (noticeWrite pa n (wake pa n t)).launches = s.launches.map (noticed pa n) := by
    intro t ht
    simp only [noticeWrite, wake_launches, ht, Bool.and_eq_true, bne_iff_ne, decide_eq_true_eq, and_assoc]
    rfl
  unfold homeWrite
  cases cached
  · exact written _ rfl
  · exact written _ rfl

/-! ## Emission -/

theorem xlate_of_hit {s : State} {who ctx va : Nat} {need : Need} {leaf : Leaf} (hit : tlbHit s who ctx va = some leaf) :
    xlate s who ctx va need = permit s need (leafLevel leaf) leaf := by
  simp [xlate, rawLeaf, hit]

theorem cpHeld_updLaunch {s : State} {stack ctx va n id : Nat} {need : Need} {leaf : Leaf} (f : Launch → Launch)
    (h : CpHeld s stack ctx va n need leaf) : CpHeld (updLaunch id f s) stack ctx va n need leaf := by
  obtain ⟨⟨hn, sector, low, hx, sound, noUpdates⟩, hit⟩ := h
  have hit' : tlbHit (updLaunch id f s) (cpUnit stack) ctx va = some leaf := hit
  rw [xlate_of_hit hit] at hx
  exact ⟨⟨hn, sector, low, (xlate_of_hit hit').trans hx, sound, noUpdates⟩, hit'⟩

/-- R400: a launch whose bin has formed a wave. -/
def emitted (b : Nat) (recs : List (Nat × List Nat)) (l : Launch) : Launch :=
  { l with bins := l.bins.filter (·.1 != b), count := l.count + 1
           formedQueue := l.formedQueue ++ [{ number := l.count, recs := recs }] }

theorem emitBin_of_empty {s : State} {l : Launch} {id b : Nat} (hl : s.launch id = some l)
    (hb : SMap.get [] l.bins b = []) : emitBin id b s = s := by
  simp [emitBin, hl, hb]

/-- R400: an emission is a change of the launch and a write of FORMED. -/
theorem emitBin_of_cpHeld {s : State} {l : Launch} {id b : Nat} {leaf : Leaf} (hl : s.launch id = some l)
    (hb : SMap.get [] l.bins b ≠ []) (h : CpHeld s l.packet.stack l.ctx (l.poolA + 24) 4 .store leaf) :
    emitBin id b s = homeWrite leaf.cached (leaf.addr (l.poolA + 24)) 4 (ofBytes (toBytes 4 (l.count + 1)))
      (updLaunch id (emitted b (SMap.get [] l.bins b)) s) := by
  have written := cpWrite_of_cpHeld (toBytes 4 (l.count + 1))
    (cpHeld_updLaunch (id := id) (emitted b (SMap.get [] l.bins b)) h)
  have full : (SMap.get [] l.bins b).isEmpty = false := by simpa using hb
  unfold emitBin
  unfold emitted at written ⊢
  simp only [hl, full, written]
  rfl

/-- R402: nothing more is emitted once the bins are empty. -/
theorem emitAll_of_emptied {s : State} {m : Launch} {id : Nat} (hm : (emitBin id 0 s).launch id = some m)
    (hbins : m.bins = []) : emitAll id s = emitBin id 0 s := by
  rw [emitAll, List.range_succ_eq_map, List.foldl_cons]
  exact List.foldl_fixed' (fun b => emitBin_of_empty hm (by rw [hbins]; rfl)) _

/-- POOL_FLUSH of a pool that is asked for a flush. -/
theorem exec_evPoolFlush_of_flush {s : State} {l : Launch} {id : Nat} (hl : s.launch id = some l)
    (hpool : l.pool = true) (hflush : l.flush = true) :
    exec (.evPoolFlush id) s = .next (emitAll id (updLaunch id (fun l => { l with flush := false }) s)) := by
  have e : exec (.evPoolFlush id) s = execEvPoolFlush id s := rfl
  rw [e, execEvPoolFlush, hl]
  simp only [hpool, hflush, Bool.and_self, if_true]

/-! ## The counterexample -/

/-- A page of one byte, which permits R and W. -/
def bytePage : Leaf :=
  { pa := 0, bits := 0, r := true, w := true, x := false, cache := 0, rm := false, fe := false, ver := false, key := 0
    node := 0 }

/-- A pool whose descriptor stands at address 0, with one record in bin 0. -/
def bytePool (flush : Bool) : Launch :=
  { seatLaunch 7 with pool := true, bins := [(0, [(0, [])])], flush := flush, flushPa := bytePage.addr 20 + 1 }

/-- The state in which it is the only launch, and the command processor's TLB holds the page. -/
def byteState (flush : Bool) : State :=
  { launches := [bytePool flush], tlb := [{ core := cpUnit 0, ctx := 0, vpn := 0, leaf := bytePage }] }

theorem byteState_cpHeld (flush : Bool) : CpHeld (byteState flush) 0 0 24 4 .store bytePage := by
  have sound : Sound (byteState flush) (bytePage.addr 24) 4 := ⟨rfl, rfl, BitVec.getLsbD_zero, by decide, by decide⟩
  exact ⟨⟨by decide, rfl, by decide, rfl, sound, rfl⟩, rfl⟩

/-- The launch after the flush: its bin emitted, and, by the write of FORMED, asked for a flush again. -/
theorem emitAll_byteState_launches : (emitAll 7 (byteState false)).launches = [emitted 0 [(0, [])] (bytePool true)] := by
  have emission : (emitBin 7 0 (byteState false)).launches = [emitted 0 [(0, [])] (bytePool true)] := by
    rw [emitBin_of_cpHeld (l := bytePool false) rfl (by decide) (byteState_cpHeld false), homeWrite_launches]
    rfl
  have found : (emitBin 7 0 (byteState false)).launch 7 = some (emitted 0 [(0, [])] (bytePool true)) := by
    rw [State.launch, emission]
    rfl
  rw [emitAll_of_emptied found rfl, emission]

/-- Refutes O45: in `byteState` a flush empties the bins, but by the emission's own write the pool is asked for a flush
again, and the clause of R402 says that it is not. -/
theorem not_launchesAndPools : ¬ Obligations.LaunchesAndPools := by
  rintro ⟨-, -, -, pools⟩
  obtain ⟨-, flushes, -⟩ := pools (byteState true) (bytePool true) rfl rfl
  obtain ⟨t, ht, m, hm, ended, -⟩ := flushes bytePage rfl (byteState_cpHeld true) rfl
  rw [exec_evPoolFlush_of_flush (l := bytePool true) rfl rfl rfl] at ht
  have next : emitAll 7 (byteState false) = t := Host.Outcome.next.inj ht
  rw [← next, emitAll_byteState_launches] at hm
  have again : m.flush = true := List.singleton_inj.1 hm ▸ rfl
  rw [ended] at again
  exact Bool.false_ne_true again

end Sys2Proof.Pools
